-- ==== Sys2Proof/Word.lean ====
section
/-! DEFINITION. The 32-bit word of the microengine and the byte. -/

namespace Sys2Proof

/-- R282 | a register of a thread -/
abbrev Word := BitVec 32

/-- R392 | a byte of a bank or pad -/
abbrev Byte := BitVec 8

end Sys2Proof
end

