-- ==== Sys2Proof/Syntax.lean ====
section
/-! DEFINITION. The commands and events of the module, one constructor for each row of the table, with their operands. -/

namespace Sys2Proof.Machine

/-- R120 | unit suffixes of a decimal, read only in the case given -/
inductive Dim where
  | none | ps | ns | us | ms | s | mV | V | nA | uA | mA | A | pF | Hz | kHz | MHz | GHz | pct | Vus | Vus2
deriving DecidableEq, Repr

/-- R120 | a decimal as written: sign, the digits without the point, how many of them are fraction digits, unit -/
structure Val where
  neg : Bool := false
  digits : Nat := 0
  scale : Nat := 0
  unit : Dim := .none
deriving DecidableEq, Repr

/-- R120 | a hex number: its value and how many hex digits were written -/
structure Hex where
  val : Nat := 0
  digits : Nat := 1
deriving DecidableEq, Repr

/-- R120 | a secret: its value and how many hex digits were written -/
structure Sec where
  val : Nat := 0
  digits : Nat := 0
deriving DecidableEq, Repr

/-- R120 | the kinds of names that lists hold -/
inductive UKind where | ch | v | dps | aux | adc | tmu
deriving DecidableEq, Repr

/-- R120 | a list item: one name (both ends equal) or a range a..b -/
structure URange where
  k1 : UKind
  a : Nat
  k2 : UKind
  b : Nat
deriving DecidableEq, Repr

/-- R120 | the value of a KEY=value field -/
inductive Arg where
  | num (v : Val)
  | hex (x : Hex)
  | word (w : String)
  | list (l : List URange)
deriving DecidableEq, Repr

/-- R120 | a KEY=value field, its key in upper case -/
structure Fld where
  key : String
  val : Arg
deriving DecidableEq, Repr

/-- R164 | a unit of a grant field: plain, added by +name, or removed by -name -/
inductive Sign where | plain | plus | minus
deriving DecidableEq, Repr

/-- R161, R164 | a field of DECKLE OPEN or DECKLE GRANT: a list of units with their signs, or a number -/
inductive GVal where
  | units (l : List (Sign × URange))
  | num (n : Nat)
deriving DecidableEq, Repr

/-- R161 | a grant field with its key -/
structure GFld where
  key : String
  val : GVal
deriving DecidableEq, Repr

/-- R116 to R122 | what every command line brings: ticks of wall time since the command before it (log 3),
the line it arrives on (0 CON, 1 + n USBn), its bytes up to its terminator, a SEAL suffix among them, and, where its
tokens after the command word fit no form of the command, the 1-based position of the first bad token (R121). -/
structure Hdr where
  dt : Nat := 0
  line : Fin 10 := 0
  text : List Nat := []
  bad : Option Nat := none
deriving DecidableEq, Repr

/-- R141, R145 | a line of a DATA block: its characters, in SEAL mode with its suffix -/
structure BlkRow where
  text : List Nat
deriving DecidableEq, Repr

/-- R141 | the header line DATA n -/
structure BlkHdr where
  row : BlkRow
  n : Nat
deriving DecidableEq, Repr

/-- R141 | a DATA block that arrived whole: its header, its payload lines and its closing line END c -/
structure Blk where
  hdr : BlkHdr
  rows : List BlkRow
  fin : BlkRow
  crc : Nat
deriving DecidableEq, Repr

/-- R22, R26 | login targets -/
inductive Target where | deckle (d : Nat) | owner | observer (n : Nat)
deriving DecidableEq, Repr

/-- R135 | which tag memory a tag belongs to -/
inductive TagMem where | deckle (d : Nat) | owner | session (line : Nat)
deriving DecidableEq, Repr

/-- R146 | the time of an AT prefix: absolute in ticks, or relative -/
inductive AtTime where | abs (t : Nat) | rel (v : Val)
deriving DecidableEq, Repr

/-- R147 | the forms that AT may schedule, per the marks of the command index, and any other command by its word -/
inductive Sched where
  | arm | run | trig | stop | stopOff | press
  | dpsTarget (n : Nat) (v : Val) | dpsFfofs (n : Nat) (k : Val)
  | auxPlay (n : Nat) | auxHalt (n : Nat) | adcStart (n : Nat) | tmuStart (n : Nat) | tmuHalt (n : Nat)
  | other (word : String)
deriving DecidableEq, Repr

/-- R196 | pace settings -/
inductive Pace where | eco | nominal | swift
deriving DecidableEq, Repr

/-- R225 | reference selections and sources -/
inductive RefSrc where | int | ext | chain
deriving DecidableEq, Repr

/-- R221 | REF-IN classes -/
inductive RefIn where | none | m10 | m100 | bad
deriving DecidableEq, Repr

/-- R221 | what the input monitor finds at REF-IN: the class, and whether it has held for 10 ms in a window -/
structure RefObs where
  cls : RefIn
  held : Bool
deriving DecidableEq, Repr

/-- R240 | chain roles -/
inductive ChainRole where | off | master | slave
deriving DecidableEq, Repr

/-- R405 | power states of a vat bank -/
inductive BankPow where | on | retain | off
deriving DecidableEq, Repr

/-- R523 | event classes -/
inductive EvClass where | done | fault | limit | note
deriving DecidableEq, Repr

/-- R529 | the physical lines that EVENT UNMAP names -/
inductive PhysLine where | evt (n : Nat) | trigOut (n : Nat) | failOut | mk (n : Nat)
deriving DecidableEq, Repr

/-- R353 | the three comparator regions -/
inductive Region where | high | low | mid
deriving DecidableEq, Repr

/-- R334, R336 | what a pin's comparators show for one sheet of the quire that is decided: the channel, the sheet, the
region at C1 and, for a WINDOW compare, the regions taken from C1 to C2 -/
structure PinObs where
  ch : Nat
  sheet : Nat
  at1 : Region
  win : List Region := []
deriving DecidableEq, Repr

/-- R88 | what a self-test item finds failing: the item itself, a vat bank, the control-engine pad, the measurement pad, a channel, or a
converter, generator, supply or time unit -/
inductive TestFail where
  | item | bank (n : Fin 64) | cePad | mPad | chan (c : Fin 48) | adc (n : Fin 8) | aux (n : Fin 2) | dps (n : Fin 4) | tmu (n : Fin 4)
deriving DecidableEq, Repr

/-- R88 | what one self-test item found: its name and what failed -/
structure ItemObs where
  name : String
  failed : List TestFail := []
deriving DecidableEq, Repr

/-- R286, R302 | a bit of a control store that turns over: a bit of a microword or, from 32, its parity bit; a bit of a nanoword or, from
128, P0 and P1 -/
structure Upset where
  nano : Bool := false
  addr : Nat := 0
  bit : Nat := 0
deriving DecidableEq, Repr

/-- R294 | the fields of a nanoword that an ALU operation reads -/
structure AluF where
  asel : Nat := 0
  bsel : Nat := 0
  dsel : Nat := 0
  upd : Bool := false
  u0op : Nat := 0
  u1op : Nat := 0
  imm : Nat := 0
  k16 : Nat := 0
deriving DecidableEq, Repr

/-- R239, R248 | a chain frame as it stands on the token lane; fine is the fine part of the stamp that travels with a group start
(log 14) -/
structure Frame where
  sync : Nat := 0xB5E4
  ty : Nat := 0
  hop : Nat := 0
  tb : Nat := 0
  group : Nat := 0
  arg : Nat := 0
  rsv : Nat := 0
  crc : Nat := 0
  fine : Nat := 0
deriving DecidableEq, Repr

/-- R308 | kinds of containers that MICRO IMAGE takes -/
inductive ImgKind where | firmware | microcode | patch
deriving DecidableEq, Repr

/-- R306, R84 | what cryptography makes of a container's bytes: whether its signature verifies, whether a patch's GCM tag verifies, and the
payload that a patch decrypts to -/
structure Container where
  sigOk : Bool := true
  gcmOk : Bool := true
  plain : List Nat := []
deriving DecidableEq, Repr

/-- R262 to R277, R284 | an op as SEQ OP writes it; numbers are as written, range checks are the module's -/
inductive OpText where
  | nop | halt
  | run (pa : Nat) (n : Nat) (cont : Bool)
  | matchOp (pa : Nat)
  | waitt (pa : Nat) (dur : Val)
  | loop (n : Nat) | endl (t : Nat)
  | jump (t : Nat) | call (t : Nat) | ret
  | brfail (sfail : Bool) (neg : Bool) (clr : Bool) (t : Nat)
  | mark (m : Nat) (s : Nat)
  | learn (l : List Nat)
  | tsel (o : Nat)
  | custom (code : Nat) (flag : Nat) (a : Nat) (b : Nat)
deriving DecidableEq, Repr

/-- R416, R418 | the analogue quantities of one control period, as the converters deliver them: sense voltage, force
voltage and current as binary32 bit patterns -/
structure DpsMeas where
  vs : Nat := 0
  vf : Nat := 0
  io : Nat := 0
deriving DecidableEq, Repr

/-- R476 | what a converter holds in one conversion: the value at its input, in the unit of its source -/
structure AdcMeas where
  v : Rat := 0
deriving DecidableEq, Repr

/-- R37, R371, R442, R551 | temperatures in degrees Celsius -/
structure Temps where
  die : Int := 25
  board : Int := 25
  fe : List Int := []
  dps : List Int := []
deriving DecidableEq, Repr

/-- R348 | the TDR result of one pin: the round trip found, in fine steps, or none when no reflection was seen -/
structure TdrRes where
  ch : Nat
  delay : Option Int
deriving DecidableEq, Repr

/-- R544 | the selection of TRACE SELECT: packet kinds, and the micro range if one is given -/
structure TraceSel where
  kinds : List String
  range : Option (Hex × Hex) := none
deriving DecidableEq, Repr

end Sys2Proof.Machine

namespace Sys2Proof

open Machine

/-- The commands: one constructor for each row of the table of operations and events; the lines that a
host sends come first, the events after them. -/
inductive Instr where
  /-- ACCEPT_DEGRADED | R96 | The owner accepts the failed units, which are withdrawn, and the module enters WARMING or READY -/
  | acceptDegraded (h : Hdr) (units : List String)
  /-- UNKNOWN_COMMAND | R121 | A line with an unknown command word, or a line that fails before its word is known, is refused with nothing done -/
  | unknownCommand (h : Hdr)
  /-- DATA_BLOCK_TIMEOUT | R144 | More than 10 s pass between two lines of a DATA block, and the command is refused -/
  | dataBlockTimeout (h : Hdr) (hdr : BlkHdr) (rows : List BlkRow)
  /-- DATA_BLOCK_ABORT | R144 | The host sends !ABORT inside a DATA block, and the command is refused with E415 BADBLOCK ABORTED -/
  | dataBlockAbort (h : Hdr) (hdr : BlkHdr) (rows : List BlkRow)
  /-- HELLO | R577 | HELLO returns the module identity, role, line and mode -/
  | hello (h : Hdr)
  /-- HELLO_ECHO | R145 | HELLO ECHO returns the DATA block it received -/
  | helloEcho (h : Hdr) (blk : Blk)
  /-- HELP | R578 | HELP lists the command words, or the forms of one word, that the role may issue -/
  | help (h : Hdr) (word : Option String)
  /-- IDENT | R579 | IDENT returns the variant, serial number, versions, ownership and state -/
  | ident (h : Hdr)
  /-- IDENT_CERT | R42 | IDENT CERT returns the device certificate as a DATA block -/
  | identCert (h : Hdr)
  /-- IDENT_ATTEST | R43 | IDENT ATTEST returns a statement line and its ECDSA signature over the given nonce -/
  | identAttest (h : Hdr) (nonce : Sec)
  /-- STATUS | R580 | STATUS returns the module line and the deckle lines that the role may see -/
  | status (h : Hdr)
  /-- STATUS_METER | R14 | STATUS METER returns the owner's per-deckle metering at 1 s resolution -/
  | statusMeter (h : Hdr)
  /-- SELFTEST | R91 | SELFTEST returns the self-test report of the current start -/
  | selftest (h : Hdr)
  /-- TIME | R220 | TIME returns the timebase count at execution -/
  | time (h : Hdr)
  /-- MODE | R130 | MODE with no argument reports the line, role, mode and line settings -/
  | mode (h : Hdr)
  /-- MODE_MACHINE | R130 | MODE MACHINE switches the session to machine mode -/
  | modeMachine (h : Hdr)
  /-- MODE_TYPED | R130 | MODE TYPED switches the session to typed mode -/
  | modeTyped (h : Hdr)
  /-- MODE_SEAL | R28 | MODE SEAL makes every later line of the machine-mode session carry a MAC -/
  | modeSeal (h : Hdr)
  /-- MODE_ECHO | R129 | MODE ECHO= sets echo in typed mode -/
  | modeEcho (h : Hdr) (on : Bool)
  /-- MODE_XON | R129 | MODE XON= switches XON/XOFF flow control in typed mode -/
  | modeXon (h : Hdr) (on : Bool)
  /-- MODE_IDLE | R113 | MODE IDLE= sets the session idle time from 60 s to 86,400 s -/
  | modeIdle (h : Hdr) (n : Val)
  /-- MODE_BAUD | R133 | MODE BAUD= sets a new CON baud rate, which applies 20 ms after the reply -/
  | modeBaud (h : Hdr) (n : Val)
  /-- OWNER_TAKE | R15 | OWNER TAKE sets the owner key of an unowned module from the UART console -/
  | ownerTake (h : Hdr) (key : Sec)
  /-- OWNER_REKEY | R16 | OWNER REKEY replaces the owner key, which arrives wrapped, after checking C -/
  | ownerRekey (h : Hdr) (w : Sec) (c : Sec)
  /-- OWNER_OBSERVER_KEY | R16 | OWNER OBSERVER OBn KEY sets or replaces an observer key, which arrives wrapped -/
  | ownerObserverKey (h : Hdr) (n : Nat) (w : Sec) (c : Sec)
  /-- OWNER_RELEASE | R20 | OWNER RELEASE closes every deckle, erases every key and leaves the module unowned -/
  | ownerRelease (h : Hdr)
  /-- OWNER_CLEAR | R21 | OWNER CLEAR acts as OWNER RELEASE without a credential, on CON within 30 s of self-test -/
  | ownerClear (h : Hdr)
  /-- DECKLE_KEY | R17 | DECKLE d KEY sets a provisional key for a CLOSED deckle and resets its lockout -/
  | deckleKey (h : Hdr) (d : Nat) (w : Sec) (c : Sec)
  /-- LOGIN | R25 | LOGIN target answers with a fresh 128-bit nonce for every named target -/
  | login (h : Hdr) (target : Target)
  /-- LOGIN_RESP | R23 | LOGIN RESP checks the HMAC response, counts failures and locks out, and schedules the reply for 50 ms later -/
  | loginResp (h : Hdr) (a : Sec)
  /-- LOGIN_REKEY | R18 | LOGIN REKEY replaces the deckle key, ending the provisional state and recording KEYSET -/
  | loginRekey (h : Hdr) (w : Sec) (c : Sec)
  /-- LOGOUT | R113 | LOGOUT returns the session to Anonymous -/
  | logout (h : Hdr)
  /-- AT_SCHEDULE | R148 | An AT prefix is checked for lateness and the action is queued, or executed at once under LATE=NOW -/
  | atSchedule (h : Hdr) (t : AtTime) (late : Bool) (c : Sched)
  /-- AT_CANCEL | R150 | AT CANCEL removes a pending action up to 2 µs before its time -/
  | atCancel (h : Hdr) (n : Nat)
  /-- DECKLE_OPEN | R161 | DECKLE d OPEN records grants for a CLOSED keyed deckle and couches its banks -/
  | deckleOpen (h : Hdr) (d : Nat) (g : List GFld)
  /-- DECKLE_GRANT | R164 | DECKLE d GRANT adds or removes units of an OPEN or HELD deckle, clears the seal and makes it HELD REASON=GRANT -/
  | deckleGrant (h : Hdr) (d : Nat) (g : List GFld)
  /-- DECKLE_CLOSE | R189 | DECKLE d CLOSE zeroes every resource of an OPEN or HELD deckle, which becomes CLOSED -/
  | deckleClose (h : Hdr) (d : Nat)
  /-- DECKLE_RECLAIM | R33 | DECKLE d RECLAIM stops the deckle, takes its outputs off, zeroes it and ends its session -/
  | deckleReclaim (h : Hdr) (d : Nat)
  /-- DECKLE_REARM | R193 | DECKLE REARM permits arming again after a vendor-region machine check -/
  | deckleRearm (h : Hdr)
  /-- DECKLE_LIST | R581 | DECKLE with no argument, or with a deckle number, returns the owner's view of the deckles -/
  | deckleList (h : Hdr) (d : Option Nat)
  /-- FURNISH_SEAL | R169 | FURNISH SEAL validates the working furnish in order and sets the seal, or refuses it with E427 -/
  | furnishSeal (h : Hdr)
  /-- FURNISH_LOAD | R176 | FURNISH LOAD replaces the working furnish and banks from a slot, then validates and seals them -/
  | furnishLoad (h : Hdr) (n : Nat)
  /-- FURNISH_SAVE | R177 | FURNISH SAVE writes the sealed furnish and its bank images into a slot, with the CRC last -/
  | furnishSave (h : Hdr) (n : Nat)
  /-- FURNISH_START | R176 | FURNISH START marks a slot, or none, as the deckle's start slot -/
  | furnishStart (h : Hdr) (n : Option Nat)
  /-- FURNISH_DROP | R178 | FURNISH DROP erases a slot, which becomes unreadable within 200 ms -/
  | furnishDrop (h : Hdr) (n : Nat)
  /-- FURNISH_SLOTS | R176 | FURNISH SLOTS lists the deckle's slots -/
  | furnishSlots (h : Hdr)
  /-- FURNISH_SET | R166 | FURNISH SET edits the OPTIONS section of the furnish -/
  | furnishSet (h : Hdr) (f : List Fld)
  /-- FURNISH_REVERT | R168 | FURNISH REVERT discards the shadow and copies the active furnish into it -/
  | furnishRevert (h : Hdr)
  /-- FURNISH_SHOW | R168 | FURNISH SHOW returns a section of the working, active or shadow furnish -/
  | furnishShow (h : Hdr) (sect : Option String) (shadow : Bool)
  /-- ARM | R160 | ARM checks admission, applies the furnish, loads the dispatch table, resets the thread and fills the felts -/
  | arm (h : Hdr)
  /-- RUN | R234 | RUN starts sheet 0 at the first µs multiple at least 2,500 ticks after execution -/
  | run (h : Hdr)
  /-- TRIG | R234 | TRIG stamps a trigger, and sheet 0 follows 35 ticks later -/
  | trig (h : Hdr)
  /-- STOP | R158 | STOP, executed ahead of queued lines, stops the deckle at its next quire boundary or cancels a WARM wait -/
  | stop (h : Hdr)
  /-- STOP_OFF | R159 | STOP OFF stops the deckle, ramps its DPS down, opens its AUX relays and merges the shadow -/
  | stopOff (h : Hdr)
  /-- PRESS | R183 | PRESS checks and validates the shadow, then waits for a boundary -/
  | press (h : Hdr)
  /-- PACE_SET | R196 | PACE SET changes the core voltage setting, refusing a slower one while a deckle is ARMED or RUNNING -/
  | paceSet (h : Hdr) (p : Pace)
  /-- PACE | R199 | PACE returns the setting, the derating and, to the owner, the monitor ratio -/
  | pace (h : Hdr)
  /-- MICRO_IMAGE | R308 | MICRO IMAGE checks and stores a firmware, microcode or patch container for the next start -/
  | microImage (h : Hdr) (kind : ImgKind) (n : Option Nat) (blk : Blk) (img : Container)
  /-- MICRO_IMAGE_LIST | R308 | MICRO IMAGE LIST reports the stored images -/
  | microImageList (h : Hdr)
  /-- MICRO_IMAGE_DROP | R308 | MICRO IMAGE DROP PATCH erases a patch slot -/
  | microImageDrop (h : Hdr) (n : Nat)
  /-- MICRO_LOAD | R310 | MICRO LOAD writes a block of micro words or nanowords into the customer slice -/
  | microLoad (h : Hdr) (nano : Bool) (a : Nat) (blk : Blk)
  /-- MICRO_WORD | R309 | MICRO WORD writes one microword or nanoword -/
  | microWord (h : Hdr) (a : Nat) (v : Hex) (lo : Option Hex)
  /-- MICRO_DISPATCH_WRITE | R299 | MICRO DISPATCH e v writes an entry of the custom dispatch table -/
  | microDispatchWrite (h : Hdr) (e : Nat) (v : Hex)
  /-- MICRO_DISPATCH_LIST | R309 | MICRO DISPATCH lists the 32 dispatch entries -/
  | microDispatchList (h : Hdr)
  /-- MICRO_READ | R309 | MICRO READ returns slice words as a block -/
  | microRead (h : Hdr) (nano : Bool) (a : Nat) (n : Nat)
  /-- MICRO_CHECK | R323 | MICRO CHECK runs the analyzer on every custom op site and reports costs -/
  | microCheck (h : Hdr)
  /-- MICRO_CLEAR | R309 | MICRO CLEAR zeroes both slices and the dispatch table -/
  | microClear (h : Hdr)
  /-- BANK_STRIPE | R279 | BANK STRIPE sets the ordered stripe list -/
  | bankStripe (h : Hdr) (l : List URange)
  /-- DATA_SHEETS | R279 | DATA SHEETS writes whole quires of sheets from a block -/
  | dataSheets (h : Hdr) (pa : Nat) (n : Nat) (blk : Blk)
  /-- DATA_SHEET | R279 | DATA SHEET writes one sheet from its codes -/
  | dataSheet (h : Hdr) (pa : Nat) (s : Nat) (ts : Nat) (flags : List String) (codes : String)
  /-- DATA_READ | R279 | DATA READ returns quires as a block -/
  | dataRead (h : Hdr) (pa : Nat) (n : Nat)
  /-- SEQ_BANK | R279 | SEQ BANK sets the program bank -/
  | seqBank (h : Hdr) (v : Nat)
  /-- SEQ_LOAD | R279 | SEQ LOAD writes ops from a block -/
  | seqLoad (h : Hdr) (a : Nat) (blk : Blk)
  /-- SEQ_OP | R279 | SEQ OP assembles and writes one op -/
  | seqOp (h : Hdr) (a : Nat) (op : OpText)
  /-- SEQ_ENTRY | R279 | SEQ ENTRY sets the program entry -/
  | seqEntry (h : Hdr) (a : Nat)
  /-- SEQ_LIST | R279 | SEQ LIST disassembles ops -/
  | seqList (h : Hdr) (r : Option (Nat × Nat))
  /-- SEQ_COST | R213 | SEQ COST reports the budget and the worst costs of the working furnish -/
  | seqCost (h : Hdr)
  /-- REF | R225 | REF reports the selection, active source, REF-IN class, oven, WARM and lock state -/
  | ref (h : Hdr)
  /-- REF_SELECT | R226 | REF SELECT checks and switches the reference, stopping running and armed deckles -/
  | refSelect (h : Hdr) (src : RefSrc) (force : Bool)
  /-- CHAIN | R249 | CHAIN reports the role, hop, calibration, heartbeat and groups -/
  | chain (h : Hdr)
  /-- CHAIN_ROLE | R240 | CHAIN ROLE sets OFF, MASTER or SLAVE, and SLAVE switches the reference to CHAIN -/
  | chainRole (h : Hdr) (r : ChainRole) (force : Bool)
  /-- CHAIN_CAL | R244 | CHAIN CAL measures each hop's delay in hop order and calibrates the chain -/
  | chainCal (h : Hdr)
  /-- CHAIN_GROUP | R246 | CHAIN GROUP switches a chain group on or off and sets its start source on the master -/
  | chainGroup (h : Hdr) (g : Nat) (on : Bool) (src : Option String)
  /-- TSET_COUNT | R350 | TSET COUNT sets the number of timing sets -/
  | tsetCount (h : Hdr) (n : Nat)
  /-- TSET_PERIOD | R350 | TSET s PERIOD sets a set's period -/
  | tsetPeriod (h : Hdr) (s : Nat) (v : Val)
  /-- TSET_PIN_FIELDS | R350 | TSET s list sets the format, compare mode and edges of pins -/
  | tsetPinFields (h : Hdr) (s : Nat) (l : List URange) (f : List Fld)
  /-- TSET_COPY | R328 | TSET s COPY copies one set into another -/
  | tsetCopy (h : Hdr) (s : Nat) (r : Nat)
  /-- TSET_SHOW | R350 | TSET s SHOW reports a set in fine steps -/
  | tsetShow (h : Hdr) (s : Nat) (l : Option (List URange))
  /-- TSET_DESKEW | R347 | TSET DESKEW sets the DRV and CMP deskew of pins -/
  | tsetDeskew (h : Hdr) (l : List URange) (f : List Fld)
  /-- TSET_DESKEW_MEASURE | R348 | TSET DESKEW MEASURE finds each pin's trace delay by TDR and writes the deskew into the shadow -/
  | tsetDeskewMeasure (h : Hdr) (l : List URange)
  /-- TSET_DESKEW_SHOW | R350 | TSET DESKEW SHOW reports the deskew of every held channel -/
  | tsetDeskewShow (h : Hdr)
  /-- PIN_NAME | R373 | PIN NAME names a pin -/
  | pinName (h : Hdr) (ch : Nat) (name : String)
  /-- PIN_REST | R373 | PIN REST sets the rest states of pins -/
  | pinRest (h : Hdr) (l : List URange) (r : String)
  /-- PIN_SHOW | R373 | PIN SHOW reports names and rest states -/
  | pinShow (h : Hdr) (l : Option (List URange))
  /-- LEVEL | R357 | LEVEL sets the driver, comparator and load levels of channels -/
  | level (h : Hdr) (l : List URange) (f : List Fld)
  /-- LEVEL_PMU | R357 | LEVEL PMU sets the PMU mode, force, range and clamps of channels -/
  | levelPmu (h : Hdr) (l : List URange) (f : List Fld)
  /-- LEVEL_SHOW | R373 | LEVEL SHOW reports values, codes, CRANGE and PMU state -/
  | levelShow (h : Hdr) (l : Option (List URange))
  /-- BROKE | R390 | BROKE reports the broke log's bank, mode, counts and completeness -/
  | broke (h : Hdr)
  /-- BROKE_SHOW | R390 | BROKE SHOW returns decoded records -/
  | brokeShow (h : Hdr) (i : Option Nat) (n : Option Nat)
  /-- BROKE_READ | R390 | BROKE READ returns raw record slots as a block -/
  | brokeRead (h : Hdr) (i : Option Nat) (n : Option Nat)
  /-- BROKE_COUNT | R390 | BROKE COUNT returns the per-pin fail counters and the failing-sheet count -/
  | brokeCount (h : Hdr) (l : Option (List URange))
  /-- BROKE_CLEAR | R390 | BROKE CLEAR zeroes the broke bank and the counters -/
  | brokeClear (h : Hdr)
  /-- CAPTURE | R390 | CAPTURE reports the capture store -/
  | capture (h : Hdr)
  /-- CAPTURE_SHOW | R390 | CAPTURE SHOW returns decoded capture entries -/
  | captureShow (h : Hdr) (i : Option Nat) (n : Option Nat)
  /-- CAPTURE_READ | R390 | CAPTURE READ returns raw entries as a block -/
  | captureRead (h : Hdr) (i : Option Nat) (n : Option Nat)
  /-- CAPTURE_CLEAR | R390 | CAPTURE CLEAR zeroes the capture bank -/
  | captureClear (h : Hdr)
  /-- BANK_POWER | R406 | BANK POWER moves granted banks to ON, RETAIN or OFF, replying once they are there -/
  | bankPower (h : Hdr) (l : List URange) (p : BankPow)
  /-- BANK_ZERO | R412 | BANK ZERO zeroes granted banks and clears the seal -/
  | bankZero (h : Hdr) (l : List URange)
  /-- BANK_SHOW | R412 | BANK SHOW reports each granted bank's role, power and masks -/
  | bankShow (h : Hdr) (l : Option (List URange))
  /-- BANK_POOL | R412 | BANK POOL reports free, withdrawn, zeroing and granted banks to the owner -/
  | bankPool (h : Hdr)
  /-- DPS_FIELDS | R424 | DPS DPSn sets furnish fields of a DPS channel -/
  | dpsFields (h : Hdr) (n : Nat) (f : List Fld)
  /-- DPS_MATRIX | R424 | DPS MATRIX sets a model matrix, row-major -/
  | dpsMatrix (h : Hdr) (n : Nat) (m : String) (v : List Arg)
  /-- DPS_FFTABLE | R424 | DPS FFTABLE writes feed-forward table entries from a block -/
  | dpsFftable (h : Hdr) (n : Nat) (i : Nat) (blk : Blk)
  /-- DPS_SHOW | R424 | DPS SHOW reports every furnish field of a DPS channel -/
  | dpsShow (h : Hdr) (n : Nat)
  /-- DPS_TARGET | R425 | DPS TARGET sets a run-time target and replies with ARRIVE and SETTLED, or edits the furnish -/
  | dpsTarget (h : Hdr) (n : Nat) (v : Val)
  /-- DPS_FFOFS | R425 | DPS FFOFS sets the run-time feed-forward offset, or edits the furnish -/
  | dpsFfofs (h : Hdr) (n : Nat) (k : Val)
  /-- DPS_READ | R435 | DPS READ reports the telemetry of the last control period -/
  | dpsRead (h : Hdr) (n : Nat)
  /-- LEARN_PARAMS | R424 | LEARN DPSn sets the learning gain and the Q-filter -/
  | learnParams (h : Hdr) (n : Nat) (f : List Fld)
  /-- LEARN_READ | R424 | LEARN READ returns the learning memory as a block -/
  | learnRead (h : Hdr) (n : Nat)
  /-- LEARN_LOAD | R424 | LEARN LOAD writes the learning memory -/
  | learnLoad (h : Hdr) (n : Nat) (blk : Blk)
  /-- LEARN_CLEAR | R424 | LEARN CLEAR zeroes the learning memory -/
  | learnClear (h : Hdr) (n : Nat)
  /-- AUX_FIELDS | R460 | AUX AUXn sets span, relay, start, end and count -/
  | auxFields (h : Hdr) (n : Nat) (f : List Fld)
  /-- AUX_ENTRY | R463 | AUX ENTRY sets one list entry and reports its stored values -/
  | auxEntry (h : Hdr) (n : Nat) (i : Nat) (f : List Fld)
  /-- AUX_LIST_WRITE | R463 | AUX LIST writes list entries from a block -/
  | auxListWrite (h : Hdr) (n : Nat) (i : Nat) (blk : Blk)
  /-- AUX_LIST_READ | R463 | AUX LIST READ returns entries as a block -/
  | auxListRead (h : Hdr) (n : Nat) (i : Option Nat) (k : Option Nat)
  /-- AUX_SHOW | R463 | AUX SHOW reports every furnish field -/
  | auxShow (h : Hdr) (n : Nat)
  /-- AUX_PLAY | R454 | AUX PLAY requests a list start at the next sample tick at least 2,500 ticks later -/
  | auxPlay (h : Hdr) (n : Nat)
  /-- AUX_HALT | R457 | AUX HALT ends play at a sample tick, and the output follows END -/
  | auxHalt (h : Hdr) (n : Nat)
  /-- AUX_READ | R463 | AUX READ reports the play state, entry and MISSED -/
  | auxRead (h : Hdr) (n : Nat)
  /-- ADC_FIELDS | R473 | ADC ADCn sets the trigger, mode, count, repeat and period -/
  | adcFields (h : Hdr) (n : Nat) (f : List Fld)
  /-- ADC_ENTRY | R486 | ADC ENTRY sets one sequence entry -/
  | adcEntry (h : Hdr) (n : Nat) (i : Nat) (f : List Fld)
  /-- ADC_SOURCES | R486 | ADC SOURCES lists the selectable sources -/
  | adcSources (h : Hdr)
  /-- ADC_SHOW | R486 | ADC SHOW reports every furnish field -/
  | adcShow (h : Hdr) (n : Nat)
  /-- ADC_START | R475 | ADC START requests a start at the first tick at least 2,500 ticks later -/
  | adcStart (h : Hdr) (n : Nat)
  /-- ADC_RESULTS | R486 | ADC RESULTS returns and removes decoded records -/
  | adcResults (h : Hdr) (n : Nat) (k : Option Nat)
  /-- ADC_READ | R486 | ADC READ returns and removes records as a block -/
  | adcRead (h : Hdr) (n : Nat) (k : Option Nat)
  /-- ADC_STATUS | R486 | ADC STATUS reports state, stored, lost and missed counts -/
  | adcStatus (h : Hdr) (n : Nat)
  /-- TMU_FIELDS | R493 | TMU TMUn sets furnish fields of a TMU -/
  | tmuFields (h : Hdr) (n : Nat) (f : List Fld)
  /-- TMU_SHOW | R514 | TMU SHOW reports every furnish field -/
  | tmuShow (h : Hdr) (n : Nat)
  /-- TMU_START | R495 | TMU START is a start event for the TMU -/
  | tmuStart (h : Hdr) (n : Nat)
  /-- TMU_HALT | R514 | TMU HALT ends a series or gate sequence -/
  | tmuHalt (h : Hdr) (n : Nat)
  /-- TMU_CLEAR | R514 | TMU CLEAR empties statistics and records -/
  | tmuClear (h : Hdr) (n : Nat)
  /-- TMU_STAT | R505 | TMU STAT reports the exact statistics -/
  | tmuStat (h : Hdr) (n : Nat)
  /-- TMU_RESULTS | R514 | TMU RESULTS returns and removes decoded records -/
  | tmuResults (h : Hdr) (n : Nat) (k : Option Nat)
  /-- TMU_READ | R514 | TMU READ returns and removes records as a block -/
  | tmuRead (h : Hdr) (n : Nat) (k : Option Nat)
  /-- TMU_STATUS | R514 | TMU STATUS reports state, stored, lost and missed counts -/
  | tmuStatus (h : Hdr) (n : Nat)
  /-- EVENT_MAP_EVT | R529 | EVENT MAP EVTn Dd maps an EVT line to a deckle's event classes -/
  | eventMapEvt (h : Hdr) (n : Nat) (d : Nat) (cls : List EvClass) (hold : Bool)
  /-- EVENT_MAP_MODULE | R529 | EVENT MAP EVTn MODULE maps an EVT line to module FAULT and NOTE events -/
  | eventMapModule (h : Hdr) (n : Nat) (cls : List EvClass) (hold : Bool)
  /-- EVENT_MAP_TRIG_OUT | R531 | EVENT MAP TRIG-OUTn maps a TRIG-OUT line to a deckle mark -/
  | eventMapTrigOut (h : Hdr) (n : Nat) (d : Nat) (m : Nat)
  /-- EVENT_MAP_FAIL_OUT | R389 | EVENT MAP FAIL-OUT maps FAIL-OUT to a deckle's fails -/
  | eventMapFailOut (h : Hdr) (d : Nat)
  /-- EVENT_MAP_MK | R458 | EVENT MAP MKn maps an MK line to a deckle's AUX markers -/
  | eventMapMk (h : Hdr) (n : Nat) (d : Nat)
  /-- EVENT_UNMAP | R529 | EVENT UNMAP releases a line -/
  | eventUnmap (h : Hdr) (l : PhysLine)
  /-- EVENT_CLEAR | R530 | EVENT CLEAR releases a HOLD EVT line -/
  | eventClear (h : Hdr) (n : Nat)
  /-- EVENT_SHOW | R529 | EVENT SHOW reports mappings and grants -/
  | eventShow (h : Hdr)
  /-- EVENT_GRANT_PORT | R39 | EVENT GRANT PORT gives the tenant's consent to mapping its events -/
  | eventGrantPort (h : Hdr)
  /-- EVENT_REVOKE_PORT | R532 | EVENT REVOKE PORT withdraws consent and removes the deckle's mappings -/
  | eventRevokePort (h : Hdr)
  /-- TRACE | R552 | TRACE reports a deckle's trace selection, ring positions and port state -/
  | trace (h : Hdr) (d : Option Nat)
  /-- TRACE_SHOW | R552 | TRACE SHOW returns decoded trace packets -/
  | traceShow (h : Hdr) (d : Option Nat) (i : Option Nat) (n : Option Nat)
  /-- TRACE_READ | R552 | TRACE READ returns packets as a block -/
  | traceRead (h : Hdr) (d : Option Nat) (i : Option Nat) (n : Option Nat)
  /-- TRACE_SELECT | R544 | TRACE SELECT sets the packet kinds and micro range of the deckle's stream -/
  | traceSelect (h : Hdr) (f : TraceSel)
  /-- TRACE_GRANT_PORT | R39 | TRACE GRANT PORT gives consent to mapping the deckle's trace to the port -/
  | traceGrantPort (h : Hdr)
  /-- TRACE_REVOKE_PORT | R39 | TRACE REVOKE PORT withdraws trace-port consent -/
  | traceRevokePort (h : Hdr)
  /-- TRACE_GRANT_OBSERVER | R40 | TRACE GRANT OBn gives the tenant's grant to an observer -/
  | traceGrantObserver (h : Hdr) (n : Nat)
  /-- TRACE_REVOKE_OBSERVER | R41 | TRACE REVOKE OBn withdraws the tenant's grant to an observer -/
  | traceRevokeObserver (h : Hdr) (n : Nat)
  /-- TRACE_ENABLE | R40 | TRACE ENABLE gives the owner's grant of a deckle to an observer -/
  | traceEnable (h : Hdr) (d : Nat) (n : Nat)
  /-- TRACE_DISABLE | R40 | TRACE DISABLE withdraws the owner's grant -/
  | traceDisable (h : Hdr) (d : Nat) (n : Nat)
  /-- TRACE_PORT | R552 | TRACE PORT maps or unmaps a deckle's trace-port slots -/
  | tracePort (h : Hdr) (d : Nat) (on : Bool)
  /-- COUNT | R552 | COUNT returns a snapshot of deckle counters -/
  | count (h : Hdr) (d : Option Nat) (l : Option (List (Nat × Nat)))
  /-- COUNT_MODULE | R551 | COUNT MODULE returns the module counters -/
  | countModule (h : Hdr) (l : Option (List (Nat × Nat)))
  /-- COUNT_CLEAR | R550 | COUNT CLEAR zeroes the listed deckle counters, except counters 2 to 6 -/
  | countClear (h : Hdr) (l : Option (List (Nat × Nat)))
  /-- POWER_INPUT_RISE | R62 | The input rises above 19.5 V and the module starts in POWER-ON, with its outputs in the reset state -/
  | powerInputRise (dt : Nat)
  /-- RAILS_IN_TOLERANCE | R80 | The rails come into tolerance and the module moves from POWER-ON to BOOT -/
  | railsInTolerance (dt : Nat)
  /-- FIRMWARE_SLOT_VERIFY | R83 | The boot ROM finishes checking the firmware slots and either starts one and enters VERIFY or stays in BOOT with F-BOOT -/
  | firmwareSlotVerify (dt : Nat)
  /-- F_BOOT_REPEAT | R106 | Once per second while the module is stuck in BOOT, the console sends !FAULT F-BOOT on CON -/
  | fBootRepeat (dt : Nat)
  /-- VERIFY_COMPLETE | R84 | The firmware finishes checking the microcode and the patches, then moves to LOAD or enters SAFE with F-VERIFY -/
  | verifyComplete (dt : Nat)
  /-- LOAD_COMPLETE | R80 | The control stores have been written and read back, and the module moves to SELF-TEST or enters SAFE with F-MCHK -/
  | loadComplete (dt : Nat) (ok : Bool)
  /-- SELF_TEST_COMPLETE | R80 | Self-test ends and the module enters READY, WARMING, DEGRADED-PENDING or SAFE from the verdicts and the SAFE latch -/
  | selfTestComplete (dt : Nat) (obs : List ItemObs)
  /-- SLOT_RESTORE_COMPLETE | R180 | A start slot has been read and validated, and the deckle leaves HELD RESTORING for OPEN or another HELD reason -/
  | slotRestoreComplete (dt : Nat) (d : Fin 8)
  /-- OWNER_CLEAR_WINDOW_END | R21 | The 30 s after self-test during which OWNER CLEAR is accepted expire -/
  | ownerClearWindowEnd (dt : Nat)
  /-- POWER_LOSS | R62 | The input stays below 18.5 V for 1 µs, the safe-state actions run, sessions end and the module restarts when power returns -/
  | powerLoss (dt : Nat)
  /-- HOLD_UP_END | R68 | The hold-up time after a power loss ends, and the DPS discharge changes from 100 Ω to the permanent 10 kΩ -/
  | holdUpEnd (dt : Nat)
  /-- RESET_N_LOW | R67 | RESET-N is held low for at least 1 µs, so sessions end, deckles stop at once and the outputs take their reset state -/
  | resetNLow (dt : Nat)
  /-- RESET_N_HIGH | R67 | RESET-N returns high after a recognised reset and the module restarts from POWER-ON -/
  | resetNHigh (dt : Nat)
  /-- F_PWR | R74 | The input stays above 29.0 V for 100 µs, so the module enters SAFE and sets the SAFE latch -/
  | fPwr (dt : Nat)
  /-- F_HOT | R520 | A controller-die or board temperature stays over its threshold for 1 ms, and the module enters SAFE -/
  | fHot (dt : Nat)
  /-- F_SUPPLY | R520 | A core or internal rail stays more than 5 % out for 10 µs, and the module enters SAFE -/
  | fSupply (dt : Nat)
  /-- CORE_WARM | R521 | The controller die reaches 100 °C or the board reaches 80 °C, and the owner receives !NOTE CORE-WARM once per excursion -/
  | coreWarm (dt : Nat)
  /-- SUPPLY_RAIL_CORE | R521 | The core rail lies 2 % to 5 % low for 10 µs, and the owner receives !NOTE SUPPLY RAIL=CORE -/
  | supplyRailCore (dt : Nat)
  /-- SUPPLY_RAIL_INPUT | R570 | The input lies outside 19.8 V to 28.2 V for 10 µs, and the owner receives !NOTE SUPPLY RAIL=INPUT -/
  | supplyRailInput (dt : Nat) (mv : Nat)
  /-- INPUT_CURRENT_LIMIT | R571 | The input limiter acts at 8.5 A, the internal rails fall and F-SUPPLY follows -/
  | inputCurrentLimit (dt : Nat)
  /-- WARM_SET | R223 | WARM sets, the module moves from WARMING to READY, and deckles waiting for WARM run ARM -/
  | warmSet (dt : Nat)
  /-- WARM_LOST | R104 | WARM clears in READY, so !NOTE WARM-LOST is sent and the module returns to WARMING -/
  | warmLost (dt : Nat)
  /-- KEEPER_LOAD | R73 | The KEEPER level read back differs from the level driven on three consecutive edges, and !NOTE KEEPER-LOAD is sent -/
  | keeperLoad (dt : Nat)
  /-- USB_DTR_SET | R112 | The host sets DTR on a USB function and a session begins on that line -/
  | usbDtrSet (dt : Nat) (n : Fin 9)
  /-- USB_DTR_CLEAR | R113 | The host clears DTR on a USB function and the session on that line ends -/
  | usbDtrClear (dt : Nat) (n : Fin 9)
  /-- USB_BUS_LOSS | R113 | A USB bus reset, detach or suspend longer than 3 s ends every USB session, and deckles keep running -/
  | usbBusLoss (dt : Nat)
  /-- CON_BREAK | R113 | RXD is held low for at least 100 ms, so the CON session ends and CON returns to 115,200 baud -/
  | conBreak (dt : Nat)
  /-- IDLE_TIMEOUT | R113 | No line arrives for the idle time and the session ends -/
  | idleTimeout (dt : Nat) (line : Fin 10)
  /-- SEND_BLOCKED_TIMEOUT | R113 | The module cannot send on a line for 60 s and the session ends -/
  | sendBlockedTimeout (dt : Nat) (line : Fin 10)
  /-- XOFF_RECEIVED | R132 | XOFF arrives with XON/XOFF on, and the module stops sending within 2 characters -/
  | xoffReceived (dt : Nat) (line : Fin 10)
  /-- XON_RECEIVED | R132 | XON arrives with XON/XOFF on, and the module resumes sending -/
  | xonReceived (dt : Nat) (line : Fin 10)
  /-- CON_OVERRUN | R152 | The CON input buffer overflows, bytes are discarded up to the terminator and the line is answered E431 OVERRUN -/
  | conOverrun (dt : Nat)
  /-- TAG_ENTRY_EXPIRY | R135 | A tag memory entry reaches 60 s after its final line and is dropped -/
  | tagEntryExpiry (dt : Nat) (mem : TagMem)
  /-- BAUD_CHANGE_APPLY | R133 | 20 ms after the reply to MODE BAUD, CON changes to the new rate -/
  | baudChangeApply (dt : Nat)
  /-- LOGIN_REPLY | R23 | 50 ms after a LOGIN RESP line ends, the reply is sent and the session takes its role or stays Anonymous -/
  | loginReply (dt : Nat) (line : Fin 10)
  /-- NONCE_EXPIRY | R22 | A login nonce expires 30 s after it was issued -/
  | nonceExpiry (dt : Nat) (line : Fin 10)
  /-- LOCKOUT_EXPIRY | R26 | A login lockout on a target expires -/
  | lockoutExpiry (dt : Nat) (target : Target)
  /-- AT_ACTION_DUE | R148 | A pending AT action falls due, !DONE Dd AT is sent and the command executes -/
  | atActionDue (dt : Nat) (d : Fin 8) (id : Nat)
  /-- COUCH_COMPLETE | R402 | A bank couch finishes zeroing, the bank takes its new owner, and the command's reply follows the last couch -/
  | couchComplete (dt : Nat) (bank : Fin 64)
  /-- ZEROING_COMPLETE | R32 | Every item of a closing or reclaimed deckle is zeroed, the deckle becomes CLOSED and the reply is sent -/
  | zeroingComplete (dt : Nat) (d : Fin 8)
  /-- SLOT_ERASE_COMPLETE | R178 | The flash of an erased slot has been written to zero, and the slot may be saved into again -/
  | slotEraseComplete (dt : Nat) (n : Fin 16)
  /-- QUIRE_BOUNDARY_STOP | R158 | At the quire boundary after a stop request, the deckle stops, purges its felts and takes its rest states -/
  | quireBoundaryStop (dt : Nat) (d : Fin 8)
  /-- STOP_OFF_COMPLETE | R159 | Every output of the deckle is off and the STOP OFF reply is sent -/
  | stopOffComplete (dt : Nat) (d : Fin 8)
  /-- PRESS_BOUNDARY | R184 | The boundary sheet is placed, or validation ends in ARMED or STOPPED, and the shadow becomes active -/
  | pressBoundary (dt : Nat) (d : Fin 8)
  /-- PRESS_NOBOUNDARY | R187 | No boundary arrives within 10 ms, or the deckle stops first, and PRESS is refused E424 -/
  | pressNoboundary (dt : Nat) (d : Fin 8)
  /-- PACE_REACHED | R196 | The core voltage reaches the new setting, OK PACE is sent and the pace notes follow -/
  | paceReached (dt : Nat)
  /-- MONITOR_WINDOW_END | R200 | Each 1 ms window of the pace monitor ends and the ratio M is computed -/
  | monitorWindowEnd (dt : Nat) (ratio : Rat)
  /-- HEADBOX_QUIRE_WRITE | R206 | The headbox writes a whole dispatched quire into all of the deckle's felts when the lead allows -/
  | headboxQuireWrite (dt : Nat) (d : Fin 8)
  /-- QUIRE_DECISION | R207 | At a quire's decision point the calender places all 32 sheets, or none when the quire is not whole -/
  | quireDecision (dt : Nat) (d : Fin 8) (obs : List PinObs)
  /-- FAIL_OUT_FALL | R388 | FAIL-OUT falls 16 ticks after the latest rise -/
  | failOutFall (dt : Nat)
  /-- FAIL_OUT_REMAP_APPLY | R389 | A FAIL-OUT mapping change takes effect at the next quire boundary of the deckle that was mapped -/
  | failOutRemapApply (dt : Nat)
  /-- TRIG_OUT_FALL | R531 | A mapped TRIG-OUT falls 16 ticks after its latest rise -/
  | trigOutFall (dt : Nat) (n : Fin 4)
  /-- BROKE_DRAIN | R381 | The broke or capture queue drains a record into its bank on an idle port S cycle -/
  | brokeDrain (dt : Nat) (d : Fin 8) (cap : Bool)
  /-- OP_NOP | R262 | The NOP op costs one step and does nothing -/
  | opNop (dt : Nat) (d : Fin 8)
  /-- OP_HALT | R277 | The HALT op dispatches nothing more, and the deckle becomes STOPPED after the last quire -/
  | opHalt (dt : Nat) (d : Fin 8)
  /-- OP_RUN | R263 | The RUN op dispatches 1 to 65,536 quires and, without CONT, starts a segment -/
  | opRun (dt : Nat) (d : Fin 8)
  /-- OP_MATCH | R269 | The MATCH op repeats its match quire with the lead at 2 until a repetition passes, then exits after two extras -/
  | opMatch (dt : Nat) (d : Fin 8)
  /-- OP_WAITT | R273 | The WAITT op dispatches its fill quire repeatedly to cover the duration -/
  | opWaitt (dt : Nat) (d : Fin 8)
  /-- OP_LOOP | R264 | The LOOP op loads the loop counter of its depth -/
  | opLoop (dt : Nat) (d : Fin 8)
  /-- OP_ENDL | R264 | The ENDL op decrements its loop counter and branches back, or falls through -/
  | opEndl (dt : Nat) (d : Fin 8)
  /-- OP_JUMP | R265 | The JUMP op continues at its target -/
  | opJump (dt : Nat) (d : Fin 8)
  /-- OP_CALL | R265 | The CALL op pushes the next op index and continues at its target -/
  | opCall (dt : Nat) (d : Fin 8)
  /-- OP_RET | R265 | The RET op pops the op stack and continues there -/
  | opRet (dt : Nat) (d : Fin 8)
  /-- OP_BRFAIL | R272 | The BRFAIL op waits for the results of quire q-3, tests QFAIL or SFAIL and branches -/
  | opBrfail (dt : Nat) (d : Fin 8)
  /-- OP_MARK | R274 | The MARK op arms mark Mm at a sheet of the next dispatched quire -/
  | opMark (dt : Nat) (d : Fin 8)
  /-- OP_LEARN | R276 | The LEARN op makes the following LOOP a learn loop for the named DPS channels -/
  | opLearn (dt : Nat) (d : Fin 8)
  /-- OP_TSEL | R275 | The TSEL op sets the timing-set offset from the next dispatched quire -/
  | opTsel (dt : Nat) (d : Fin 8)
  /-- OP_CUSTOM | R300 | A custom op dispatches through its table entry into the customer slice, with its operands loaded -/
  | opCustom (dt : Nat) (d : Fin 8)
  /-- RESULT_WAIT_RELEASE | R290 | A step waiting on C11, C10 or a headbox read resumes once its condition holds -/
  | resultWaitRelease (dt : Nat) (d : Fin 8)
  /-- UMODE_SEQ | R288 | A microword in SEQ mode executes its nanoword and continues at the next address -/
  | umodeSeq (dt : Nat) (d : Option (Fin 8)) (up : Option Upset)
  /-- UMODE_JMP | R288 | A microword in JMP mode continues at its target -/
  | umodeJmp (dt : Nat) (d : Option (Fin 8)) (up : Option Upset)
  /-- UMODE_CALL | R292 | A microword in CALL mode pushes its return address or machine-checks on overflow -/
  | umodeCall (dt : Nat) (d : Option (Fin 8)) (up : Option Upset)
  /-- UMODE_RET | R293 | A microword in RET mode pops the micro-stack, ending a custom op on the dispatch entry -/
  | umodeRet (dt : Nat) (d : Option (Fin 8)) (up : Option Upset)
  /-- UMODE_BR | R288 | A microword in BR mode branches within its block on a condition flag -/
  | umodeBr (dt : Nat) (d : Option (Fin 8)) (up : Option Upset)
  /-- UMODE_MWAY | R289 | A microword in MWAY mode ORs flag bits into its target within the block -/
  | umodeMway (dt : Nat) (d : Option (Fin 8)) (up : Option Upset)
  /-- UMODE_LOOP | R288 | A microword in LOOP mode decrements LCk and branches while LCk is not zero -/
  | umodeLoop (dt : Nat) (d : Option (Fin 8)) (up : Option Upset)
  /-- UMODE_WAIT | R291 | A microword in WAIT mode holds until its flag condition holds -/
  | umodeWait (dt : Nat) (d : Option (Fin 8)) (up : Option Upset)
  /-- VENDOR_RELOAD_COMPLETE | R304 | The vendor region has been rewritten and read back, the service thread resumes and the owner is told -/
  | vendorReloadComplete (dt : Nat) (copyOk : Bool) (readOk : Bool)
  /-- ALU_NOP | R294 | The nanoword ALU operation NOP produces no result -/
  | aluNop (dt : Nat) (d : Fin 8) (f : AluF)
  /-- ALU_PASS | R294 | The nanoword ALU operation PASS writes A -/
  | aluPass (dt : Nat) (d : Fin 8) (f : AluF)
  /-- ALU_ADD | R294 | The nanoword ALU operation ADD writes A+B -/
  | aluAdd (dt : Nat) (d : Fin 8) (f : AluF)
  /-- ALU_ADC | R294 | The nanoword ALU operation ADC writes A+B+C -/
  | aluAdc (dt : Nat) (d : Fin 8) (f : AluF)
  /-- ALU_SUB | R294 | The nanoword ALU operation SUB writes A-B -/
  | aluSub (dt : Nat) (d : Fin 8) (f : AluF)
  /-- ALU_SBC | R294 | The nanoword ALU operation SBC writes A-B-not C -/
  | aluSbc (dt : Nat) (d : Fin 8) (f : AluF)
  /-- ALU_AND | R294 | The nanoword ALU operation AND writes A AND B -/
  | aluAnd (dt : Nat) (d : Fin 8) (f : AluF)
  /-- ALU_OR | R294 | The nanoword ALU operation OR writes A OR B -/
  | aluOr (dt : Nat) (d : Fin 8) (f : AluF)
  /-- ALU_XOR | R294 | The nanoword ALU operation XOR writes A XOR B -/
  | aluXor (dt : Nat) (d : Fin 8) (f : AluF)
  /-- ALU_ANDN | R294 | The nanoword ALU operation ANDN writes A AND NOT B -/
  | aluAndn (dt : Nat) (d : Fin 8) (f : AluF)
  /-- ALU_SHL | R294 | The nanoword ALU operation SHL shifts A left by B[4:0] -/
  | aluShl (dt : Nat) (d : Fin 8) (f : AluF)
  /-- ALU_SHR | R294 | The nanoword ALU operation SHR shifts A right, logically, by B[4:0] -/
  | aluShr (dt : Nat) (d : Fin 8) (f : AluF)
  /-- ALU_ASR | R294 | The nanoword ALU operation ASR shifts A right, arithmetically, by B[4:0] -/
  | aluAsr (dt : Nat) (d : Fin 8) (f : AluF)
  /-- ALU_ROR | R294 | The nanoword ALU operation ROR rotates A right by B[4:0] -/
  | aluRor (dt : Nat) (d : Fin 8) (f : AluF)
  /-- ALU_CMP | R294 | The nanoword ALU operation CMP sets the flags from A-B -/
  | aluCmp (dt : Nat) (d : Fin 8) (f : AluF)
  /-- ALU_TST | R294 | The nanoword ALU operation TST sets the flags from A AND B -/
  | aluTst (dt : Nat) (d : Fin 8) (f : AluF)
  /-- ALU_MIN | R294 | The nanoword ALU operation MIN writes the unsigned minimum of A and B -/
  | aluMin (dt : Nat) (d : Fin 8) (f : AluF)
  /-- ALU_MAX | R294 | The nanoword ALU operation MAX writes the unsigned maximum of A and B -/
  | aluMax (dt : Nat) (d : Fin 8) (f : AluF)
  /-- ALU_CLZ | R294 | The nanoword ALU operation CLZ writes the leading-zero count of A -/
  | aluClz (dt : Nat) (d : Fin 8) (f : AluF)
  /-- ALU_POPC | R294 | The nanoword ALU operation POPC writes the population count of A -/
  | aluPopc (dt : Nat) (d : Fin 8) (f : AluF)
  /-- PORT_MRD | R295 | The port action MRD reads a word of the bank, thread pad or measurement pad into MDR -/
  | portMrd (dt : Nat) (d : Fin 8) (space : Fin 4) (bank : Fin 64)
  /-- PORT_MWR | R295 | The port action MWR writes MDR to the word at MAR -/
  | portMwr (dt : Nat) (d : Fin 8) (space : Fin 4) (bank : Fin 64)
  /-- PORT_DISP | R295 | The port action DISP hands NREG+1 quires from PAREG to the headbox -/
  | portDisp (dt : Nat) (d : Fin 8) (cont : Bool) (pareg : Fin 16) (nreg : Fin 16)
  /-- PORT_QPOP | R295 | The port action QPOP pops a queue word into QIN, or sets QE when the queue is empty -/
  | portQpop (dt : Nat) (d : Fin 8) (qid : Fin 128)
  /-- PORT_QPUSH | R297 | The port action QPUSH writes a user record into the broke or capture queue -/
  | portQpush (dt : Nat) (d : Fin 8) (qid : Fin 128)
  /-- PORT_EVENT | R296 | The port action EVENT queues a UEVENT line of class DONE or NOTE -/
  | portEvent (dt : Nat) (d : Fin 8) (cls : Fin 4) (code : Fin 256)
  /-- SEQCTL_TSEL | R295 | SEQCTL sub-operation 0 sets the TSEL offset -/
  | seqctlTsel (dt : Nat) (d : Fin 8) (a : BitVec 32)
  /-- SEQCTL_MARK | R295 | SEQCTL sub-operation 1 arms a mark at a sheet -/
  | seqctlMark (dt : Nat) (d : Fin 8) (m : Fin 8) (a : BitVec 32)
  /-- SEQCTL_HALT | R295 | SEQCTL sub-operation 2 halts the program as HALT does -/
  | seqctlHalt (dt : Nat) (d : Fin 8)
  /-- PORT_TBSET | R295 | The port action TBSET loads TBC with the timebase plus A and clears TBHIT -/
  | portTbset (dt : Nat) (d : Fin 8) (a : BitVec 32)
  /-- PORT_SHWR | R314 | The port action SHWR writes pin codes and, with WHDR, the header into a sheet, waiting for the headbox where needed -/
  | portShwr (dt : Nat) (d : Fin 8) (pareg : Fin 16) (sreg : Fin 16) (whdr : Bool) (k16 : BitVec 16) (pmask : BitVec 48)
  /-- PORT_STEW | R295 | The port action STEW posts to the steward mailbox, for vendor code only -/
  | portStew (dt : Nat) (d : Fin 8) (parg : BitVec 28)
  /-- DPS_TARGET_REG | R425 | A microcode write to the DPS TARGET register sets the run-time target at the next control period -/
  | dpsTargetReg (dt : Nat) (d : Fin 8) (n : Fin 4) (v : BitVec 32)
  /-- DPS_FFOFS_REG | R425 | A microcode write to the DPS FFOFS register sets the feed-forward offset from the next dispatched quire -/
  | dpsFfofsReg (dt : Nat) (d : Fin 8) (n : Fin 4) (v : BitVec 32)
  /-- AUX_PLAY_REG | R464 | A microcode write to the AUX PLAY register starts the list -/
  | auxPlayReg (dt : Nat) (d : Fin 8) (n : Fin 2) (v : BitVec 32)
  /-- AUX_HALT_REG | R464 | A microcode write to the AUX HALT register halts the list -/
  | auxHaltReg (dt : Nat) (d : Fin 8) (n : Fin 2) (v : BitVec 32)
  /-- ADC_START_REG | R487 | A microcode write to the ADC START register starts the converter when TRIG=CMD, and otherwise counts MISSED -/
  | adcStartReg (dt : Nat) (d : Fin 8) (n : Fin 8) (v : BitVec 32)
  /-- TMU_START_REG | R515 | A microcode write to the TMU START register is a start event when TRIG=CMD -/
  | tmuStartReg (dt : Nat) (d : Fin 8) (n : Fin 4) (v : BitVec 32)
  /-- TMU_HALT_REG | R515 | A microcode write to the TMU HALT register acts as TMU HALT -/
  | tmuHaltReg (dt : Nat) (d : Fin 8) (n : Fin 4) (v : BitVec 32)
  /-- INSTR_OTHER_REG | R298 | An INSTR write to any other instrument register fails FENCE-UNIT and machine-checks -/
  | instrOtherReg (dt : Nat) (d : Fin 8) (unit : Fin 32) (reg : Fin 256)
  /-- LOOP_LOCK | R227 | The calender loop locks to its new source, the timebase counts and the switch reply is sent -/
  | loopLock (dt : Nat)
  /-- REFIN_USABLE | R221 | REF-IN has been present for 10 ms in a window and becomes usable, with !NOTE REF IN or a lock under EXT -/
  | refinUsable (dt : Nat) (cls : RefObs)
  /-- REF_LOST | R229 | The active EXT or CHAIN reference is lost, so the loop enters holdover and deckles stop with F-REF -/
  | refLost (dt : Nat)
  /-- TIMEBASE_HOLD | R232 | After 100 µs of holdover, the HQ-48/X holds the timebase and takes every deckle's outputs off -/
  | timebaseHold (dt : Nat)
  /-- TRIG_IN_EDGE | R236 | A TRIG-IN edge is stamped to the fine step and starts deckles or instruments armed on it -/
  | trigInEdge (dt : Nat) (rising : Bool) (fine : Nat)
  /-- CHAIN_FRAME_SEND | R239 | Every 625 ticks the master sends a chain frame on J4 -/
  | chainFrameSend (dt : Nat)
  /-- HEARTBEAT_FRAME | R241 | A slave receives a valid heartbeat frame, re-drives it and loads or compares its timebase -/
  | heartbeatFrame (dt : Nat) (f : Frame)
  /-- GROUP_START_FRAME | R248 | A group-start frame starts each armed member deckle at ARG -/
  | groupStartFrame (dt : Nat) (f : Frame)
  /-- CALIBRATION_FRAME | R244 | A calibration frame passes the cumulative delay along the chain -/
  | calibrationFrame (dt : Nat) (f : Frame)
  /-- CHAIN_LOST | R242 | A slave receives no valid frame for 2 µs, and its chain-group deckles fault with F-CHAIN -/
  | chainLost (dt : Nat) (lane : Nat)
  /-- CHAIN_TB_LOAD | R243 | A deferred timebase load happens once no deckle of the slave is ARMED or RUNNING -/
  | chainTbLoad (dt : Nat)
  /-- F_DLL | R345 | A delay line is more than 8 ps in error, so its deckle stops with F-DLL, or the owner is told -/
  | fDll (dt : Nat) (ch : Fin 48)
  /-- DLL_LOCKED | R345 | A delay line relocks, and DLL-LOCKED is sent -/
  | dllLocked (dt : Nat) (ch : Fin 48)
  /-- LEVEL_TICK | R361 | At each 1 µs level tick, queued level changes at least 200 ns old take effect -/
  | levelTick (dt : Nat)
  /-- RANGE_DWELL_END | R367 | A PMU, PMU-mode or comparator range dwell ends and the new range or mode acts -/
  | rangeDwellEnd (dt : Nat) (ch : Fin 48)
  /-- PMU_RECONNECT_END | R365 | 5 µs after a PMU disconnects, the pin's codes act again from the next sheet -/
  | pmuReconnectEnd (dt : Nat) (ch : Fin 48)
  /-- F_PIN_DRVI | R369 | A driver carries more than 80 mA for 10 µs, so the channel turns off and the deckle faults with F-PIN -/
  | fPinDrvi (dt : Nat) (ch : Fin 48)
  /-- PMU_CLAMP_LIMIT | R370 | A PMU holds its clamp for 100 µs, and !LIMIT PMU is sent -/
  | pmuClampLimit (dt : Nat) (ch : Fin 48) (released : Bool)
  /-- FE_WARM | R371 | A front-end die rises through 110 °C, and the owner receives FE-WARM -/
  | feWarm (dt : Nat) (fe : Fin 6)
  /-- F_PIN_HOT | R371 | A front-end die reaches 125 °C, so its channels turn off and holding deckles fault with F-PIN HOT -/
  | fPinHot (dt : Nat) (fe : Fin 6)
  /-- CONTROL_PERIOD | R418 | Each 1 µs control period samples y, computes u and the observer, and applies u 600 ns later -/
  | controlPeriod (dt : Nat) (n : Fin 4) (m : DpsMeas)
  /-- F_DPS_OV | R442 | The force voltage stays above VMAX+0.1 V for 2 µs, so the force switch opens and the deckle faults -/
  | fDpsOv (dt : Nat) (n : Fin 4)
  /-- F_DPS_HOT | R442 | A DPS power stage exceeds 125 °C, so the force switch opens and the deckle faults -/
  | fDpsHot (dt : Nat) (n : Fin 4)
  /-- DPS_CLAMP_LIMIT | R443 | A DPS current clamp acts for 100 µs, and !LIMIT CLAMP is sent -/
  | dpsClampLimit (dt : Nat) (n : Fin 4) (released : Bool)
  /-- DPS_RANGE_DWELL_END | R434 | The 20 µs DPS range dwell ends and the new range's measurement and clamps act -/
  | dpsRangeDwellEnd (dt : Nat) (n : Fin 4)
  /-- AUX_START_TICK | R454 | At the start tick the list begins entry 0, or the start counts as MISSED -/
  | auxStartTick (dt : Nat) (n : Fin 2)
  /-- AUX_ENTRY_BOUNDARY | R452 | The next entry begins, with the phase reloaded or continued and MK pulsed -/
  | auxEntryBoundary (dt : Nat) (n : Fin 2)
  /-- AUX_LIST_END | R456 | The last sample of the list passes, and END decides HOLD, ZERO or REPEAT -/
  | auxListEnd (dt : Nat) (n : Fin 2)
  /-- MK_FALL | R458 | MKn falls 16 ticks after rising -/
  | mkFall (dt : Nat) (n : Fin 2)
  /-- AUX_SPAN_DWELL_END | R459 | The span-change dwell ends, the relay has settled and output resumes -/
  | auxSpanDwellEnd (dt : Nat) (n : Fin 2)
  /-- ADC_TIMER_TICK | R475 | Every PERIOD ticks while RUNNING, a TIMER start occurs -/
  | adcTimerTick (dt : Nat) (n : Fin 8)
  /-- ADC_SCAN_START | R476 | At the start tick a scan begins with entry 0, or the start counts as MISSED -/
  | adcScanStart (dt : Nat) (n : Fin 8)
  /-- ADC_CONVERSION_DONE | R479 | An entry's hold and 0.25 µs conversion end, a record is stored and the next entry starts -/
  | adcConversionDone (dt : Nat) (n : Fin 8) (m : AdcMeas)
  /-- TMU_START_EDGE | R497 | Channel A stamps the first qualifying FROM edge after the ready instant -/
  | tmuStartEdge (dt : Nat) (n : Fin 4) (t : Nat) (di : Option Int)
  /-- TMU_STOP_EDGE | R497 | Channel B stamps the EVENT-th qualifying TO edge, completing an interval -/
  | tmuStopEdge (dt : Nat) (n : Fin 4) (t : Nat) (di : Option Int)
  /-- TMU_TIMEOUT | R498 | No start or stop stamp arrives within TIMEOUT, and the measurement ends as TIMEOUT -/
  | tmuTimeout (dt : Nat) (n : Fin 4)
  /-- TMU_FREQ_STAMP | R506 | In FREQ mode a qualifying edge yields a (k, t) stamp pair -/
  | tmuFreqStamp (dt : Nat) (n : Fin 4) (k : Nat) (t : Nat) (di : Option Int)
  /-- TMU_GATE_CLOSE | R507 | A frequency gate closes and a line is fitted through its stamps -/
  | tmuGateClose (dt : Nat) (n : Fin 4)
  /-- F_TMU_LOCK | R504 | An interpolator loop goes out of lock, and the deckle faults with F-TMU -/
  | fTmuLock (dt : Nat) (n : Fin 4)
  /-- TMU_RELOCK | R504 | An interpolator loop relocks, and DLL-LOCKED TMU is sent -/
  | tmuRelock (dt : Nat) (n : Fin 4)
  /-- EVT_PULSE_END | R530 | A PULSE EVT line is released after 1.0 µs -/
  | evtPulseEnd (dt : Nat) (n : Fin 4)
  /-- EVENT_LINE_SEND | R525 | A queued event line is sent to its session between complete lines -/
  | eventLineSend (dt : Nat) (line : Fin 10)
  /-- TRACE_SLOT | R545 | Every 256 ticks a deckle's FIFO drains one packet into its ring and its port slot, or the slot carries SYNC -/
  | traceSlot (dt : Nat)
  /-- MODULE_COUNTER_UPDATE | R551 | Once per second the module counters are updated -/
  | moduleCounterUpdate (dt : Nat) (m : Temps)
  /-- LINE_EDITING | R129 | In typed mode a received character is echoed, or an editing byte (BS, DEL, Ctrl-U, Ctrl-C, Ctrl-R) edits, abandons or redisplays the partial line -/
  | lineEditing (dt : Nat) (line : Fin 10) (b : Nat)
  /-- ARM_COMPLETE | R160 | ARM's analogue settings and relays are applied and the felts are filled, and the reply OK ARM Dd SETTLED=t is sent within 5 ms -/
  | armComplete (dt : Nat) (d : Fin 8)
  /-- FURNISH_SAVE_COMPLETE | R177 | The slot write of a FURNISH SAVE finishes, with the CRC written last, and the reply is sent -/
  | furnishSaveComplete (dt : Nat) (d : Fin 8)
  /-- MICRO_IMAGE_STORED | R308 | The flash write of a MICRO IMAGE container finishes and OK MICRO IMAGE … EFFECTIVE=RESTART is sent within 6 s -/
  | microImageStored (dt : Nat)
  /-- DESKEW_MEASURE_COMPLETE | R348 | The TDR sweep over the listed pins ends, the levels and rest states are restored, the deskew is written to the shadow and the reply is sent -/
  | deskewMeasureComplete (dt : Nat) (d : Fin 8) (res : List TdrRes)
  /-- BANK_ZERO_COMPLETE | R412 | The zeroing of the banks named by BANK ZERO finishes, the header masks are set to TS 0 and the reply is sent -/
  | bankZeroComplete (dt : Nat) (d : Fin 8)
deriving DecidableEq, Repr

end Sys2Proof
end

