-- ==== Sys2Proof/Machine/Codes.lean ====
section
/-! DEFINITION. Hashes, cyclic redundancy checks and base-64 over lists of byte values. -/

namespace Sys2Proof.Machine

/-! ### SHA-256 and HMAC (named by R16, R22 and R29; FIPS 180-4 and RFC 2104, PRESUMED, log 10) -/

/-- The primes below 312: SHA-256 takes its constants from the first 64. -/
def shaPrimes : List Nat :=
  let small := [2, 3, 5, 7, 11, 13, 17]
  (List.range 312).filter (fun n => 2 ≤ n && small.all (fun p => n = p || n % p ≠ 0))

/-- The greatest number of at most `bits` bits whose `k`-th power is at most `v`, one bit after the other. -/
def rootUpTo (k v : Nat) : Nat → Nat → Nat
  | 0, r => r
  | b + 1, r => rootUpTo k v b (if (r + 2 ^ b) ^ k ≤ v then r + 2 ^ b else r)

/-- The first 32 bits after the point of the `k`-th root of `p`. -/
def rootFrac (k p : Nat) : Word := BitVec.ofNat 32 (rootUpTo k (p * 2 ^ (32 * k)) 37 0)

/-- The constants of the 64 rounds: cube roots. -/
def shaK : List Word := shaPrimes.map (rootFrac 3)

/-- The value that a hash starts from: square roots. -/
def shaH : List Word := (shaPrimes.take 8).map (rootFrac 2)

/-- The word at an index; 0 beyond the end. -/
def nth (l : List Word) (i : Nat) : Word := (l[i]?).getD 0

/-- A number as `n` bytes, most significant first. -/
def beBytes (n v : Nat) : List Nat := (List.range n).map (fun i => v / 256 ^ (n - 1 - i) % 256)

/-- The number that bytes hold, most significant first. -/
def beNum (l : List Nat) : Nat := l.foldl (fun acc b => acc * 256 + b % 256) 0

/-- A word turned right by each of some amounts, the results added without carry. -/
def turns (x : Word) (ns : List Nat) : Word := ns.foldl (fun m n => m ^^^ x.rotateRight n) 0

/-- The word that 16 words of the schedule, newest first, are followed by. -/
def shaNext (w : List Word) : Word :=
  nth w 15 + (turns (nth w 14) [7, 18] ^^^ nth w 14 >>> 3) + nth w 6 + (turns (nth w 1) [17, 19] ^^^ nth w 1 >>> 10)

/-- The message schedule, newest word first. -/
def shaExtend (w : List Word) : List Word := (List.range 48).foldl (fun w _ => shaNext w :: w) w

/-- One round on the eight working words. -/
def shaRound (v : List Word) (add : Word) : List Word :=
  match v with
  | [a, b, c, d, e, f, g, h] =>
    let x := h + add + turns e [6, 11, 25] + (g ^^^ (e &&& (f ^^^ g)))
    [x + turns a [2, 13, 22] + ((a &&& (b ||| c)) ||| (b &&& c)), a, b, c, d + x, e, f, g]
  | v => v

/-- One block of 64 bytes. -/
def shaBlock (h : List Word) (blk : List Nat) : List Word :=
  let first := (List.range 16).map (fun i => BitVec.ofNat 32 (beNum ((blk.drop (60 - 4 * i)).take 4)))
  let v := (List.zipWith (· + ·) (shaExtend first).reverse shaK).foldl shaRound h
  List.zipWith (· + ·) h v

/-- SHA-256 of a list of byte values, as 32 byte values. -/
def sha256 (m : List Nat) : List Nat :=
  let z := (64 - (m.length + 9) % 64) % 64
  let p := m ++ 0x80 :: List.replicate z 0 ++ beBytes 8 (8 * m.length)
  let h := (List.range (p.length / 64)).foldl (fun h i => shaBlock h ((p.drop (64 * i)).take 64)) shaH
  h.flatMap (fun w => beBytes 4 w.toNat)

/-- HMAC-SHA-256 under a key of 32 bytes, given as a number. -/
def hmac (key : Nat) (m : List Nat) : List Nat :=
  let k := beBytes 32 key ++ List.replicate 32 0
  sha256 (k.map (fun b => b ^^^ 0x5c) ++ sha256 (k.map (fun b => b ^^^ 0x36) ++ m))

/-- HMAC-SHA-256 as a number of 256 bits. -/
def hmacNum (key : Nat) (m : List Nat) : Nat := beNum (hmac key m)

/-! ### Cyclic redundancy checks -/

/-- R142 | one byte into the reflected CRC-32. -/
def crc32Step (c : BitVec 32) (b : Nat) : BitVec 32 :=
  (List.range 8).foldl (fun c _ => if c.getLsbD 0 then (c >>> 1) ^^^ 0xEDB88320#32 else c >>> 1) (c ^^^ BitVec.ofNat 32 (b % 256))

/-- R142 | CRC-32 of a list of byte values. -/
def crc32 (m : List Nat) : Nat := (m.foldl crc32Step 0xFFFFFFFF#32 ^^^ 0xFFFFFFFF#32).toNat

/-- R239 | CRC-16, polynomial 0x1021, initial value 0xFFFF, most significant bit first. -/
def crc16 (m : List Nat) : Nat :=
  (m.foldl (fun (c : BitVec 16) b =>
    (List.range 8).foldl (fun c _ => if c.getLsbD 15 then (c <<< 1) ^^^ 0x1021#16 else c <<< 1)
      (c ^^^ (BitVec.ofNat 16 (b % 256) <<< 8))) 0xFFFF#16).toNat

/-- R541 | CRC-8, polynomial 0x07, initial value 0. -/
def crc8 (m : List Nat) : Nat :=
  (m.foldl (fun (c : BitVec 8) b =>
    (List.range 8).foldl (fun c _ => if c.getLsbD 7 then (c <<< 1) ^^^ 0x07#8 else c <<< 1)
      (c ^^^ BitVec.ofNat 8 (b % 256))) 0#8).toNat

/-! ### Base-64 (R141) -/

/-- R141 | the six bits of a base-64 character. -/
def b64Val (c : Nat) : Option Nat :=
  if 65 ≤ c ∧ c ≤ 90 then some (c - 65) else if 97 ≤ c ∧ c ≤ 122 then some (c - 71)
  else if 48 ≤ c ∧ c ≤ 57 then some (c + 4) else if c = 43 then some 62 else if c = 47 then some 63 else none

/-- R141 | the base-64 character of six bits. -/
def b64Char (v : Nat) : Nat :=
  if v < 26 then v + 65 else if v < 52 then v + 71 else if v < 62 then v - 4 else if v = 62 then 43 else 47

/-- R141 | bytes as base-64 characters, padded. -/
def b64Enc : List Nat → List Nat
  | [] => []
  | [a] => [b64Char (a / 4), b64Char (a % 4 * 16), 61, 61]
  | [a, b] => [b64Char (a / 4), b64Char (a % 4 * 16 + b / 16), b64Char (b % 16 * 4), 61]
  | a :: b :: c :: r =>
    b64Char (a / 4) :: b64Char (a % 4 * 16 + b / 16) :: b64Char (b % 16 * 4 + c / 64) :: b64Char (c % 64) :: b64Enc r

/-- R141 | the `n` bytes that a payload line's characters carry; none for a wrong length, a character outside the
alphabet or padding that is not the line's own. -/
def b64Dec : Nat → List Nat → Option (List Nat)
  | 0, [] => some []
  | 1, [a, b, 61, 61] => do
    let x ← b64Val a; let y ← b64Val b
    some [x * 4 + y / 16]
  | 2, [a, b, c, 61] => do
    let x ← b64Val a; let y ← b64Val b; let z ← b64Val c
    some [x * 4 + y / 16, y % 16 * 16 + z / 4]
  | n + 3, a :: b :: c :: d :: r => do
    let x ← b64Val a; let y ← b64Val b; let z ← b64Val c; let w ← b64Val d
    let t ← b64Dec n r
    some ((x * 4 + y / 16) :: (y % 16 * 16 + z / 4) :: (z % 4 * 64 + w) :: t)
  | _, _ => none

end Sys2Proof.Machine
end

