-- ==== Sys2Proof/Config.lean ====
section
/-! DEFINITION. What an implementation fixes, and the free values: constants without a body, which nothing can evaluate. -/

namespace Sys2Proof.Config

/-- R22 | the n-th 128-bit nonce the module draws (log 5) -/
opaque nonce : Nat → BitVec 128

/-- R440 | the demand of a DPS channel under fallback regulation, whose law the spec does not give (log 5) -/
opaque fallback : Nat → BitVec 32

/-- R42 | length in bytes of the certificate issued for a device key and a serial number (log 5) -/
opaque certLength : Nat → Nat → Nat

/-- R42 | bytes of that certificate (log 5) -/
opaque certByte : Nat → Nat → Nat → BitVec 8

/-- R43 | length of the ECDSA signature under a key over some bytes with the n-th random number (log 5) -/
opaque signatureLength : Nat → List Nat → Nat → Nat

/-- R43 | bytes of that signature (log 5) -/
opaque signatureByte : Nat → List Nat → Nat → Nat → BitVec 8

/-- R485, R505 | a value for which the spec states no result, by the number of free values drawn before it (log 5) -/
opaque value : Nat → BitVec 64

/-- R419 | sign and payload of a not-a-number result, which the spec does not state (log 5) -/
opaque nanBits : BitVec 32

/-- R241 | the known delay of a slave's own hop, in ticks (log 5) -/
opaque hopDelay : Nat

/-- R586 | self-test items already run when a fault ends the start, by the number of free values drawn before it (log 39) -/
opaque selfTestRun : Nat → Nat

/-- R586 | what those items found (log 39) -/
opaque selfTestObs : Nat → List ItemObs

/-- R217 | ticks of 800 ps in a microsecond -/
def us : Nat := 1250

/-- Ticks of 800 ps in a millisecond -/
def ms : Nat := 1250000

/-- Ticks of 800 ps in a second -/
def sec : Nat := 1250000000

end Sys2Proof.Config
end

