-- ==== Sys2Proof/Machine/State.lean ====
section
/-! DEFINITION. State of the module as plain data: every piece of state the spec gives it, each field with its rule, width
and reset value. -/

namespace Sys2Proof.Machine

/-- R166, R360 | rest state of a pin -/
inductive Rest where | hiz | low | high | term
deriving DecidableEq, Repr

/-- R355, R357 | PMU mode of a pin -/
inductive PmuMode where | off | fv | fi | fn
deriving DecidableEq, Repr

/-- R333 | drive formats -/
inductive Fmt where | nrz | dnrz | rz | ro | sbc | zw
deriving DecidableEq, Repr

/-- R236, R454, R473 | start and trigger sources -/
inductive Trig where | cmd | mark (m : Nat) | timer | trigin | triginF | chain
deriving DecidableEq, Repr

/-- R382, R385 | log modes -/
inductive LogMode where | first | last
deriving DecidableEq, Repr

/-- R456 | what follows the last sample of a list -/
inductive AuxEnd where | hold | zero | rpt
deriving DecidableEq, Repr

/-- R580, R80 | module states; off and inReset are the conditions of R68 -/
inductive ModState where
  | off | inReset | powerOn | boot | verify | load | selfTest | degraded | warming | ready | safe
deriving DecidableEq, Repr

/-- The order variants of R3 -/
inductive Variant where | o | x
deriving DecidableEq, Repr

/-- R226 | the selection of a module whose owner has stored none: INT on the HQ-48/O, EXT on the HQ-48/X -/
def RefSrc.byDefault : Variant → RefSrc | .o => .int | .x => .ext

/-- R155 | deckle states; zeroing is the ZEROING of R190 -/
inductive DkState where | closed | opened | held | armed | running | stopped | faulted | zeroing
deriving DecidableEq, Repr

/-- R10, R8 | the role a session acts in -/
inductive Role where | anon | owner | tenant (d : Nat) | observer (n : Nat)
deriving DecidableEq, Repr

/-- R519, R535 | deckle fault causes, in the rank order of R535; safe is REASON=SAFE of R182 -/
inductive FaultKind where
  | mchk | bank | ref | chain | dll | pin | dps | sense | tmu | felt | safe
deriving DecidableEq, Repr

/-- R173 | HELD reasons with their details -/
inductive HeldWhy where
  | session | grant | slotcrc (n : Nat) | withdrawn (units : List String) | invalid (sect item : String)
  | restart | mchk | restoring
deriving DecidableEq, Repr

/-- An atom of a line the module sends -/
inductive Atom where
  | s (t : String)                      -- a word or literal text
  | d (n : Int)                         -- a decimal integer
  | fx (n : Int) (places : Nat)         -- n / 10^places with all its places
  | hx (n : Nat) (digits : Nat)         -- 0x, grouped by underscores past four digits
  | sec (n : Nat) (groups : Nat)        -- lower-case groups of four hex digits
  | raw (bytes : List Nat)              -- characters as given
deriving DecidableEq, Repr

/-- One blank-free token: optional KEY= and its atoms written without blanks. -/
structure Tok where
  key : String := ""
  val : List Atom := []
deriving DecidableEq, Repr

/-- A line the module sends, before its terminator and its SEAL suffix. -/
abbrev Line := List Tok

/-- A line as sent: the text, in SEAL mode its MAC (R30), and whether CR LF ends it (prompts and echoes have none). -/
structure Sent where
  text : Line
  mac : Option Nat := none
  crlf : Bool := true
deriving DecidableEq, Repr

/-- A table from numbers to values, ascending in the number; an absent number reads as the default. -/
abbrev Tab (α : Type) := List (Nat × α)

/-- Bytes by address, in canonical form: addresses rising, no zero byte listed (an unlisted byte is 0). -/
abbrev Mem := List Host.Cell

structure PinCfg where
  /-- R373 | 1 to 12 characters | none (R588 NAME=NONE) | pin name -/
  name : String := ""
  /-- R166 | 2 bits | HIZ (R166) | rest state -/
  rest : Rest := .hiz
deriving DecidableEq, Repr

structure LevCfg where
  /-- R357 | 16-bit code | 0 V (R357) | driver high level, as the value its code stands for -/
  vih : Rat := 0
  /-- R357 | 16-bit code | 0 V (R357) | driver low level -/
  vil : Rat := 0
  /-- R357 | 16-bit code | 0 V (R357) | termination level -/
  vtt : Rat := 0
  /-- R357 | 16-bit code | 0 V (R357) | high threshold -/
  voh : Rat := 0
  /-- R357 | 16-bit code | 0 V (R357) | low threshold -/
  vol : Rat := 0
  /-- R357 | 16-bit code | 0 mA (R357) | sink load current, in amperes -/
  ioh : Rat := 0
  /-- R357 | 16-bit code | 0 mA (R357) | source load current, in amperes -/
  iol : Rat := 0
  /-- R357 | 16-bit code | 0 V (R357) | commutation voltage -/
  vcom : Rat := 0
  /-- R357 | 1 bit | OFF (R357) | active load setting -/
  load : Bool := false
  /-- R357 | 2 bits | OFF (R357) | PMU mode -/
  pmu : PmuMode := .off
  /-- R357 | value with its unit | 0 (R357) | PMU force value -/
  force : Rat := 0
  /-- R357 | volts or amperes | none given (default 0, R357) | unit that FORCE is stored in, true for amperes -/
  forceA : Option Bool := none
  /-- R357 | 3 bits | 32 mA (R357) | current range, full scale in amperes -/
  irange : Rat := 32 / 1000
  /-- R357 | percent | 100 % (R357) | current clamp -/
  iclamp : Rat := 100
  /-- R357 | volts | -1.5 V (R357) | low voltage clamp -/
  vclo : Rat := -3 / 2
  /-- R357 | volts | +6.5 V (R357) | high voltage clamp -/
  vchi : Rat := 13 / 2
deriving DecidableEq, Repr

structure DpsCfg where
  /-- R422 | 1 bit | OFF (R422) | ENABLE -/
  enable : Bool := false
  /-- R422 | 2 bits | 1.5A (R422) | RANGE, full scale in amperes -/
  range : Rat := 3 / 2
  /-- R422 | amperes | absent: the range's full scale (R422) | ISRC -/
  isrc : Option Rat := none
  /-- R422 | amperes | absent: the range's full scale, 0.3 A on 1.5A (R422) | ISNK -/
  isnk : Option Rat := none
  /-- R422 | volts | 7.5 V (R422) | VMAX -/
  vmax : Rat := 15 / 2
  /-- R422 | volts | 0 V (R422) | TARGET at ARM -/
  target : Rat := 0
  /-- R422 | V/us | 1 V/us (R422) | SLEW -/
  slew : Rat := 1
  /-- R422 | V/us2 | OFF (R422) | BEND -/
  bend : Option Rat := none
  /-- R422 | us | 100 us (R422) | SETTLE -/
  settle : Rat := 100
  /-- R422 | 1 bit | REMOTE (R422) | SENSE, true for REMOTE -/
  remote : Bool := true
  /-- R422 | volts | 0.5 V (R422) | SBDIV -/
  sbdiv : Rat := 1 / 2
  /-- R422 | 1 to 6 | 1 (R422) | NX -/
  nx : Nat := 1
  /-- R418, R422 | NX x NX binary32 | zero (R422) | matrix A, row-major bit patterns; empty is all zero -/
  matA : List Nat := []
  /-- R418, R422 | NX x 1 binary32 | zero (R422) | matrix B -/
  matB : List Nat := []
  /-- R418, R422 | 2 x NX binary32 | zero (R422) | matrix C -/
  matC : List Nat := []
  /-- R418, R422 | NX x 2 binary32 | zero (R422) | matrix L -/
  matL : List Nat := []
  /-- R418, R422 | 1 x NX binary32 | zero (R422) | matrix K -/
  matK : List Nat := []
  /-- R418, R422 | 1 x 1 binary32 | zero (R422) | matrix N -/
  matN : List Nat := []
  /-- R422 | 1 bit | OFF (R422) | FF -/
  ff : Bool := false
  /-- R422 | 12 bits | 0 (R422) | FFOFS -/
  ffofs : Nat := 0
  /-- R422, R431 | 4,096 x 32 bits | zero (R422) | FFTABLE, as bytes -/
  fft : Mem := []
  /-- R422 | 0 to 1 | 0 (R422) | learning gain GAIN, binary32 -/
  gain : Nat := 0
  /-- R422 | 0 to 0.25 | 0 (R422) | QA, binary32 -/
  qa : Nat := 0
  /-- R422 | 0 to 1 | 1 (R422) | QF, binary32 -/
  qf : Nat := 0x3F800000
deriving DecidableEq, Repr

structure AuxCfg where
  /-- R460 | 0.5, 2, 5, 10 | 2 V (R460) | SPAN, half-span in volts -/
  span : Rat := 2
  /-- R460 | 1 bit | OPEN (R460) | RELAY, true for CLOSED -/
  relay : Bool := false
  /-- R460 | source | CMD (R460) | START -/
  start : Trig := .cmd
  /-- R460 | 2 bits | ZERO (R460) | END -/
  fin : AuxEnd := .zero
  /-- R460 | 1 to 8,192 | 1 (R460) | COUNT -/
  count : Nat := 1
  /-- R449, R460 | 8,192 x 16 bytes | zero (R460) | LIST, as bytes -/
  list : Mem := []
deriving DecidableEq, Repr

structure AdcEntry where
  /-- R471, R473 | 8 bits | REF0V (R473) | SRC code -/
  src : Nat := 0x80
  /-- R473 | quarter us, 1 to 256 | 1 us (R473) | TS in units of 0.25 us -/
  ts : Nat := 4
  /-- R473 | 1, 2, 4, 8, 16 | 1 (R473) | GAIN -/
  gain : Nat := 1
  /-- R473 | 1 bit | OFF (R473) | BO -/
  bo : Bool := false
  /-- R473 | volts | 0 (R473) | PT -/
  pt : Rat := 0
  /-- R473 | pF | 0 (R473) | CFIX -/
  cfix : Rat := 0
deriving DecidableEq, Repr

structure AdcCfg where
  /-- R473 | source | CMD (R473) | TRIG -/
  trig : Trig := .cmd
  /-- R473 | 1 bit | SCAN (R473) | MODE, true for STEP -/
  step : Bool := false
  /-- R473 | 1 to 16 | 1 (R473) | COUNT -/
  count : Nat := 1
  /-- R473 | 16 bits | 1 (R473) | REPEAT -/
  rpt : Nat := 1
  /-- R473 | 625 to 12,500,000,000 ticks | DESIGN CHOICE 625 (log 1) | PERIOD -/
  period : Nat := 625
  /-- R473 | 16 entries | defaults of R473 | sequence entries -/
  ent : Tab AdcEntry := []
deriving DecidableEq, Repr

/-- R490 | a TMU source: comparator of a channel, or TMX/TMY; rising tells the slope -/
inductive TmuSrc where | ch (n : Nat) (hi : Bool) (rising : Bool) | tmx (rising : Bool) | tmy (rising : Bool)
deriving DecidableEq, Repr

structure TmuCfg where
  /-- R493 | 1 bit | INTERVAL (R493) | MODE, true for FREQ -/
  freq : Bool := false
  /-- R493 | 1 bit | VERNIER (R493) | INTERP, true for RAMP -/
  ramp : Bool := false
  /-- R493 | source | DESIGN CHOICE absent (log 1) | FROM -/
  frm : Option TmuSrc := none
  /-- R493 | source | DESIGN CHOICE absent (log 1) | TO -/
  dst : Option TmuSrc := none
  /-- R493 | 16 bits | 1 (R493) | EVENT -/
  event : Nat := 1
  /-- R493 | fs, 0 to 10 s | 0 (R493) | HOLDOFF -/
  holdoff : Nat := 0
  /-- R493 | fs, 1 us to 10 s | 1 s (R493) | TIMEOUT -/
  timeout : Nat := 1000000000000000
  /-- R493 | 1 to 16,777,216 | 1 (R493) | N -/
  n : Nat := 1
  /-- R493 | 1 bit | SERIES (R493) | PER, true for EACH -/
  each : Bool := false
  /-- R493 | us, 1 to 10,000,000 | 1 ms (R493) | GATE -/
  gate : Nat := 1000
  /-- R493 | 16 bits | 1 (R493) | GATES, 0 until HALT -/
  gates : Nat := 1
  /-- R493 | 1 to 65,536 | 1 (R493) | PRESCALE -/
  prescale : Nat := 1
  /-- R493 | source | CMD (R493) | TRIG -/
  trig : Trig := .cmd
  /-- R490 | 16-bit code | 0 V (R490) | XTHR -/
  xthr : Rat := 0
  /-- R490 | 16-bit code | 0 V (R490) | YTHR -/
  ythr : Rat := 0
  /-- R492 | -2,048 to 2,047 fine steps | 0 (R492) | XSKEW -/
  xskew : Int := 0
  /-- R492 | -2,048 to 2,047 fine steps | 0 (R492) | YSKEW -/
  yskew : Int := 0
deriving DecidableEq, Repr

structure TPin where
  /-- R327 | format | NRZ (R328) | FMT -/
  fmt : Fmt := .nrz
  /-- R327 | 1 bit | EDGE (R328) | CMP, true for WINDOW -/
  win : Bool := false
  /-- R327 | fine steps | 0 (R328) | D1 -/
  d1 : Nat := 0
  /-- R327 | fine steps | 0 (R328) | D2 -/
  d2 : Nat := 0
  /-- R327, R328 | fine steps | follows PERIOD (R328) | D3, absent while it follows -/
  d3 : Option Nat := none
  /-- R327 | fine steps | 0 (R328) | D4 -/
  d4 : Nat := 0
  /-- R327, R328 | fine steps | follows PERIOD (R328) | C1, absent while it follows -/
  c1 : Option Nat := none
  /-- R327, R328 | fine steps | follows PERIOD (R328) | C2, absent while it follows -/
  c2 : Option Nat := none
deriving DecidableEq, Repr

structure TSet where
  /-- R327 | 1,024 to 2,147,483,647 fine steps | 12,800 (R328) | PERIOD -/
  period : Nat := 12800
  /-- R327 | per channel | defaults of R328 | pin fields by channel -/
  pin : Tab TPin := []
deriving DecidableEq, Repr

structure Deskew where
  /-- R347 | -2,048 to 2,047 | 0 (R347) | DRV -/
  drv : Int := 0
  /-- R347 | -2,048 to 2,047 | 0 (R347) | CMP -/
  cmp : Int := 0
deriving DecidableEq, Repr

/-- R166 | the sections of a furnish other than GRANT, the bank images and the micro slices -/
structure Furnish where
  /-- R166, R373 | 48 channels | defaults (R166) | PIN section -/
  pins : Tab PinCfg := []
  /-- R166, R357 | 48 channels | defaults (R357) | LEVEL section -/
  lev : Tab LevCfg := []
  /-- R166, R422 | 4 channels | defaults (R422) | INSTR: DPS -/
  dps : Tab DpsCfg := []
  /-- R166, R460 | 2 channels | defaults (R460) | INSTR: AUX -/
  aux : Tab AuxCfg := []
  /-- R166, R473 | 8 converters | defaults (R473) | INSTR: ADC -/
  adc : Tab AdcCfg := []
  /-- R166, R493 | 4 units | defaults (R493) | INSTR: TMU -/
  tmu : Tab TmuCfg := []
  /-- R166, R328 | 1 to 32 | 1 (R328) | TSET: count -/
  tcount : Nat := 1
  /-- R166, R327 | 32 sets | defaults (R328) | TSET: contents -/
  tsets : Tab TSet := []
  /-- R347 | 48 channels | 0 (R347) | TSET: deskew -/
  dsk : Tab Deskew := []
  /-- R257, R279 | list of banks | empty (R156 empty working furnish) | PATTERN: stripe list -/
  stripe : List Nat := []
  /-- R261, R279 | bank | absent (R156) | PATTERN: program bank -/
  prog : Option Nat := none
  /-- R279 | op index | DESIGN CHOICE 0 (log 1) | PATTERN: program entry -/
  entry : Nat := 0
  /-- R278 | per bank, 0 to 131,072 | 0 (R156) | PATTERN: ops up to the last loaded one of each bank -/
  loaded : Tab Nat := []
  /-- R299 | 32 x 32 bits | 0 (R31) | MICRO: custom dispatch table -/
  ctab : Tab Nat := []
  /-- R166 | 1 bit | 0 (R166) | OPTIONS: WARM -/
  warm : Bool := false
  /-- R166, R246 | 1 to 15 | absent (log 1) | OPTIONS: chain group -/
  group : Option Nat := none
  /-- R236 | source | CMD (R236) | OPTIONS: TRIG -/
  trig : Trig := .cmd
  /-- R378 | bank | absent (R378) | OPTIONS: BROKE BANK -/
  bbank : Option Nat := none
  /-- R378 | bank | absent (R378) | OPTIONS: CAPTURE BANK -/
  cbank : Option Nat := none
  /-- R382 | 1 bit | FIRST (R382) | OPTIONS: BROKE MODE -/
  bmode : LogMode := .first
  /-- R385 | 1 bit | FIRST (R385) | OPTIONS: CAPTURE MODE -/
  cmode : LogMode := .first
  /-- R383 | 1 to 2^32-1 | absent (R383) | OPTIONS: BROKE STOPAT -/
  stopat : Option Nat := none
deriving DecidableEq, Repr

/-- R161 | the grants of a deckle (the GRANT section of R166 is a copy of it) -/
structure Grant where
  /-- R161 | list of CH00 to CH47, ascending | empty | granted channels -/
  ch : List Nat := []
  /-- R161 | list of V00 to V63 | empty | granted banks -/
  banks : List Nat := []
  /-- R161 | list of DPS0 to DPS3 | empty | granted DPS channels -/
  dps : List Nat := []
  /-- R161 | list of AUX0, AUX1 | empty | granted AUX channels -/
  aux : List Nat := []
  /-- R161 | list of ADC0 to ADC7 | empty | granted converters -/
  adc : List Nat := []
  /-- R161 | list of TMU0 to TMU3 | empty | granted TMUs -/
  tmu : List Nat := []
  /-- R161 | 0 to 8 eighths | 0 (CLOSED holds none) | share -/
  share : Nat := 0
  /-- R161 | 0 to 16 | 0 (CLOSED holds none) | furnish slots the deckle may hold -/
  slots : Nat := 0
deriving DecidableEq, Repr

/-- R290, R291, R272, R314 | what a thread waits for without cost -/
inductive Wait where | dreg | mat | brfail | result | flag | read (bank addr : Nat)
deriving DecidableEq, Repr

structure MatchSt where
  /-- R269 | run quire number | absent outside MATCH | quire of repetition 0 -/
  first : Nat := 0
  /-- R269 | count | 0 | repetitions dispatched so far -/
  reps : Nat := 0
deriving DecidableEq, Repr

structure UEntry where
  /-- R282 | 14 bits | empty stack | return address -/
  addr : Nat := 0
  /-- R282, R293 | 1 bit | empty stack | region tag: vendor -/
  vendor : Bool := false
deriving DecidableEq, Repr

/-- R276 | a learn loop in progress -/
structure LearnLoop where
  /-- R276 | 4 bits | 0 | mask of DPS channels -/
  mask : Nat := 0
  /-- R264 | 0 to 3 | 0 | nesting depth of its LOOP -/
  depth : Nat := 0
  /-- R260 | quires | 0 | learn position of the next quire to be dispatched -/
  pos : Nat := 0
  /-- R276 | 4 to 4,096 | 0 | quires that an iteration of its body dispatches -/
  len : Nat := 0
deriving DecidableEq, Repr

/-- R282 | a deckle thread -/
structure Thread where
  /-- R282 | 16 x 32 bits | 0 (R283) | G0 to G15 -/
  g : Tab (BitVec 32) := []
  /-- R282, R264 | 4 x 24 bits | 0 (R283) | LC0 to LC3 -/
  lc : Tab Nat := []
  /-- R285 | 1 bit | 0 (R283) | C0 -/
  z : Bool := false
  /-- R285 | 1 bit | 0 (R283) | C1 -/
  n : Bool := false
  /-- R285 | 1 bit | 0 (R283) | C2 -/
  c : Bool := false
  /-- R285 | 1 bit | 0 (R283) | C3 -/
  v : Bool := false
  /-- R285 | 1 bit | 0 (R283) | C12, QE -/
  qe : Bool := false
  /-- R285 | 1 bit | 0 (R283) | C14 -/
  u0 : Bool := false
  /-- R285 | 1 bit | 0 (R283) | C15 -/
  u1 : Bool := false
  /-- R282, R292 | 8 entries of 14 bits and a tag | empty (R283) | micro-stack, newest first -/
  ms : List UEntry := []
  /-- R282 | 32 bits | 0 (R283) | MAR -/
  mar : BitVec 32 := 0
  /-- R282 | 32 bits | 0 (R283) | MDR -/
  mdr : BitVec 32 := 0
  /-- R282 | 32 bits | 0 (R283) | QIN -/
  qin : BitVec 32 := 0
  /-- R282, R283 | 64 bits | all ones (R283) | TBC -/
  tbc : Nat := 18446744073709551615
  /-- R282 | 14 bits | DESIGN CHOICE 0 (log 1) | micro program counter -/
  upc : Nat := 0
  /-- R282, R265 | 16 entries | empty (R283) | op stack, newest first: return op index and loop depth of the caller -/
  os : List (Nat × Nat) := []
  /-- R284 | op index | program entry (R160) | op the interpreter takes next -/
  ip : Nat := 0
  /-- R264 | 0 to 4 | 0 (R283) | op loop depth -/
  depth : Nat := 0
  /-- R160, R303 | 1 bit | 0 (R283) | the thread executes ops -/
  active : Bool := false
  /-- R293, R300 | 1 bit | 0 (R283) | customer code executes: a custom op is in progress -/
  cust : Bool := false
  /-- R290, R291 | wait reason | none (R283) | costless wait in progress -/
  wait : Option Wait := none
  /-- R549 | tick | 0 (R283) | when that wait began -/
  waitT : Nat := 0
  /-- R325, R541 | 1 bit | 0 (R283) | the customer step that executes next has waited -/
  waited : Bool := false
  /-- R291 | 1 bit | 0 (R283) | the step of a WAIT word that still waits has been counted -/
  issued : Bool := false
  /-- R269 | MATCH in progress | none (R283) | stock MATCH state -/
  mt : Option MatchSt := none
  /-- R276 | 4 bits | 0 (R283) | mask of a LEARN waiting for its LOOP -/
  lmask : Nat := 0
  /-- R276 | list | none (R283) | learn loops in progress, innermost first -/
  learn : List LearnLoop := []
deriving DecidableEq, Repr

/-- R295, R263 | a dispatch held in the dispatch register until the headbox has taken every quire of it -/
structure DItem where
  /-- R257 | pattern address | none | PA of the next quire -/
  pa : Nat := 0
  /-- R263 | 1 to 65,536 (WAITT: more) | 0 | quires left -/
  left : Nat := 0
  /-- R273, R269 | 1 bit | 0 | the same quire repeats -/
  same : Bool := false
  /-- R259 | 1 bit | 0 | its first quire starts a segment -/
  seg : Bool := false
  /-- R260 | 16 bits, saturating | 0 | segment position of its next quire -/
  pos : Nat := 0
  /-- R274 | list of (mark, sheet) | empty | marks of its first quire -/
  marks : List (Nat × Nat) := []
  /-- R275 | 5 bits | 0 | TSEL offset at dispatch -/
  tsel : Nat := 0
  /-- R260, R430 | list of (mask, position, length) | none | learn loops that it stands in, innermost first, with the learn position of its
  next quire and the body length of each -/
  learn : List (Nat × Nat × Nat) := []
  /-- R269 | repetition | none | MATCH repetition number -/
  rep : Option Nat := none
  /-- R432 | 4 offsets | run-time value | FFOFS of the four DPS channels in effect for its quires -/
  ffofs : Tab Nat := []
deriving DecidableEq, Repr

/-- R206 | a whole quire in the felts -/
structure FQ where
  /-- R257 | pattern address | none | its pattern address -/
  pa : Nat := 0
  /-- R260 | 48 bits | none | its run quire number -/
  q : Nat := 0
  /-- R260 | 16 bits, saturating | none | its segment position -/
  seg : Nat := 0
  /-- R250 | 32 sheet words | none | the sheets as the headbox read them -/
  sheets : List Nat := []
  /-- R274 | list | none | marks to raise -/
  marks : List (Nat × Nat) := []
  /-- R275 | 5 bits | none | TSEL offset -/
  tsel : Nat := 0
  /-- R260, R430 | list of (mask, position, length) | none | learn loops that it stands in, innermost first, with its learn position in each -/
  learn : List (Nat × Nat × Nat) := []
  /-- R269 | repetition | none | MATCH repetition number -/
  rep : Option Nat := none
  /-- R432 | 4 offsets | none | FFOFS in effect -/
  ffofs : Tab Nat := []
deriving DecidableEq, Repr

/-- R352 | the level a driver stands at -/
inductive Drv where | off | vil | vih | vtt
deriving DecidableEq, Repr

/-- R330, R332 | a placed edge: channel, instant in fine steps of the timebase, and the drive state it brings -/
structure Edge where
  /-- R330 | 0 to 47 | none | channel -/
  ch : Nat := 0
  /-- R330 | fine steps | none | instant at J1 -/
  t : Int := 0
  /-- R333 | drive state | none | what the driver takes -/
  lev : Drv := .off
deriving DecidableEq, Repr

/-- R335 | a switching of an active load: channel, instant in fine steps of the timebase, and whether it acts from then on -/
structure LoadSw where
  /-- R335 | 0 to 47 | none | channel -/
  ch : Nat := 0
  /-- R335 | fine steps | none | instant: the D4 edge, or the sheet start -/
  t : Int := 0
  /-- R354 | 1 bit | none | the load acts -/
  acts : Bool := false
deriving DecidableEq, Repr

/-- R158, R518 | why a deckle stops at its next quire boundary -/
inductive StopCause where
  | stop | off | refswitch | brokeStop
  | fault (k : FaultKind) (fields : Line)
deriving DecidableEq, Repr

structure Seq where
  /-- R285 C10, R295 | one dispatch | empty (R283) | dispatch register -/
  dreg : Option DItem := none
  /-- R206 | at most 12 quires | empty (R31) | felts: quires written and not yet decided -/
  felts : List FQ := []
  /-- R260, R267 | one quire | none | the quire being placed -/
  cur : Option FQ := none
  /-- R294 RQN | published modulo 2^48 | 0 (R260) | run quire number of the next quire to be dispatched -/
  nextD : Nat := 0
  /-- R260 | published modulo 2^48 | 0 (R260) | run quire number of the next quire to be placed -/
  nextP : Nat := 0
  /-- R260 SEGPOS | 16 bits | 0 (R260) | segment position of the next quire to be dispatched -/
  segpos : Nat := 0
  /-- R259 | 1 bit | 0 | a segment has started since the program entry -/
  segOn : Bool := false
  /-- R432 | one quire | none | the quire placed before it -/
  prevQ : Option FQ := none
  /-- R430 | fine steps | 0 | placement time of the quire placed before it -/
  prevStart : Nat := 0
  /-- R330 | fine steps | 0 | placement time of the quire being placed -/
  curStart : Nat := 0
  /-- R267 | fine steps | 0 | placement time of the last sheet of the quire being placed -/
  curLast : Nat := 0
  /-- R267 | fine steps | 0 | placement time of the last sheet of the quire before it -/
  prevLast : Nat := 0
  /-- R330 | fine steps | 0 | placement time of the next quire, sheet 0 -/
  start : Nat := 0
  /-- R234, R233 | 1 bit | 0 (R160) | sheet 0 of the run has been placed or scheduled -/
  started : Bool := false
  /-- R234, R237 | fine steps | none | stamp of a TRIG command that still lies ahead -/
  trigAt : Option Nat := none
  /-- R275 | 5 bits | 0 (R275 at ARM) | TSEL offset of the next dispatch -/
  tsel : Nat := 0
  /-- R274 | list | empty (R283) | marks armed for the next dispatched quire -/
  marks : List (Nat × Nat) := []
  /-- R268, R271 | run quire number, fail | empty (R160) | recorded-fail flags of the latest placed quires -/
  qf : Tab Bool := []
  /-- R268 | count | 0 (R160) | quires whose results have reached the condition bits -/
  resUp : Nat := 0
  /-- R271 | 1 bit | 0 (R271 at ARM) | SFAIL over the results that are in -/
  sfail : Bool := false
  /-- R269 | run quire number | none | quire in which the MATCH in progress first matched -/
  matched : Option Nat := none
  /-- R267 | 1 bit | 0 (R160) | the lead limit is 2 quires, from MATCH or BRFAIL to the next dispatch -/
  lim2 : Bool := false
  /-- R277 | 1 bit | 0 | HALT executed: nothing more is dispatched -/
  halting : Bool := false
  /-- R518, R158 | list | empty | causes that stop the deckle at its next quire boundary, in order of detection -/
  stops : List StopCause := []
  /-- R333 | list | empty | drive edges placed by the latest quire and by the latest rest-state change -/
  edges : List Edge := []
  /-- R335, R354 | list | empty | switchings of active loads in the latest quire and at the latest rest-state change -/
  loads : List LoadSw := []
  /-- R413 | bank | none | bank in which port H met a double-bit error; its quire is never written -/
  bad : Option Nat := none
deriving DecidableEq, Repr

/-- R379, R380 | a broke record on its way to the broke bank -/
structure BrokeRec where
  /-- R379 | 64 bits | none | TB -/
  tb : Nat := 0
  /-- R379 | 10 bits | none | FINE -/
  fine : Nat := 0
  /-- R380 | 4 bits | none | KIND -/
  kind : Nat := 0
  /-- R379 | 4 bits | none | FLAGS -/
  flags : Nat := 0
  /-- R379 | 5 bits | none | TS -/
  ts : Nat := 0
  /-- R379 | 5 bits | none | SHEET -/
  sheet : Nat := 0
  /-- R379 | 48 bits | none | RQN -/
  rqn : Nat := 0
  /-- R379 | 16 bits | none | SEGPOS -/
  seg : Nat := 0
  /-- R379 | 48 bits | none | FAILMASK -/
  fail : Nat := 0
  /-- R379 | 48 bits | none | HIMASK -/
  hi : Nat := 0
  /-- R379 | 48 bits | none | LOMASK -/
  lo : Nat := 0
  /-- R379 | 64 bits | none | INDEX -/
  index : Nat := 0
deriving DecidableEq, Repr

/-- R384 | a capture entry on its way to the capture bank -/
structure CapRec where
  /-- R384 | 48 bits | none | RQN -/
  rqn : Nat := 0
  /-- R384 | 5 bits | none | SHEET -/
  sheet : Nat := 0
  /-- R384 | 2 bits | none | FLAGS -/
  flags : Nat := 0
  /-- R384 | 48 bits | none | CAPMASK -/
  cap : Nat := 0
  /-- R384 | 48 bits | none | HI, or MDR of a user entry -/
  hi : Nat := 0
  /-- R384 | 48 bits | none | LO -/
  lo : Nat := 0
deriving DecidableEq, Repr

/-- R375 to R386 | the results of a deckle -/
structure Results where
  /-- R375 | 48 rings of 512 x 32 bits | empty (R31) | compare-result queues by channel, oldest first -/
  rings : Tab (List (BitVec 32)) := []
  /-- R377 | 48 x 32 bits | 0 (R377) | per-pin fail counters by channel -/
  fc : Tab Nat := []
  /-- R377 | 48 bits | 0 (R377) | failing sheets -/
  sheets : Nat := 0
  /-- R381 | 256 records | empty (R31) | broke queue, oldest first -/
  bq : List BrokeRec := []
  /-- R379 | 64 bits | 0 (R379 since ARM) | INDEX of the next record generated -/
  bidx : Nat := 0
  /-- R381 | 1 bit | 0 | records were dropped since the last one stored -/
  blost : Bool := false
  /-- R382 | record slots written | 0 (R386) | broke write position -/
  bpos : Nat := 0
  /-- R390 | count | 0 (R386) | records stored in the bank -/
  brec : Nat := 0
  /-- R382 | 1 bit | 0 (R386) | FULL or wrapped in this run -/
  bfull : Bool := false
  /-- R385 | 256 entries | empty (R31) | capture DMA queue -/
  cq : List CapRec := []
  /-- R385 | 1 bit | 0 | entries were dropped since the last one stored -/
  clost : Bool := false
  /-- R385 | entries written | 0 (R386) | capture write position -/
  cpos : Nat := 0
  /-- R390 | count | 0 (R386) | entries stored in the bank -/
  crec : Nat := 0
  /-- R385 | 1 bit | 0 (R386) | full or wrapped in this run -/
  cfull : Bool := false
  /-- R383 | 1 bit | 0 (R377) | STOPAT has acted in this run -/
  stopped : Bool := false
  /-- R387 | ticks | 0 | tick of the last placed sheet's end -/
  lastT : Nat := 0
deriving DecidableEq, Repr

/-- R541 | a trace packet before its CRC -/
structure Packet where
  /-- R541 | 4 bits | none | TYPE -/
  ty : Nat := 0
  /-- R541 | 1 bit | none | LOST -/
  lost : Bool := false
  /-- R541 | 3 bits | none | deckle number -/
  d : Nat := 0
  /-- R541, R547 | 64 bits | none | time stamp; bytes 1 to 4 carry its low word -/
  t : Nat := 0
  /-- R541 | 10 bytes | none | bytes 5 to 14 -/
  body : List Nat := []
deriving DecidableEq, Repr

/-- R543 to R546 | a deckle's trace source -/
structure Trace where
  /-- R544 | 1 bit | 0 (R544) | USTEP selected -/
  ustep : Bool := false
  /-- R544 | 1 bit | 0 (R544) | WAIT selected -/
  waitk : Bool := false
  /-- R544 | 1 bit | 0 (R544) | ROUTINE selected -/
  routine : Bool := false
  /-- R544 | 1 bit | 0 (R544) | DISP selected -/
  disp : Bool := false
  /-- R544 | 1 bit | 1 (R544 STATE only by default) | STATE selected -/
  state : Bool := true
  /-- R544 | 2 x 14 bits | none (R544) | micro address limits of USTEP -/
  range : Option (Nat × Nat) := none
  /-- R545 | 8 packets | empty | FIFO -/
  fifo : List Packet := []
  /-- R545 | 1 bit | 0 | packets were dropped before the next one that enters -/
  lost : Bool := false
  /-- R546 | 1,024 packets | empty (R546) | ring with sequence numbers, oldest first -/
  ring : List (Nat × Packet) := []
  /-- R546 | 32 bits | 0 (R546) | next sequence number -/
  nextSeq : Nat := 0
  /-- R542 | ticks | none (R542) | time stamp of the latest TIME packet of the stream -/
  lastTime : Option Nat := none
deriving DecidableEq, Repr

structure AtAct where
  /-- R148 | 1 to 255 | none | ID -/
  id : Nat := 0
  /-- R146 | 64 bits | none | scheduled tick -/
  t : Nat := 0
  /-- R147 | form | none | the action -/
  act : Sched := .arm
  /-- R241, R243 | 1 bit | 0 | a load of the timebase has passed its tick -/
  late : Bool := false
deriving DecidableEq, Repr

structure TagEntry where
  /-- R134 | 1 to 8 characters, upper-cased bytes | none | tag -/
  tag : List Nat := []
  /-- R136 | bytes | none | normalised text -/
  text : List Nat := []
  /-- R139 | lines | none | stored reply, absent while the command executes -/
  reply : Option (List Line × Line) := none
  /-- R139 | 1 bit | none | the body was too long to store -/
  trunc : Bool := false
  /-- R135 | ticks of wall time | none | when the final line was sent or stored -/
  done : Nat := 0
deriving DecidableEq, Repr

/-- R280, R311 | a write staged in the shadow, with the stripe or the program bank that it found there when it arrived -/
inductive Staged where
  | sheets (stripe : List Nat) (first : Nat) (data : List Nat)
  | ops (bank a : Nat) (data : List Nat)
  | micro (nano : Bool) (addr : Nat) (data : List Nat)
  | disp (e v : Nat)
  | clear
deriving DecidableEq, Repr

/-- R155 to R193 | a deckle -/
structure Deckle where
  /-- R156 | 8 states | CLOSED (R156) | state -/
  st : DkState := .closed
  /-- R173 | 8 reasons | none | HELD reason -/
  why : Option HeldWhy := none
  /-- R535 | 11 causes | none | first fault detected -/
  cause : Option FaultKind := none
  /-- R535 | ticks | none | tick at which that fault was detected -/
  causeT : Nat := 0
  /-- R161 | record | empty (R156) | grants -/
  grant : Grant := {}
  /-- R171 | number | none (R156) | seal, by its sequence number -/
  sealN : Option Nat := none
  /-- R171 | 32 bits | 0 | CRC of the sealed image -/
  crc : Nat := 0
  /-- R171 | count | 0 (R171 counted from 1) | seals given so far -/
  seals : Nat := 0
  /-- R103 | 1 bit | 0 | WARM wait pending -/
  waitWarm : Bool := false
  /-- R166, R167 | record | empty (R156) | working furnish -/
  work : Furnish := {}
  /-- R167 | record | empty | active furnish -/
  act : Furnish := {}
  /-- R167 | record | empty | shadow furnish -/
  shad : Furnish := {}
  /-- R167 | 1 bit | 0 (R181) | the shadow holds an edit -/
  dirty : Bool := false
  /-- R183 | item names | empty (R181) | shadow changes that a press may not make, in order -/
  need : List String := []
  /-- R280 | at most 256 KiB | empty (R181) | staged writes, in arrival order -/
  staged : List Staged := []
  /-- R280 | bytes | 0 (R181) | bytes staged -/
  stagedN : Nat := 0
  /-- R193 | 1 bit | 0 | arming is refused until DECKLE REARM -/
  rearm : Bool := false
  /-- R303 | 1 bit | 0 | a customer-slice machine check occurred: STOP OFF leads to HELD MCHK -/
  mchk : Bool := false
  /-- R282 | record | R283 | thread -/
  thr : Thread := {}
  /-- R206 to R277 | record | R160 | sequencer and felts -/
  seq : Seq := {}
  /-- R375 to R387 | record | R377, R386 | results -/
  res : Results := {}
  /-- R158 | number | none | QUIRE of the latest stop -/
  lastQ : Option Nat := none
  /-- R158 | 64 bits | 0 | TB of the latest stop boundary -/
  lastTb : Nat := 0
  /-- R526 | 256 lines | empty (R528) | event queue, oldest first -/
  evq : List (EvClass × Line) := []
  /-- R527 | count | 0 (R528) | lines dropped since the previous delivery -/
  evlost : Nat := 0
  /-- R148 | 16 actions | empty (R181) | pending AT actions -/
  ats : List AtAct := []
  /-- R148 | 1 to 255 | 1 (R148) | ID of the next action -/
  atNext : Nat := 1
  /-- R135 | 32 completed entries | empty | tag and reply memory -/
  tags : List TagEntry := []
  /-- R39, R529 | 1 bit | 0 (R39) | EVENT GRANT PORT given -/
  evGrant : Bool := false
  /-- R39 | 1 bit | 0 (R39) | TRACE GRANT PORT given -/
  trGrant : Bool := false
  /-- R40 | 8 bits, with times | empty (R40) | observers the tenant granted, with the intervals during which both grants were in force -/
  obT : List Nat := []
  /-- R40 | 8 bits | empty (R40) | observers the owner enabled -/
  obO : List Nat := []
  /-- R547 | intervals | empty (R40) | per observer, begin and end ticks of the times both grants were in force -/
  obIv : List (Nat × Nat × Option Nat) := []
  /-- R552 | 1 bit | 0 (R532) | trace-port slots mapped -/
  trPort : Bool := false
  /-- R41 | ticks | none | TRACE GRANT PORT was revoked: packets stamped up to this tick still reach the port -/
  trEnd : Option Nat := none
  /-- R543 | record | R544 | trace source -/
  trace : Trace := {}
  /-- R549 | 48 counters of 4 to 64 bits | 0 (R549 at ARM) | deckle counters -/
  cnt : Tab Nat := []
  /-- R176 | slot | none | start slot -/
  startSlot : Option Nat := none
  /-- R14 | ms of wall ticks | 0 | run time in ticks -/
  runT : Nat := 0
  /-- R14 | wall ticks | 0 | when the deckle last became RUNNING -/
  runFrom : Nat := 0
  /-- R14 | steps | 0 | microengine steps run since the latest metering update -/
  used : Nat := 0
  /-- R14 | percent | 0 | step usage of the last second -/
  stepsPct : Nat := 0
  /-- R14 | ms | 0 | run time reported, updated once per second -/
  meterMs : Nat := 0
  /-- R183 | ticks, validated shadow | none | a press that waits for its boundary: tick of validation end and the shadow as validated -/
  press : Option (Nat × Furnish) := none
  /-- R160 | ticks | none | an ARM in progress: SETTLED -/
  arming : Option Nat := none
deriving DecidableEq, Repr

structure Bank where
  /-- R392, R404 | deckle or pool | pool (R404) | owner -/
  own : Option Nat := none
  /-- R405, R409, R78 | 2 bits | OFF (R78), ON once powered up | power state -/
  pow : BankPow := .off
  /-- R402 | deckle or pool | none | couch in progress, to this new owner -/
  couch : Option (Option Nat) := none
  /-- R258 | 32 bits | TS 0 (R258) | header mask -/
  tsm : Nat := 1
  /-- R258 | 48 bits | 0 (R258) | T mask -/
  tm : Nat := 0
  /-- R99 | 1 bit | 0 (R98) | withdrawn -/
  wd : Bool := false
  /-- R413 | word numbers | empty (check bits good) | words that hold a double-bit error -/
  dbe : List Nat := []
deriving DecidableEq, Repr

structure Pin where
  /-- R352, R68 | 2 bits | off (R68) | driver state -/
  drv : Drv := .off
  /-- R332 | 1 bit | off (R68) | the calender holds the driver on -/
  on : Bool := false
  /-- R354 | 1 bit | off (R68) | active load acting -/
  load : Bool := false
  /-- R357, R361 | 8 DACs and PMU settings | DESIGN CHOICE defaults of R357 (log 1) | values in effect -/
  cur : LevCfg := {}
  /-- R361 | tick, entry | empty (R68) | level queue -/
  lq : List (Nat × LevCfg) := []
  /-- R366, R367 | end tick, values after | none (R68) | range or mode dwell in progress -/
  dwell : Option (Nat × LevCfg) := none
  /-- R367, R368 | end tick, VOH and VOL after | none (R68) | comparator range dwell in progress -/
  cdwell : Option (Nat × Rat × Rat) := none
  /-- R256 | 4 bits | none (R256) | last drive code since ARM -/
  last : Option Nat := none
  /-- R365 | 1 bit | 0 | codes are treated as X because of the PMU -/
  px : Bool := false
  /-- R365 | tick | none | PMU disconnected at this tick; codes act again 5 us later -/
  recon : Option Nat := none
  /-- R369 | 1 bit | 0 | turned off by F-PIN -/
  dead : Bool := false
  /-- R345 | 1 bit | 1 (locked at start) | delay lines in lock -/
  dll : Bool := true
  /-- R370 | 1 bit | 0 | a PMU LIMIT line was sent and its clamp not yet left for 1 ms -/
  lim : Bool := false
deriving DecidableEq, Repr

structure Fe where
  /-- R99 | 1 bit | 0 (R98) | withdrawn -/
  wd : Bool := false
  /-- R371 | 1 bit | 0 | FE-WARM sent and not yet below 105 C -/
  warm : Bool := false
  /-- R371 | 1 bit | 0 | turned off at 125 C and not yet below 100 C -/
  hot : Bool := false
deriving DecidableEq, Repr

/-- R435 | which DPS clamp acts -/
inductive Clamp where | none | isrc | isnk
deriving DecidableEq, Repr

structure Dps where
  /-- R99 | 1 bit | 0 (R98) | withdrawn -/
  wd : Bool := false
  /-- R438 | 1 bit | open (R68) | force switch closed -/
  on : Bool := false
  /-- R68 | 1 bit | 100 ohm engaged (R68 in reset) | 100 ohm discharge engaged, beside the permanent 10 kohm -/
  dis100 : Bool := true
  /-- R422 | record | defaults of R422 | settings in effect -/
  cfg : DpsCfg := {}
  /-- R426 | volts | 0 V at rest (R438) | profile value r -/
  r : Rat := 0
  /-- R426 | ticks | 0 | timebase count at which r and s hold -/
  pt : Nat := 0
  /-- R426 | V/us | 0 (R438) | profile slew s -/
  sl : Rat := 0
  /-- R427 | (us, V/us2, slew step) list | empty | profile pieces still to run -/
  segs : List (Rat × Rat × Rat) := []
  /-- R426 | volts | 0 | target -/
  tgt : Rat := 0
  /-- R425 | volts, tick | none | run-time target that acts at the next control period -/
  nextT : Option Rat := none
  /-- R425 | 12 bits | FFOFS of the furnish (R422) | run-time feed-forward offset -/
  ffofs : Nat := 0
  /-- R425 | 12 bits | none | offset that acts from the next dispatched quire -/
  ffNext : Option Nat := none
  /-- R233, R425 | 12 bits | none | offset of a DPS FFOFS command that acts at the next control period -/
  ffCmd : Option Nat := none
  /-- R418, R421 | 6 binary32 | zero (R421) | observer state -/
  xh : List Nat := []
  /-- R418 | binary32 | 0 | demand u applied -/
  u : Nat := 0
  /-- R435 | binary32 | 0 | sense voltage of the last period -/
  vs : Nat := 0
  /-- R435 | binary32 | 0 | current of the last period -/
  io : Nat := 0
  /-- R435 | binary32 | 0 | change of the sense-voltage estimate over the last period -/
  slope : Nat := 0
  /-- R435 | 64 bits | 0 | start of the last period -/
  tb : Nat := 0
  /-- R435 | 2 bits | NONE | clamp acting -/
  clamp : Clamp := .none
  /-- R430 | 1 bit | 0 | learning frozen in the last period -/
  frozen : Bool := false
  /-- R430 | 1 bit | 0 | the channel is in a learn loop's mask in the last period -/
  learning : Bool := false
  /-- R430 | tick | 0 | tick at which the profile arrived -/
  arrived : Nat := 0
  /-- R434 | tick, settings after | none | range dwell in progress -/
  dwell : Option (Nat × DpsCfg) := none
  /-- R440 | 0 to 3 | 0 | consecutive periods with divergence -/
  div : Nat := 0
  /-- R440 | 1 bit | 0 | fallback regulation -/
  fb : Bool := false
  /-- R442 | 1 bit | 0 | power stage hot and not yet below 100 C -/
  hot : Bool := false
  /-- R443 | 1 bit | 0 | a CLAMP LIMIT line was sent and the clamp not yet released for 1 ms -/
  lim : Bool := false
  /-- R433, R439 | 1 bit | 0 | f is held at 0 after a deckle-scope fault -/
  f0 : Bool := false
  /-- R428 | record | none | SLEW and BEND that act once the profile is at rest -/
  late : Option (Rat × Option Rat) := none
  /-- R159 | 1 bit | 0 | STOP OFF ramp in progress -/
  ramp : Bool := false
deriving DecidableEq, Repr

/-- R453 | play states -/
inductive AuxState where | off | idle | playing | ended | frozen
deriving DecidableEq, Repr

structure Aux where
  /-- R99 | 1 bit | 0 (R98) | withdrawn -/
  wd : Bool := false
  /-- R453 | 5 states | OFF (R453) | play state -/
  st : AuxState := .off
  /-- R447 | 16 bits, two's complement | 0 (R68 DAC at 0 V) | code at the DAC, while no list plays -/
  code : Int := 0
  /-- R459, R465 | 1 bit | open (R68) | output relay closed -/
  relay : Bool := false
  /-- R460 | record | defaults of R460 | settings in effect -/
  cfg : AuxCfg := {}
  /-- R448 | 16 bits, two's complement | 0 (R68 DAC at 0 V) | code that the DAC left at the tick `prevT` -/
  prev : Int := 0
  /-- R448 | tick | 0 | latest sample tick at which a start, a new entry, an end or a span dwell changed the code -/
  prevT : Nat := 0
  /-- R450 | entry number | 0 | entry that plays -/
  ent : Nat := 0
  /-- R450 | tick | 0 | tick of the entry's first sample -/
  t0 : Nat := 0
  /-- R450 | 48 bits | 0 | accumulator at the entry's first sample -/
  acc : Nat := 0
  /-- R451 | 31 bits | 0x4000_0000 (R451) | PRBS register before the entry's first sample -/
  prbs : Nat := 0x40000000
  /-- R454 | ticks | empty | start ticks requested -/
  starts : List Nat := []
  /-- R457 | tick | none | halt tick requested -/
  halt : Option Nat := none
  /-- R455 | count | DESIGN CHOICE 0 (log 1) | MISSED -/
  missed : Nat := 0
  /-- R459 | end tick, settings after | none | span dwell in progress -/
  dwell : Option (Nat × AuxCfg) := none
deriving DecidableEq, Repr

structure AdcRec where
  /-- R479 | 64 bits | none | TB of the hold -/
  tb : Nat := 0
  /-- R479 | 10 bits | none | FINE of the hold -/
  fine : Nat := 0
  /-- R479 | 4 bits | none | ENTRY -/
  ent : Nat := 0
  /-- R479 | 5 bits | none | FLAGS -/
  flags : Nat := 0
  /-- R479 | 18 bits, signed | none | CODE -/
  code : Int := 0
  /-- R479 | value per code step | none | full scale of the entry, for decoding -/
  fs : Rat := 0
deriving DecidableEq, Repr

structure Adc where
  /-- R99 | 1 bit | 0 (R98) | withdrawn -/
  wd : Bool := false
  /-- R486 | 1 bit | IDLE (R155) | a scan runs -/
  busy : Bool := false
  /-- R473, R481 | record | defaults of R473 | fields of the scan in progress -/
  cfg : AdcCfg := {}
  /-- R476 | 4 bits | 0 (R481) | entry in progress, or in STEP mode the next entry -/
  ent : Nat := 0
  /-- R476 | 16 bits | 0 | scans completed of this start -/
  scans : Nat := 0
  /-- R476 | fine steps | 0 | instant at which the entry in progress started -/
  t0 : Nat := 0
  /-- R475 | ticks | empty | start ticks requested -/
  starts : List Nat := []
  /-- R480 | 8,192 records | empty (R481) | result store, oldest first -/
  store : List AdcRec := []
  /-- R480 | 1 bit | 0 (R481) | the next record stored carries LOST -/
  lostF : Bool := false
  /-- R486 | count | 0 (R481) | records lost -/
  lost : Nat := 0
  /-- R480 | 1 bit | 0 (R481) | FULL line sent in this run -/
  fullSent : Bool := false
  /-- R478 | count | 0 (R481) | MISSED -/
  missed : Nat := 0
  /-- R482 | entries | empty (R481) | entries whose OPEN line was sent in this run -/
  openSent : List Nat := []
  /-- R484 | 18 bits, signed | none | code of the latest conversion -/
  last : Int := 0
  /-- R484 | fine steps | none | hold instant of the latest conversion -/
  lastT : Nat := 0
  /-- R488 | 1 bit | 0 | another converter's burn-out has reached the source of the entry in progress -/
  box : Bool := false
  /-- R475 | tick | none | next TIMER start -/
  timer : Option Nat := none
deriving DecidableEq, Repr

/-- R509 | a TMU record -/
structure TmuRec where
  /-- R509 | 64 bits, signed | none | interval in fs, or frequency in uHz -/
  val : Int := 0
  /-- R509 | 48 bits | none | start tick, or gate index -/
  key : Nat := 0
  /-- R509 | 32 bits | none | M of a gate -/
  m : Nat := 0
  /-- R507 | fs | none | RMS of a gate's fit -/
  rms : Nat := 0
  /-- R509 | 5 bits | none | FLAGS -/
  flags : Nat := 0
  /-- R509 | 4 bits | none | KIND -/
  kind : Nat := 0
deriving DecidableEq, Repr

structure Tmu where
  /-- R99 | 1 bit | 0 (R98) | withdrawn -/
  wd : Bool := false
  /-- R509 | 1 bit | IDLE (R516) | a series or gate sequence runs -/
  busy : Bool := false
  /-- R493, R516 | record | defaults of R493 | fields of the series in progress -/
  cfg : TmuCfg := {}
  /-- R497 | fs | 0 | ready instant of the measurement in progress -/
  ready : Nat := 0
  /-- R497 | fs | none | start stamp taken -/
  startS : Option Nat := none
  /-- R498 | count | 0 (R516) | measurements of the series that have ended -/
  ended : Nat := 0
  /-- R505 | count | 0 (R496) | DONE -/
  done : Nat := 0
  /-- R509 | count | 0 (R496) | TIMEOUTS -/
  tos : Nat := 0
  /-- R505 | exact integer fs | 0 (R496) | sum of x -/
  sx : Nat := 0
  /-- R505 | exact integer fs2 | 0 (R496) | sum of x squared -/
  sxx : Nat := 0
  /-- R505 | fs | none (R496) | minimum -/
  mn : Option Nat := none
  /-- R505 | fs | none (R496) | maximum -/
  mx : Option Nat := none
  /-- R506 | gate number | 0 (R516) | gate in progress -/
  gate : Nat := 0
  /-- R506 | (k, t) pairs | empty | stamps of the gate in progress -/
  stamps : List (Nat × Nat) := []
  /-- R506 | fs | none | latest stamp of the gate sequence -/
  stampT : Option Nat := none
  /-- R508 | 1 bit | 0 | the gate before reported NONE -/
  prevNone : Bool := false
  /-- R510 | 504 records | empty (R516) | unread records, oldest first -/
  recs : List TmuRec := []
  /-- R509 | 0 to 503 | 0 (R516) | WRITE -/
  wr : Nat := 0
  /-- R510 | 1 bit | 0 (R516) | the next record stored carries LOST -/
  lostF : Bool := false
  /-- R514 | count | 0 (R516) | records lost -/
  lost : Nat := 0
  /-- R510 | 1 bit | 0 (R516) | FULL line sent in this run -/
  fullSent : Bool := false
  /-- R498 | 1 bit | 0 (R516) | TIMEOUT line sent in this run -/
  toSent : Bool := false
  /-- R495 | count | 0 (R516) | MISSED -/
  missed : Nat := 0
  /-- R504 | 1 bit | 1 (locked at start) | interpolator loops in lock -/
  lock : Bool := true
  /-- R503 | consecutive edges per channel A, B | 0 | checked edges in a row with |d| above 40 ps -/
  dis : Nat × Nat := (0, 0)
  /-- R503 | fs, latest 4,096 per channel A, B | empty | d of the latest checked edges -/
  dA : List Int := []
  /-- R503 | fs, latest 4,096 | empty | d of channel B -/
  dB : List Int := []
  /-- R512 | 2 bits | 0 | WARM clear, and holdover, seen since the first stamp -/
  notwarm : Bool := false
  /-- R512 | 1 bit | 0 | holdover seen since the first stamp -/
  held : Bool := false
  /-- R514 | 1 bit | 0 | HALT requested: ends at the current measurement or gate -/
  halting : Bool := false
deriving DecidableEq, Repr

/-- R28, R29 | SEAL mode of a session -/
structure Seal where
  /-- R28 | 256 bits | none | session key S -/
  key : Nat := 0
  /-- R29 | 64 bits | 0 (at MODE SEAL) | host line counter -/
  qh : Nat := 0
  /-- R30 | 64 bits | 0 (at MODE SEAL) | module line counter -/
  qm : Nat := 0
  /-- R29 | 0 to 2 | 0 | consecutive discarded lines -/
  bad : Nat := 0
deriving DecidableEq, Repr

/-- R123, R126 | a line's place in the order of replies, with its reply once it is known -/
structure Slot where
  /-- R126 | model's number | none | identity of the place -/
  id : Nat := 0
  /-- R146 | 64 bits | 0 | timebase at the arrival of the line's terminator -/
  tb : Nat := 0
  /-- R23 | wall tick | 0 | when the line's terminator arrived -/
  rx : Nat := 0
  /-- R125 | count | 0 | number of the line in the order of arrival over all lines -/
  seq : Nat := 0
  /-- R152 | bytes | 0 | bytes that the line takes in the input buffer -/
  bytes : Nat := 0
  /-- R29, R118 | 1 bit | 0 | the line arrived in SEAL mode, with its suffix -/
  sealed : Bool := false
  /-- R29, R145 | 1 bit | 0 | a line of its block was discarded for its MAC -/
  lost : Bool := false
  /-- R126 | lines | none | reply, absent while the command executes -/
  reply : Option (List Line × Line) := none
deriving DecidableEq, Repr

structure LineSt where
  /-- R112 | 1 bit | no session (R112) | a session exists -/
  up : Bool := false
  /-- R24, R115 | role | Anonymous (R112) | role -/
  role : Role := .anon
  /-- R129, R115 | 1 bit | typed (R129) | machine mode -/
  machine : Bool := false
  /-- R129, R115 | 1 bit | on (R129) | echo -/
  echo : Bool := true
  /-- R129, R115 | 1 bit | off (R129) | XON/XOFF -/
  xon : Bool := false
  /-- R113 | 60 to 86,400 s | 3,600 s (R113) | idle time -/
  idle : Nat := 3600
  /-- R133, R115 | baud | 115,200 (R115) | CON baud rate -/
  baud : Nat := 115200
  /-- R133 | baud, wall tick | none | rate that waits for the 20 ms after the last stop bit of its reply, at this tick -/
  baudNext : Option (Nat × Nat) := none
  /-- R28 | record | none (R115) | SEAL mode -/
  sm : Option Seal := none
  /-- R22 | nonce, target byte, wall tick | none | login challenge outstanding -/
  chal : Option (Nat × Nat × Nat) := none
  /-- R16, R28 | nonce | none | nonce N of the current session's login -/
  nonce : Option Nat := none
  /-- R18 | 1 bit | 0 | the tenant logged in with a provisional key -/
  prov : Bool := false
  /-- R23 | outcome, wall tick | none | LOGIN RESP received: whether it was right, target, and when -/
  resp : Option (Bool × Nat × Nat × Nat) := none
  /-- R132 | 1 bit | 0 | output paused by XOFF -/
  paused : Bool := false
  /-- R113 | wall ticks | 0 | when the last line was received -/
  rxT : Nat := 0
  /-- R129, R131, R152 | bytes | empty | partial line, in the input buffer -/
  part : List Nat := []
  /-- R116 | wall tick | none | when the last line ended with CR -/
  crT : Option Nat := none
  /-- R132 | 1 bit | 0 | XOFF was sent and XON not yet -/
  xoff : Bool := false
  /-- R123 | places | empty | replies outstanding, in the order their lines arrived -/
  slots : List Slot := []
  /-- R123 | commands | empty | lines received and not yet started, each with its place -/
  held : List (Nat × Instr) := []
  /-- R135 | 32 entries | empty | tag memory of an Anonymous or observer session -/
  tags : List TagEntry := []
  /-- R143, R144 | 1 bit | 0 | lines are discarded up to the next END line -/
  skip : Bool := false
  /-- R123 | count | 1 | the place that the next line received takes -/
  nslot : Nat := 1
  /-- R132 | lines and prompts | empty | what waits while output is paused, with whether a line end follows -/
  outw : List (Line × Bool) := []
  /-- R126 | lines | empty | lines the module has sent on the line, oldest first -/
  tx : List Sent := []
deriving DecidableEq, Repr

/-- What a command whose reply comes later waits for -/
inductive JobKind where
  | arm (d : Nat) | couch (d : Nat) (text : Line) | zero (d : Nat) (text : Line) | press (d : Nat) | stop (d : Nat) | stopOff (d : Nat)
  | pace (p : Pace) | ref (s : RefSrc) (chain : Bool) | cal | save (d n : Nat) | image (text : Line) | deskew (d : Nat) (chs : List Nat)
  | play (d n : Nat) (t : Option Nat) | bankZero (d : Nat) (banks : List Nat) | release (text : Line) | login (line : Nat)
  | dup (mem : TagMem) (tag : List Nat)
deriving DecidableEq, Repr

structure Job where
  /-- R123 | kind | none | what the command waits for -/
  kind : JobKind := .cal
  /-- R123 | line | none | line that gets the reply -/
  line : Nat := 0
  /-- R126 | place | none | place in the order of replies; 0 with no session left (R114) -/
  slot : Nat := 0
  /-- R137 | tag and memory | none | where the reply is stored -/
  tag : Option (TagMem × List Nat) := none
  /-- R148, R235 | deckle, ID, tick | none | the AT action this reply belongs to -/
  atId : Option (Nat × Nat × Nat) := none
  /-- R149 | nanoseconds | none | lateness of an AT ... LATE=NOW -/
  late : Option Int := none
deriving DecidableEq, Repr

/-- R88 | self-test verdicts -/
inductive Verdict where | pass | fail | untested | notrun
deriving DecidableEq, Repr

/-- R306 | a stored container: what its header says and whether its checks pass -/
structure Image where
  /-- R306 | 0 to 64 | none | RBI -/
  rbi : Nat := 0
  /-- R306 | 3 x 16 bits | none | VERSION -/
  ver : Nat × Nat × Nat := (0, 0, 0)
  /-- R306 | 1 to 255 | 0 | SEQ of a patch -/
  seq : Nat := 0
  /-- R83, R84 | 1 bit | none | its signature (and the GCM tag of a patch) verifies -/
  good : Bool := true
  /-- R306 | 1 to 4,096 | DESIGN CHOICE 0 (log 2) | RECORDS -/
  nrec : Nat := 0
  /-- R306 | 8 to 4,194,304 bytes | DESIGN CHOICE none (log 2) | payload, a patch's as it decrypts -/
  plain : List Nat := []
deriving DecidableEq, Repr

/-- R17 to R19 | a key in secure storage -/
structure Key where
  /-- R10 | 256 bits | none | key -/
  k : Nat := 0
  /-- R18 | 1 bit | 0 | provisional -/
  prov : Bool := false
  /-- R19 | 64 bits | none | KEYSET -/
  setAt : Nat := 0
deriving DecidableEq, Repr

structure FSlot where
  /-- R176 | deckle | none | deckle that holds the slot -/
  own : Nat := 0
  /-- R176 | record | none | furnish saved -/
  f : Furnish := {}
  /-- R176 | bytes | none | images of the granted banks, by vat address -/
  img : Mem := []
  /-- R176, R166 | bytes | none | micro slice image -/
  mi : Mem := []
  /-- R176, R166 | bytes | none | nano slice image -/
  na : Mem := []
  /-- R258 | masks | none | header and T masks of the saved banks -/
  masks : List (Nat × Nat × Nat) := []
  /-- R176 | number | none | seal number -/
  sealN : Nat := 0
  /-- R171, R176 | 32 bits | none | CRC of the furnish -/
  crc : Nat := 0
  /-- R177 | 1 bit | none | the slot's own CRC is good -/
  ok : Bool := false
  /-- R588 | MiB | none | MiB of bank images -/
  mib : Nat := 0
deriving DecidableEq, Repr

/-- Non-volatile storage of the module -/
structure Nv where
  /-- R3, R579 | 1 bit | DESIGN CHOICE O (log 2) | order variant -/
  variant : Variant := .o
  /-- R111, R579 | 64 bits | DESIGN CHOICE 0 (log 2) | serial number -/
  serial : Nat := 0
  /-- R43 | P-256 private key | DESIGN CHOICE 0 (log 2) | device key, which never leaves secure storage -/
  devKey : Nat := 0
  /-- R10, R11 | key | none: unowned (log 2) | owner key -/
  owner : Option Key := none
  /-- R10 | 8 keys | none (log 2) | observer keys -/
  obs : Tab Key := []
  /-- R10, R17 | 8 keys | none (log 2) | deckle keys -/
  dk : Tab Key := []
  /-- R26 | per target: failures, end of lockout in wall ticks | 0 (log 2) | lockouts -/
  lock : Tab (Nat × Nat) := []
  /-- R83 | container | DESIGN CHOICE a good image of index 0 (log 2) | firmware slot A -/
  fwA : Option Image := some {}
  /-- R83 | container | DESIGN CHOICE none (log 2) | firmware slot B -/
  fwB : Option Image := none
  /-- R84 | container | DESIGN CHOICE a good image of index 0 (log 2) | vendor microcode -/
  uc : Image := {}
  /-- R84, R306 | 16 containers | DESIGN CHOICE none (log 2) | patch slots -/
  patches : Tab Image := []
  /-- R87 | 0 to 64 | 0 (log 2) | anti-rollback counter -/
  arb : Nat := 0
  /-- R551 | 32 bits | 0 (log 2) | starts since manufacture -/
  starts : Nat := 0
  /-- R196 | 2 bits | NOMINAL (R196) | pace setting -/
  pace : Pace := .nominal
  /-- R226 | 2 bits | INT (R226, by variant) | reference selection -/
  sel : RefSrc := RefSrc.byDefault variant
  /-- R240 | 2 bits | OFF (R240) | chain role: 0 OFF, 1 MASTER, 2 SLAVE -/
  chain : Nat := 0
  /-- R176 | 16 slots | empty (log 2) | furnish slots -/
  slots : Tab FSlot := []
  /-- R178 | slot, wall tick | empty | slots being erased -/
  erasing : Tab Nat := []
deriving DecidableEq, Repr

/-- R88 | what the items of a self-test found -/
structure StItem where
  /-- R88 | name | none | item name -/
  name : String := ""
  /-- R91 | verdict | none | verdict -/
  v : Verdict := .notrun
  /-- R88 | unit names | none | units that failed -/
  units : List String := []
  /-- R89 | unit names | none | units left UNTESTED -/
  unt : List String := []
deriving DecidableEq, Repr

structure ModSt where
  /-- R80 | 11 states | POWER-ON (R80) | module state -/
  st : ModState := .powerOn
  /-- R81 | 1 bit | 0 (R81) | SAFE latch -/
  latch : Bool := false
  /-- R94 | fault mnemonic | none | cause of SAFE or DEGRADED-PENDING -/
  cause : String := ""
  /-- R81, R94 | fault mnemonic | none | fault that set the SAFE latch -/
  latchCause : String := ""
  /-- R586 | mnemonic | none | fault met in POWER-ON or BOOT, acted on when the firmware starts -/
  early : Option String := none
  /-- R67 | 1 bit | high | RESET-N held low -/
  resetLow : Bool := false
  /-- R62 | 1 bit | 1 (log 2) | input power present -/
  power : Bool := true
  /-- R62, R68 | wall tick | none | power lost at this tick, hold-up in progress -/
  holdUp : Option Nat := none
  /-- R106 | 1 bit | 0 | no firmware slot verified: F-BOOT -/
  fboot : Bool := false
  /-- R106, R68 | 1 bit | high impedance (R68) | TXD driven -/
  txd : Bool := false
  /-- R68, R79 | 1 bit | none (R68) | USB D+ pull-up applied -/
  usb : Bool := false
  /-- R83 | 1 bit | A | firmware slot B runs -/
  slotB : Bool := false
  /-- R83 | record | index 0 (log 2) | the firmware image that runs -/
  runFw : Image := {}
  /-- R84, R586 | record | index 0 (log 2) | the microcode container of this start -/
  runMc : Image := {}
  /-- R85 | 0 to 255 | 0 (R586) | patch level applied -/
  pl : Nat := 0
  /-- R91 | 10 items | NOTRUN (R91) | self-test report -/
  report : List StItem := []
  /-- R99 | unit names | empty (R98) | withdrawn units -/
  withdrawn : List String := []
  /-- R45 | 1 bit | 0 | SECSTORE has failed since power came -/
  secFail : Bool := false
  /-- R79, R21 | wall tick | none | end of SELF-TEST or of the start -/
  endT : Option Nat := none
  /-- R21 | 1 bit | closed | OWNER CLEAR window open -/
  clearWin : Bool := false
  /-- R87 | 1 bit | 0 | anti-rollback already advanced at this start -/
  advanced : Bool := false
  /-- R222 | 1 bit | 0 (cold at power-up) | oven has reached its 10 ppb point -/
  oven : Bool := false
  /-- R223, R4 | 1 bit | 0 (R4, R223) | WARM -/
  warm : Bool := false
  /-- R63 | 1 bit | low (R68) | KEEPER runs -/
  keeper : Bool := false
  /-- R63 | tick | 0 | first rising edge of KEEPER -/
  keeperT : Nat := 0
  /-- R304 | 1 bit | 0 | vendor region being reloaded -/
  reload : Bool := false
  /-- R80, R86 | 8,192 x 32 bits | DESIGN CHOICE 0 (log 104) | retention copy of the vendor micro region, 4 bytes per word -/
  keepU : Mem := []
  /-- R80, R86 | 2,048 x 128 bits | DESIGN CHOICE 0 (log 104) | retention copy of the vendor nano region, 16 bytes per word -/
  keepN : Mem := []
  /-- R282, R292 | thread | DESIGN CHOICE 0 (log 105) | the service thread -/
  svc : Thread := {}
  /-- R304 | AT actions | empty | actions that fell due during a reload: deckle and ID -/
  deferred : List (Nat × Nat) := []
  /-- R308 | kind (0 firmware, 1 microcode, 2 patch), slot, container | none | images being written to flash, oldest first -/
  storing : List (Nat × Nat × Image) := []
  /-- R295 STEW | words | empty | steward mailbox: vendor argument and MDR -/
  mailbox : List (Nat × Nat) := []
  /-- R549 to R551 | 16 counters | 0 | module counters as last updated -/
  cnt : Tab Int := []
  /-- R551 | wall tick | none | latest module counter update -/
  cntT : Option Nat := none
  /-- R551 | 16 bits | 0 (R551 since the start) | losses of the active reference -/
  refLoss : Nat := 0
  /-- R551 | 16 bits | 0 (R551) | switches of the active reference -/
  refSwitch : Nat := 0
  /-- R551 | 16 bits | 0 | heartbeat losses -/
  chainLoss : Nat := 0
  /-- R551 | 16 bits | 0 | vendor-region reloads -/
  vreload : Nat := 0
deriving DecidableEq, Repr

/-- R225 | LOCK -/
inductive Lock where | unlocked | locked | holdover | held
deriving DecidableEq, Repr

structure Ref where
  /-- R217 | 64 bits | 0 (R217) | timebase count -/
  tb : Nat := 0
  /-- R217, R232 | 1 bit | 0 (R217) | the timebase counts -/
  run : Bool := false
  /-- R225 | source | NONE (R225) | source the loop is or was last locked to -/
  active : Option RefSrc := none
  /-- R225 | 4 states | not locked (R217) | loop state -/
  lock : Lock := .unlocked
  /-- R227 | source | none | source the loop is moving to -/
  moving : Option RefSrc := none
  /-- R221 | 4 classes | NONE (R221) | REF-IN class -/
  cls : RefIn := .none
  /-- R221 | 1 bit | 0 (R221) | REF-IN usable -/
  usable : Bool := false
  /-- R231 | 1 bit | 0 | holdover follows a loss, not a switch -/
  loss : Bool := false
  /-- R232 | wall tick | none | when the holdover began -/
  hoT : Option Nat := none
deriving DecidableEq, Repr

structure Chain where
  /-- R249 | 3 bits | 0 | HOP -/
  hop : Nat := 0
  /-- R245 | 1 bit | NO (R245) | calibrated -/
  cal : Bool := false
  /-- R249 | 1 bit | LOST | heartbeats arrive -/
  hb : Bool := false
  /-- R241, R243 | 0 to 2 | 0 | consecutive valid heartbeats since lock or loss -/
  good : Nat := 0
  /-- R243 | 1 bit | 0 | the timebase has been loaded since power-on -/
  loaded : Bool := false
  /-- R243 | 1 bit | 0 | the valid frame before this one agreed with the count -/
  agree : Bool := false
  /-- R239, R248 | frames | empty | frames that wait for their place on J4, earliest first -/
  due : List Frame := []
  /-- R244 | fine steps | 0 | cumulative delay calibrated -/
  delay : Nat := 0
  /-- R243 | count that the chain gives, minus the slave's own | none | load deferred until no deckle is ARMED or RUNNING -/
  defer : Option Int := none
  /-- R246 | groups with their source | empty (R246) | chain groups that are ON -/
  groups : Tab Trig := []
  /-- R239, R72 | frames | empty | frames sent on J4, latest first -/
  sent : List Frame := []
  /-- R239 | tick | none | when the master sent its latest frame -/
  sentT : Option Nat := none
  /-- R72 | 1 bit | off (R68) | J4 lanes driven -/
  j4 : Bool := false
deriving DecidableEq, Repr

/-- R200 to R204 | pace and its monitor -/
structure PaceSt where
  /-- R196 | 2 bits | the stored setting | pace the core voltage has reached -/
  now : Pace := .nominal
  /-- R196 | 2 bits | none | pace the voltage moves to -/
  next : Option Pace := none
  /-- R196 | pace | none | slowest setting that a further change has replaced while the voltage moves -/
  low : Option Pace := none
  /-- R201 | twentieths | 1.00 (R201) | derating factor d, in steps of 0.05 -/
  d20 : Nat := 20
  /-- R199, R38 | percent | NONE (R199) | ratio M last reported -/
  rep : Option Nat := none
  /-- R199 | windows | 0 | complete windows since M was last reported, or since the timebase first counted -/
  wins : Nat := 0
  /-- R199 | wall tick | none | when M was last reported, or the timebase first counted -/
  repT : Option Nat := none
  /-- R201 | list of d values | empty | twentieths of the windows of the last 10 s that lie above d, as their lowest value and count -/
  hi : Nat × Nat := (0, 0)
  /-- R203 | 1 bit | 0 | the next window is the first after a pace change and is not complete -/
  skip : Bool := false
deriving DecidableEq, Repr

/-- R529 | the source a physical line follows -/
inductive MapSrc where | deckle (d : Nat) | modl
deriving DecidableEq, Repr

structure EvtSt where
  /-- R529 | source | none | mapping -/
  src : Option MapSrc := none
  /-- R529 | classes | none | classes mapped -/
  cls : List EvClass := []
  /-- R529 | 1 bit | PULSE (R529) | HOLD mode -/
  hold : Bool := false
  /-- R530 | 1 bit | released (R68) | line asserted low -/
  low : Bool := false
  /-- R530 | 1 bit | 0 | the assertion in progress is a pulse -/
  pulse : Bool := false
  /-- R530 | wall tick | none | end of the latest pulse -/
  relT : Option Nat := none
deriving DecidableEq, Repr

/-- R529 to R532, R388, R458 | physical lines and their mappings -/
structure Phys where
  /-- R529, R530 | 4 lines | released (R68) | EVT0 to EVT3 -/
  evt : Tab EvtSt := []
  /-- R531 | 4 lines: deckle, mark | none | TRIG-OUT mappings -/
  tout : Tab (Nat × Nat) := []
  /-- R531 | 4 lines: fine steps of rises | none, low (R68) | TRIG-OUT pulses not yet over -/
  toUp : Tab (List Nat) := []
  /-- R388 | deckle | none | FAIL-OUT mapping -/
  fo : Option Nat := none
  /-- R389 | deckle or none | none | FAIL-OUT mapping that waits for a quire boundary -/
  foNext : Option (Option Nat) := none
  /-- R388 | fine steps of rises | none, low (R68) | FAIL-OUT pulses not yet over -/
  foUp : List Nat := []
  /-- R458 | 2 lines: deckle | none | MK mappings -/
  mkm : Tab Nat := []
  /-- R458 | 2 lines: ticks of rises | none, low (R68) | MK pulses not yet over -/
  mkUp : Tab (List Nat) := []
  /-- R538 | 16-byte slots | empty | slot last sent on the trace port: deckle and bytes -/
  slot : Option (Nat × List Nat) := none
  /-- R68, R79 | 1 bit | high impedance (R68) | trace port active -/
  port : Bool := false
deriving DecidableEq, Repr

/-- The owner's own memories -/
structure OwnerSt where
  /-- R526 | 64 lines | empty (R528) | owner event queue -/
  q : List (EvClass × Line) := []
  /-- R527 | count | 0 | owner lines dropped -/
  lost : Nat := 0
  /-- R135 | 32 entries | empty | owner tag memory -/
  tags : List TagEntry := []
deriving DecidableEq, Repr

/-- The machine. -/
structure State where
  /-- MODEL (log 3) | wall ticks of 800 ps | 0 | elapsed time, whatever the reference does -/
  wall : Nat := 0
  /-- MODEL (prompt) | queue of commands | empty | commands waiting, first in first out -/
  pending : List Instr := []
  /-- MODEL (log 5) | counter | DESIGN CHOICE 0 (log 5) | free values drawn so far -/
  free : Nat := 0
  /-- R125 | count | 0 | lines that have arrived so far -/
  arrN : Nat := 0
  /-- MODEL (log 3) | place | none | place in the order of replies of a held line that step starts -/
  resume : Option Nat := none
  /-- R80 to R107 | record | see its fields | the module -/
  md : ModSt := {}
  /-- R165, R196, R226 | record | see its fields | non-volatile storage -/
  nv : Nv := {}
  /-- R217 to R232 | record | see its fields | timebase and references -/
  rf : Ref := {}
  /-- R239 to R249 | record | see its fields | chain -/
  ch : Chain := {}
  /-- R194 to R204 | record | see its fields | pace -/
  pc : PaceSt := {}
  /-- R108 | 10 lines | no session (R112) | lines: 0 CON, 1 + n USBn -/
  ln : Tab LineSt := []
  /-- R123 | list | empty | commands executing, whose replies come later -/
  jobs : List Job := []
  /-- R526, R135 | record | see its fields | owner memories -/
  ow : OwnerSt := {}
  /-- R155 | 8 deckles | CLOSED (log 2) | deckles -/
  dk : Tab Deckle := []
  /-- R392 | 64 banks | pool, ON (R409) | vat banks -/
  bk : Tab Bank := []
  /-- R392, R394 | 64 MiB | zero (R78) | vat contents; bank b at b * 2^20 -/
  vat : Mem := []
  /-- R286, R392 | 8 x 32 KiB | zero (R31) | thread pads; pad d at d * 2^15 -/
  tpad : Mem := []
  /-- R410, R431 | 128 KiB | zero (R431) | control-engine pad; window n at n * 2^15 -/
  cep : Mem := []
  /-- R411, R509 | 32 KiB | zero (R516) | measurement pad; window n at n * 2^13 -/
  mpad : Mem := []
  /-- R286 | 16,384 x 32 bits | customer slices zero (R31), vendor region DESIGN CHOICE 0 (log 104) | micro store, 4 bytes per word -/
  ust : Mem := []
  /-- R286 | 4,096 x 128 bits | customer slices zero (R31), vendor region DESIGN CHOICE 0 (log 104) | nano store, 16 bytes per word -/
  nst : Mem := []
  /-- R286, R287 | 16,384 x 1 bit | 0, as for zero words (R287) | parity bits of the micro store, a byte per word -/
  upar : Mem := []
  /-- R286, R287 | 4,096 x 2 bits | 0, as for zero words (R287) | parity bits of the nano store, a byte per word: P0 + 2 P1 -/
  npar : Mem := []
  /-- R352 | 48 channels | off (R68) | pin front ends -/
  pin : Tab Pin := []
  /-- R371 | 6 dies | cool | front-end dies -/
  fe : Tab Fe := []
  /-- R415 | 4 channels | off, 100 ohm (R68) | DUT power supplies -/
  dps : Tab Dps := []
  /-- R445 | 2 channels | OFF (R453) | stimulus generators -/
  aux : Tab Aux := []
  /-- R470 | 8 converters | idle (R155) | converters -/
  adc : Tab Adc := []
  /-- R489 | 4 units | idle (R155) | time-measurement units -/
  tmu : Tab Tmu := []
  /-- R529 | record | released and low (R68) | physical lines -/
  ph : Phys := {}
deriving DecidableEq, Repr

/-- What stops the machine. -/
inductive Fault where
  /-- Raised by no command: every fault of the module is an effect that a command has (R518 to R522), so no step stops
  with it. Safe: a stop proves nothing. -/
  | none
deriving DecidableEq, Repr

/-- Why a command has no meaning. -/
inductive Refusal where
  /-- Raised only in the dispatch of a command whose meaning is not written yet. Safe: a stop proves nothing. -/
  | notModelled (mnemonic : String)
deriving DecidableEq, Repr

/-- R68, R77, R80, R586 | The module when its input power has just risen: POWER-ON, every field at its reset value. The
choices that the spec leaves open are those of the logs 1 and 2. -/
def State.reset : State := {}

end Sys2Proof.Machine
end

