-- ==== Sys2Proof/Machine/Ops.lean ====
section
/-! DEFINITION. Named operations over tables, memory, time and the parts of the state. -/

namespace Sys2Proof.Machine

abbrev Out := Host.Outcome State Fault Refusal

/-! ### Tables -/

/-- The value a table lists for a number, if any. -/
def tget? (t : Tab α) (i : Nat) : Option α := (t.find? (fun e => e.1 == i)).map (fun e => e.2)

/-- The value of a number in a table; `d` where the table lists none. -/
def tget (t : Tab α) (i : Nat) (d : α) : α := (tget? t i).getD d

/-- A table with the value of one number replaced; numbers stay ascending. -/
def tset : Tab α → Nat → α → Tab α
  | [], i, v => [(i, v)]
  | (j, w) :: r, i, v => if i < j then (i, v) :: (j, w) :: r else if i = j then (i, v) :: r else (j, w) :: tset r i v

/-- A table without one number. -/
def tdel (t : Tab α) (i : Nat) : Tab α := t.filter (fun e => e.1 != i)

/-- Every listed value changed by a function. -/
def tmap (t : Tab α) (f : α → α) : Tab α := t.map (fun e => (e.1, f e.2))

/-- The numbers a table lists. -/
def tkeys (t : Tab α) : List Nat := t.map (fun e => e.1)

/-! ### Memory: bytes by address, unlisted bytes zero (R78) -/

/-- The byte at an address. -/
def mget (m : Mem) (a : Nat) : BitVec 8 := ((m.find? (fun c => c.1 == a)).map (fun c => c.2)).getD 0

/-- `n` bytes from an address up. -/
def mgets (m : Mem) (a n : Nat) : List (BitVec 8) := (List.range n).map (fun i => mget m (a + i))

/-- The cells that a list of bytes written at an address lists. -/
def cells : Nat → List (BitVec 8) → Mem
  | _, [] => []
  | a, b :: r => if b = 0 then cells (a + 1) r else (a, b) :: cells (a + 1) r

/-- Memory with bytes written from an address up. -/
def mput (m : Mem) (a : Nat) (bs : List (BitVec 8)) : Mem :=
  m.filter (fun c => c.1 < a) ++ cells a bs ++ m.filter (fun c => a + bs.length ≤ c.1)

/-- Memory with `n` bytes from an address up zeroed. -/
def mzero (m : Mem) (a n : Nat) : Mem := m.filter (fun c => c.1 < a ∨ a + n ≤ c.1)

/-- The cells of `n` bytes from `a` up, moved to begin at `b`. -/
def mslice (m : Mem) (a n b : Nat) : Mem :=
  (m.filter (fun c => a ≤ c.1 ∧ c.1 < a + n)).map (fun c => (c.1 - a + b, c.2))

/-- Whether a memory lists strictly rising addresses and no zero byte. -/
def mok : Mem → Bool
  | [] => true
  | [c] => c.2 != 0
  | c :: d :: r => c.2 != 0 && decide (c.1 < d.1) && mok (d :: r)

/-- Memory whose `n` bytes from `b` up are those of `src` from `a` up: its cells moved, or byte by byte where `src` is not in
canonical form. -/
def mcopy (m : Mem) (src : Mem) (a n b : Nat) : Mem :=
  if mok src then m.filter (fun c => c.1 < b) ++ mslice src a n b ++ m.filter (fun c => b + n ≤ c.1)
  else mput m b (mgets src a n)

/-- R394 | the number that `n` bytes from an address up hold, least significant byte first. -/
def mnum (m : Mem) (a n : Nat) : Nat := (mgets m a n).foldr (fun b acc => b.toNat + 256 * acc) 0

/-- R394 | the `n` bytes of a number, least significant first. -/
def leBytes (n v : Nat) : List (BitVec 8) := (List.range n).map (fun i => BitVec.ofNat 8 (v / 256 ^ i))

/-- The number that a list of bytes holds, least significant first. -/
def leNum (l : List (BitVec 8)) : Nat := l.foldr (fun b acc => b.toNat + 256 * acc) 0

/-- Memory with the `n` bytes of a number written at an address. -/
def mputNum (m : Mem) (a n v : Nat) : Mem := mput m a (leBytes n v)

/-- The canonical form of a memory: addresses strictly rising, no byte listed that an unlisted address reads as. -/
abbrev Memory.wf (m : Mem) : Prop := m.Pairwise (fun a b => a.1 < b.1) ∧ ∀ c ∈ m, c.2 ≠ 0

/-! ### Time (log 3) -/

/-- Time passes: wall time always, the timebase while it counts (R217, R218, R232). -/
def advance (s : State) (dt : Nat) : State :=
  { s with wall := s.wall + dt, rf := if s.rf.run then { s.rf with tb := (s.rf.tb + dt) % 2 ^ 64 } else s.rf }

/-- R217 | the timebase. -/
abbrev now (s : State) : Nat := s.rf.tb

/-- The first multiple of `g` at or after `t`. -/
def ceilTo (t g : Nat) : Nat := (t + g - 1) / g * g

/-- R219 | the latest multiple of 1,250 ticks that the timebase has reached: the level tick and the start of a control period -/
def gridTick (s : State) : Nat := now s / 1250 * 1250

/-- R388, R458, R531 | of the rises of pulses of a width those whose pulse is not over at an instant -/
def pulsesLeft (w n : Nat) (l : List Nat) : List Nat := l.filter (fun r => n < r + w)

/-- R458, R531 | the same for one line of a table -/
def lineLeft (w n : Nat) (t : Tab (List Nat)) (i : Nat) : Tab (List Nat) :=
  match tget? t i with | some l => tset t i (pulsesLeft w n l) | none => t

/-- A free value is drawn: the counter that the opaque constants are applied to advances (log 5). -/
def draw (s : State) : Nat × State := (s.free, { s with free := s.free + 1 })

/-! ### Parts of the state -/

def getDk (s : State) (d : Nat) : Deckle := tget s.dk d {}
def setDk (s : State) (d : Nat) (x : Deckle) : State := { s with dk := tset s.dk d x }
def modDk (s : State) (d : Nat) (f : Deckle → Deckle) : State := setDk s d (f (getDk s d))
def getLn (s : State) (l : Nat) : LineSt := tget s.ln l {}
def setLn (s : State) (l : Nat) (x : LineSt) : State := { s with ln := tset s.ln l x }
def modLn (s : State) (l : Nat) (f : LineSt → LineSt) : State := setLn s l (f (getLn s l))
def getBk (s : State) (b : Nat) : Bank := tget s.bk b {}
def setBk (s : State) (b : Nat) (x : Bank) : State := { s with bk := tset s.bk b x }
def modBk (s : State) (b : Nat) (f : Bank → Bank) : State := setBk s b (f (getBk s b))
def getPin (s : State) (c : Nat) : Pin := tget s.pin c {}
def setPin (s : State) (c : Nat) (x : Pin) : State := { s with pin := tset s.pin c x }
def modPin (s : State) (c : Nat) (f : Pin → Pin) : State := setPin s c (f (getPin s c))
def getFe (s : State) (c : Nat) : Fe := tget s.fe c {}
def modFe (s : State) (c : Nat) (f : Fe → Fe) : State := { s with fe := tset s.fe c (f (getFe s c)) }
def getDps (s : State) (n : Nat) : Dps := tget s.dps n {}
def setDps (s : State) (n : Nat) (x : Dps) : State := { s with dps := tset s.dps n x }
def modDps (s : State) (n : Nat) (f : Dps → Dps) : State := setDps s n (f (getDps s n))
def getAux (s : State) (n : Nat) : Aux := tget s.aux n {}
def setAux (s : State) (n : Nat) (x : Aux) : State := { s with aux := tset s.aux n x }
def modAux (s : State) (n : Nat) (f : Aux → Aux) : State := setAux s n (f (getAux s n))
def getAdc (s : State) (n : Nat) : Adc := tget s.adc n {}
def setAdc (s : State) (n : Nat) (x : Adc) : State := { s with adc := tset s.adc n x }
def modAdc (s : State) (n : Nat) (f : Adc → Adc) : State := setAdc s n (f (getAdc s n))
def getTmu (s : State) (n : Nat) : Tmu := tget s.tmu n {}
def setTmu (s : State) (n : Nat) (x : Tmu) : State := { s with tmu := tset s.tmu n x }
def modTmu (s : State) (n : Nat) (f : Tmu → Tmu) : State := setTmu s n (f (getTmu s n))
def getEvt (s : State) (n : Nat) : EvtSt := tget s.ph.evt n {}
def modEvt (s : State) (n : Nat) (f : EvtSt → EvtSt) : State := { s with ph := { s.ph with evt := tset s.ph.evt n (f (getEvt s n)) } }
def modThr (s : State) (d : Nat) (f : Thread → Thread) : State := modDk s d (fun k => { k with thr := f k.thr })
def modSeq (s : State) (d : Nat) (f : Seq → Seq) : State := modDk s d (fun k => { k with seq := f k.seq })
def modRes (s : State) (d : Nat) (f : Results → Results) : State := modDk s d (fun k => { k with res := f k.res })

/-- Apply an update for each number of a list, in order. -/
def forEach (l : List α) (s : State) (f : State → α → State) : State := l.foldl f s

/-- The numbers of the deckles, D0 to D7. -/
def deckles : List Nat := [0, 1, 2, 3, 4, 5, 6, 7]

/-- The numbers of the lines, CON and USB0 to USB8 (R108). -/
def lineNos : List Nat := [0, 1, 2, 3, 4, 5, 6, 7, 8, 9]

/-- R155 | ARMED, RUNNING, STOPPED. -/
def DkState.live : DkState → Bool
  | .armed | .running | .stopped => true
  | _ => false

/-- R167 | the states in which edits go to the shadow. -/
def DkState.shadowed : DkState → Bool
  | .armed | .running | .stopped | .faulted => true
  | _ => false

/-- Not CLOSED and not ZEROING (R581's OPEN). -/
def DkState.isOpen : DkState → Bool
  | .closed | .zeroing => false
  | _ => true

/-- The deckle, other than CLOSED, that holds a unit of a kind, if any (R162). -/
def holder (s : State) (k : UKind) (u : Nat) : Option Nat :=
  deckles.find? (fun d =>
    let g := (getDk s d).grant
    let l := match k with
      | .ch => g.ch | .v => g.banks | .dps => g.dps | .aux => g.aux | .adc => g.adc | .tmu => g.tmu
    l.contains u)

/-- The units of a kind that a grant holds. -/
def Grant.of (g : Grant) : UKind → List Nat
  | .ch => g.ch | .v => g.banks | .dps => g.dps | .aux => g.aux | .adc => g.adc | .tmu => g.tmu

/-- R278 | the ops of a program: up to the last loaded one of its bank -/
def Furnish.nops (f : Furnish) : Nat := match f.prog with | some b => tget f.loaded b 0 | none => 0

/-! ### Counters (R549) -/

/-- R549 | the widths of the deckle counters. -/
def cntWidth : List Nat :=
  [48, 64, 48, 48, 32, 48, 32, 64, 64, 64, 48, 48, 48, 4, 4, 5, 32, 32, 32, 32, 32, 32, 32, 32, 32, 32,
   32, 32, 32, 32, 32, 32, 32, 32, 32, 32, 32, 32, 32, 32, 32, 32, 32, 32, 32, 32, 32, 32]

/-- R549 | a counter rises and stops at its largest value. -/
def cntAdd (k : Deckle) (i n : Nat) : Deckle :=
  { k with cnt := tset k.cnt i (min (tget k.cnt i 0 + n) (2 ^ ((cntWidth[i]?).getD 64) - 1)) }

/-- R549 | a counter that keeps a largest value. -/
def cntMax (k : Deckle) (i n : Nat) : Deckle :=
  { k with cnt := tset k.cnt i (min (max (tget k.cnt i 0) n) (2 ^ ((cntWidth[i]?).getD 64) - 1)) }

def incr (s : State) (d i : Nat) (n : Nat := 1) : State := modDk s d (fun k => cntAdd k i n)

/-- R14, R549 | microengine steps of a deckle, as its counter and its metering take them -/
def stepsRun (s : State) (d n : Nat) : State := modDk s d (fun k => cntAdd { k with used := k.used + n } 7 n)

end Sys2Proof.Machine
end

