-- ==== Sys2Proof/Machine/Operands.lean ====
section
/-! DEFINITION. Texts: the lines the module sends, how they are written out as bytes, refusals, and how the operands of
a command line are read: numbers with units, lists, tags and the normalised text. -/

namespace Sys2Proof.Machine

/-! ### Lines the module sends -/

/-- A bare word. -/
def w (t : String) : Tok := { val := [.s t] }
/-- KEY= and atoms. -/
def kv (k : String) (a : List Atom) : Tok := { key := k, val := a }
/-- KEY= and a word. -/
def kw (k t : String) : Tok := { key := k, val := [.s t] }
/-- KEY= and a decimal number. -/
def kn (k : String) (n : Nat) : Tok := { key := k, val := [.d n] }
/-- KEY= and a 64-bit count in hex. -/
def kt (k : String) (n : Nat) : Tok := { key := k, val := [.hx n 16] }
/-- KEY=0 or KEY=1. -/
def kb (k : String) (b : Bool) : Tok := { key := k, val := [.d (if b then 1 else 0)] }
/-- A number of two digits. -/
def two (n : Nat) : Atom := .raw [48 + n / 10 % 10, 48 + n % 10]

/-- R120 | the name of a unit -/
def unitName : UKind → Nat → List Atom
  | .ch, n => [.s "CH", two n]
  | .v, n => [.s "V", two n]
  | .dps, n => [.s "DPS", .d n]
  | .aux, n => [.s "AUX", .d n]
  | .adc, n => [.s "ADC", .d n]
  | .tmu, n => [.s "TMU", .d n]

/-- The deckle Dd. -/
def dTok (d : Nat) : Tok := { val := [.s "D", .d d] }
/-- A unit as a token. -/
def uTok (k : UKind) (n : Nat) : Tok := { val := unitName k n }

/-- Atoms joined by commas. -/
def commas : List (List Atom) → List Atom
  | [] => []
  | [a] => a
  | a :: r => a ++ .s "," :: commas r

/-- R588 | a list, NONE when empty -/
def listAtoms (l : List (List Atom)) : List Atom := if l.isEmpty then [.s "NONE"] else commas l

/-- R588 | a list of units -/
def unitList (k : UKind) (l : List Nat) : List Atom := listAtoms (l.map (unitName k))

/-- R120, R587 | a list as a command names it: its items and ranges joined by commas -/
def rangeList (l : List URange) : List Atom :=
  listAtoms (l.map (fun r => if r.k1 = r.k2 ∧ r.a = r.b then unitName r.k1 r.a else unitName r.k1 r.a ++ [.s ".."] ++ unitName r.k2 r.b))

/-- Decimal digits of a number, as characters. -/
def decBytes (n : Nat) : List Nat := (Nat.toDigits 10 n).map (fun c => c.toNat)

/-- A character as a hex digit, upper or lower case. -/
def hexChar (upper : Bool) (v : Nat) : Nat := if v < 10 then 48 + v else if upper then 55 + v else 87 + v

/-- Characters in groups of four, counted from the right, joined by a separator. -/
def groups4 (sep : Nat) (l : List Nat) : List Nat :=
  (List.range l.length).flatMap (fun i =>
    (if 0 < i ∧ (l.length - i) % 4 = 0 then [sep] else []) ++ [(l[i]?).getD 0])

/-- The hex digits of a number. -/
def hexBytes (upper : Bool) (digits n : Nat) : List Nat :=
  (List.range digits).map (fun i => hexChar upper (n / 16 ^ (digits - 1 - i) % 16))

/-- A decimal with a fixed number of places. -/
def fixBytes (n : Int) (places : Nat) : List Nat :=
  let a := n.natAbs
  let f := decBytes (a % 10 ^ places)
  (if n < 0 then [45] else []) ++ decBytes (a / 10 ^ places) ++
    (if places = 0 then [] else 46 :: List.replicate (places - f.length) 48 ++ f)

/-- R119 | the bytes of an atom -/
def Atom.bytes : Atom → List Nat
  | .s t => t.toList.map (fun c => c.toNat)
  | .d n => (if n < 0 then [45] else []) ++ decBytes n.natAbs
  | .fx n p => fixBytes n p
  | .hx n k => [48, 120] ++ groups4 95 (hexBytes true k n)
  | .sec n g => groups4 45 (hexBytes false (4 * g) n)
  | .raw b => b

def Tok.bytes (t : Tok) : List Nat :=
  (if t.key = "" then [] else t.key.toList.map (fun c => c.toNat) ++ [61]) ++ t.val.flatMap Atom.bytes

/-- The bytes of a line, before its terminator and its SEAL suffix. -/
def lineBytes : Line → List Nat
  | [] => []
  | [t] => t.bytes
  | t :: r => t.bytes ++ 32 :: lineBytes r

/-! ### Numbers with up to six significant digits (R588) -/

/-- The largest k in 0 … fuel with 10^k ≤ q. -/
def log10 : Nat → Nat → Nat
  | 0, _ => 0
  | f + 1, q => if q < 10 then 0 else log10 f (q / 10) + 1

/-- Round half away from zero. -/
def roundRat (q : Rat) : Int := if q < 0 then -((-q + 1 / 2).floor) else (q + 1 / 2).floor

/-- Drop trailing zeros of the fraction. -/
def trimFix : Nat → Int → Nat → Int × Nat
  | 0, n, p => (n, p)
  | f + 1, n, p => if 0 < p ∧ n % 10 = 0 then trimFix f (n / 10) (p - 1) else (n, p)

/-- A number with at most six significant digits. -/
def sig6 (q : Rat) : Atom :=
  let a := if q < 0 then -q else q
  let p := if 1 ≤ a then 5 - log10 12 a.floor.natAbs else if a = 0 then 0
    else match (List.range 50).find? (fun k => 1 ≤ a * 10 ^ (k + 1)) with | some k => 6 + k | none => 56
  let r := trimFix 60 (roundRat (q * 10 ^ p)) p
  .fx r.1 r.2

/-- A number in a unit, scaled to keep six digits: volts as they are, amperes as mA or uA. -/
def ampAtoms (q : Rat) : List Atom :=
  if q ≠ 0 ∧ -1 / 1000 < q ∧ q < 1 / 1000 then [sig6 (q * 1000000), .s "uA"] else [sig6 (q * 1000), .s "mA"]

/-! ### Refusals (R582) -/

/-- A result of reading and checking a line: a refusal, or a value. -/
abbrev Res := Except Line

def e400 (pos : Nat) : Line := [w "E400", w "SYNTAX", kn "POS" pos]
def e400bare : Line := [w "E400", w "SYNTAX"]
def e400missing (f : String) : Line := [w "E400", w "SYNTAX", kw "MISSING" f]
def e401 : Line := [w "E401", w "BADAUTH"]
def e403 : Line := [w "E403", w "DENIED"]
def e404 : Line := [w "E404", w "NOCMD"]
def e405 : Line := [w "E405", w "BADMAC"]
def e406 (t : Nat) : Line := [w "E406", w "LOCKOUT", kn "WAIT" t]
def e407 : Line := [w "E407", w "BADKEY"]
def e408 : Line := [w "E408", w "TIMEOUT"]
def e409 : Line := [w "E409", w "DUPTAG"]
def e410 : Line := [w "E410", w "NOSUCH"]
def e411 : Line := [w "E411", w "TOOLATE"]
def e412 (t : Nat) : Line := [w "E412", w "LATE", kt "NOW" t]
def e413 : Line := [w "E413", w "LONGLINE"]
def e415 : Line := [w "E415", w "BADBLOCK"]
def e415aborted : Line := [w "E415", w "BADBLOCK", w "ABORTED"]
def e416 : Line := [w "E416", w "BADCRC"]
def e416slot (n : Nat) : Line := [w "E416", w "BADCRC", kn "SLOT" n]
def e417 (pa s : Nat) (why : Tok) : Line := [w "E417", w "BADSHEET", kn "PA" pa, kn "S" s, why]
def e417prog (pa : Nat) : Line := [w "E417", w "BADSHEET", kn "PA" pa, w "PROG"]
def e418 : Line := [w "E418", w "NOTSCHED"]
def e419 (pos : Nat) : Line := [w "E419", w "RANGE", kn "POS" pos]
def e421 : Line := [w "E421", w "NOTPENDING"]
def e422 (l : List Atom) : Line := [w "E422", w "BADUNITS", kv "FAILED" l]
def e423 : Line := [w "E423", w "NEEDSTOP"]
def e423item (i : String) : Line := [w "E423", w "NEEDSTOP", kw "ITEM" i]
def e424 : Line := [w "E424", w "NOBOUNDARY"]
def e424cause (c : String) : Line := [w "E424", w "NOBOUNDARY", kw "CAUSE" c]
def e425 (u : List Atom) : Line := [w "E425", w "INUSE", kv "RES" u]
def e426 (n : Nat) : Line := [w "E426", w "SHARES", kn "FREE" n]
def e427 (sect item : String) (why : Line) : Line := [w "E427", w "INVALID", kw "SECT" sect, kw "ITEM" item] ++ why
def e428 : Line := [w "E428", w "NEEDTAG"]
def e429 : Line := [w "E429", w "FULL"]
def e429stage : Line := [w "E429", w "FULL", w "STAGE"]
def e430 : Line := [w "E430", w "NOTSEALED"]
def e431 : Line := [w "E431", w "OVERRUN"]
def e432 (n : Nat) : Line := [w "E432", w "NOSLOT", kn "FREE" n]
def e433 : Line := [w "E433", w "NOREF"]
def e433in (f : String) : Line := [w "E433", w "NOREF", kw "IN" f]
def e434 : Line := [w "E434", w "NOCHAIN"]
def e435 (y : String) : Line := [w "E435", w "BADIMAGE", kw "WHY" y]
def e436ch (c : Nat) : Line := [w "E436", w "NOLOCK", kv "CH" (unitName .ch c)]
def e436tmu (n : Nat) : Line := [w "E436", w "NOLOCK", kv "TMU" (unitName .tmu n)]
def e437 (b a : Nat) : Line := [w "E437", w "BANKERR", kv "BANK" (unitName .v b), kv "ADDR" [.hx a 8]]
def e503 : Line := [w "E503", w "SAFE"]

/-- Refuse unless a condition holds. -/
def need (c : Bool) (e : Line) : Res Unit := if c then .ok ⟨⟩ else .error e

/-! ### Names of states (R155, R173, R580) -/

def DkState.name : DkState → String
  | .closed => "CLOSED" | .opened => "OPEN" | .held => "HELD" | .armed => "ARMED" | .running => "RUNNING"
  | .stopped => "STOPPED" | .faulted => "FAULTED" | .zeroing => "ZEROING"

def ModState.name : ModState → String
  | .off => "OFF" | .inReset => "RESET" | .powerOn => "POWER-ON" | .boot => "BOOT" | .verify => "VERIFY" | .load => "LOAD"
  | .selfTest => "SELF-TEST" | .degraded => "DEGRADED-PENDING" | .warming => "WARMING" | .ready => "READY" | .safe => "SAFE"

def FaultKind.name : FaultKind → String
  | .mchk => "F-MCHK" | .bank => "F-BANK" | .ref => "F-REF" | .chain => "F-CHAIN" | .dll => "F-DLL" | .pin => "F-PIN"
  | .dps => "F-DPS" | .sense => "F-SENSE" | .tmu => "F-TMU" | .felt => "F-FELT" | .safe => "SAFE"

/-- R535, R541 | position of a cause in the ranking, 15 for SAFE -/
def FaultKind.rank : FaultKind → Nat
  | .mchk => 1 | .bank => 2 | .ref => 3 | .chain => 4 | .dll => 5 | .pin => 6 | .dps => 7 | .sense => 8 | .tmu => 9
  | .felt => 10 | .safe => 15

def HeldWhy.name : HeldWhy → String
  | .session => "SESSION" | .grant => "GRANT" | .slotcrc _ => "SLOTCRC" | .withdrawn _ => "WITHDRAWN"
  | .invalid _ _ => "INVALID" | .restart => "RESTART" | .mchk => "MCHK" | .restoring => "RESTORING"

/-- R173, R174 | the details of a HELD reason -/
def HeldWhy.details : HeldWhy → Line
  | .slotcrc n => [kn "SLOT" n]
  | .withdrawn l => [kv "UNITS" (listAtoms (l.map (fun u => [Atom.s u])))]
  | .invalid se it => [kw "SECT" se, kw "ITEM" it]
  | _ => []

/-- R157 | E420 with the deckle's state, and its reason when HELD -/
def e420 (k : Deckle) : Line :=
  [w "E420", w "BADSTATE", kw "STATE" k.st.name] ++
    (if k.st = .held then match k.why with | some y => [kw "REASON" y.name] | none => [] else [])
def e420reason (r : String) : Line := [w "E420", w "BADSTATE", kw "REASON" r]
def e420state (s r : String) : Line := [w "E420", w "BADSTATE", kw "STATE" s, kw "REASON" r]

def Pace.name : Pace → String | .eco => "ECO" | .nominal => "NOMINAL" | .swift => "SWIFT"
def Pace.num : Pace → Nat | .eco => 0 | .nominal => 1 | .swift => 2
def RefSrc.name : RefSrc → String | .int => "INT" | .ext => "EXT" | .chain => "CHAIN"
def RefIn.name : RefIn → String | .none => "NONE" | .m10 => "10MHZ" | .m100 => "100MHZ" | .bad => "BADFREQ"
def Lock.name : Lock → String | .unlocked => "HELD" | .locked => "LOCKED" | .holdover => "HOLDOVER" | .held => "HELD"
def EvClass.name : EvClass → String | .done => "DONE" | .fault => "FAULT" | .limit => "LIMIT" | .note => "NOTE"
def EvClass.num : EvClass → Nat | .done => 0 | .fault => 1 | .limit => 2 | .note => 3
def Rest.name : Rest → String | .hiz => "HIZ" | .low => "LOW" | .high => "HIGH" | .term => "TERM"
def BankPow.name : BankPow → String | .on => "ON" | .retain => "RETAIN" | .off => "OFF"
def Fmt.name : Fmt → String | .nrz => "NRZ" | .dnrz => "DNRZ" | .rz => "RZ" | .ro => "RO" | .sbc => "SBC" | .zw => "ZW"
def Trig.name : Trig → List Atom
  | .cmd => [.s "CMD"] | .mark m => [.s "M", .d m] | .timer => [.s "TIMER"] | .trigin => [.s "TRIGIN"]
  | .triginF => [.s "TRIGIN-F"] | .chain => [.s "CHAIN"]
def onOff (b : Bool) : String := if b then "ON" else "OFF"

/-! ### Reading operands (R120, R121) -/

/-- R120 | the kinds of quantities that units measure -/
inductive Quant where | count | time | volt | amp | cap | freq | pct | slew | bend
deriving DecidableEq, Repr

def Dim.kind : Dim → Quant
  | .none => .count
  | .ps | .ns | .us | .ms | .s => .time
  | .mV | .V => .volt
  | .nA | .uA | .mA | .A => .amp
  | .pF => .cap
  | .Hz | .kHz | .MHz | .GHz => .freq
  | .pct => .pct
  | .Vus => .slew
  | .Vus2 => .bend

/-- The factor of a unit over seconds, volts, amperes, pF, Hz, %, V/us, V/us2. -/
def Dim.factor : Dim → Rat
  | .ps => 1 / 1000000000000 | .ns => 1 / 1000000000 | .us => 1 / 1000000 | .ms => 1 / 1000
  | .mV => 1 / 1000 | .nA => 1 / 1000000000 | .uA => 1 / 1000000 | .mA => 1 / 1000
  | .kHz => 1000 | .MHz => 1000000 | .GHz => 1000000000
  | _ => 1

/-- The number a decimal writes, without its unit. -/
def Val.num (v : Val) : Rat := (if v.neg then -1 else 1) * ((v.digits : Rat) / (10 ^ v.scale : Nat))

/-- R120 | at most 12 significant digits -/
def Val.fits (v : Val) : Bool := v.digits < 10 ^ 12

/-- R121 | a decimal in the unit of its field; none when its own unit is of another kind -/
def Val.inUnit (v : Val) (u : Dim) : Option Rat :=
  if v.unit = .none then some v.num
  else if v.unit.kind = u.kind then some (v.num * v.unit.factor / u.factor) else none

/-- A decimal field in a unit, refused at its token's position where it has too many digits or another kind. -/
def readVal (pos : Nat) (u : Dim) (v : Val) : Res Rat :=
  if v.fits then match v.inUnit u with | some q => .ok q | none => .error (e400 pos) else .error (e400 pos)

/-- A decimal field in a unit, inside a range. -/
def readRange (pos : Nat) (u : Dim) (lo hi : Rat) (v : Val) : Res Rat := do
  let q ← readVal pos u v
  need (lo ≤ q ∧ q ≤ hi) (e419 pos)
  pure q

/-- A whole number without unit, inside a range. -/
def readNat (pos lo hi : Nat) (v : Val) : Res Nat := do
  let q ← readVal pos .none v
  need (v.unit = .none ∧ q.den = 1) (e400 pos)
  need ((lo : Rat) ≤ q ∧ q ≤ (hi : Rat)) (e419 pos)
  pure q.num.toNat

/-- A whole number without unit, signed, inside a range. -/
def readInt (pos : Nat) (lo hi : Int) (v : Val) : Res Int := do
  let q ← readVal pos .none v
  need (v.unit = .none ∧ q.den = 1) (e400 pos)
  need (lo ≤ q.num ∧ q.num ≤ hi) (e419 pos)
  pure q.num

/-- The field's value must be a number. -/
def argNum (pos : Nat) : Arg → Res Val | .num v => .ok v | _ => .error (e400 pos)
/-- The field's value must be a keyword. -/
def argWord (pos : Nat) : Arg → Res String | .word x => .ok x | _ => .error (e400 pos)
/-- The field's value must be a list of names. -/
def argList (pos : Nat) : Arg → Res (List URange) | .list l => .ok l | _ => .error (e400 pos)
/-- R119 | a keyword as the module reads it: letters in upper case -/
def upWord (x : String) : String := String.ofList (x.toList.map (fun c => if 97 ≤ c.toNat ∧ c.toNat ≤ 122 then Char.ofNat (c.toNat - 32) else c))

/-- R119 | a keyword of a fixed list, in either case -/
def pick (pos : Nat) (l : List (String × α)) (x : String) : Res α :=
  match l.find? (fun p => p.1 == upWord x) with | some p => .ok p.2 | none => .error (e400 pos)
/-- ON or OFF. -/
def pickOnOff (pos : Nat) (a : Arg) : Res Bool := do pick pos [("ON", true), ("OFF", false)] (← argWord pos a)

/-- R585 | the largest number of a name of each kind -/
def UKind.max : UKind → Nat | .ch => 47 | .v => 63 | .dps => 3 | .aux => 1 | .adc => 7 | .tmu => 3

/-- R120, R121 | the units a list names, in the order written, for a list of one kind standing at a token -/
def expand (pos : Nat) (k : UKind) : List URange → Res (List Nat)
  | [] => .ok []
  | r :: t => do
    need (r.k1 = k ∧ r.k2 = k) (e400 pos)
    need (r.a ≤ r.b ∧ r.b ≤ k.max) (e419 pos)
    let rest ← expand pos k t
    pure ((List.range (r.b - r.a + 1)).map (fun i => r.a + i) ++ rest)

/-- Ascending, without repeats. -/
def insNat (x : Nat) : List Nat → List Nat
  | [] => [x]
  | y :: r => if x < y then x :: y :: r else if x = y then y :: r else y :: insNat x r
def sortNat (l : List Nat) : List Nat := l.foldr insNat []

/-- The number of a unit of a kind, in the module's range. -/
def readUnit (pos : Nat) (k : UKind) (n : Nat) : Res Unit := need (n ≤ k.max) (e419 pos)

/-- A fold over the fields of a line, each with its token's position. -/
def foldFields (step : Nat → α → Fld → Res α) : Nat → α → List Fld → Res α
  | _, a, [] => .ok a
  | p, a, f :: r => do foldFields step (p + 1) (← step p a f) r

/-- Each item with its position from `p` up. -/
def numbered (p : Nat) : List α → List (Nat × α)
  | [] => []
  | x :: r => (p, x) :: numbered (p + 1) r

/-! ### The text of a line (R116 to R118, R134, R136) -/

/-- R116 | the characters of a line: printable ASCII and TAB -/
def lineChars (t : List Nat) : Bool := t.all (fun c => c = 9 ∨ (32 ≤ c ∧ c ≤ 126))

/-- The text up to a comment. -/
def uncomment : List Nat → List Nat
  | [] => []
  | c :: r => if c = 59 then [] else c :: uncomment r

/-- Text in tokens, split at spaces and TABs. -/
def splitSp : List Nat → List Nat → List (List Nat)
  | [], cur => if cur.isEmpty then [] else [cur.reverse]
  | c :: r, cur =>
    if c = 32 ∨ c = 9 then (if cur.isEmpty then splitSp r [] else cur.reverse :: splitSp r []) else splitSp r (c :: cur)

/-- R118 | the tokens of a line -/
def tokens (t : List Nat) : List (List Nat) := splitSp (uncomment t) []

def upper (c : Nat) : Nat := if 97 ≤ c ∧ c ≤ 122 then c - 32 else c
def alnum (c : Nat) : Bool := (48 ≤ c ∧ c ≤ 57) ∨ (65 ≤ c ∧ c ≤ 90) ∨ (97 ≤ c ∧ c ≤ 122)
def isHex (c : Nat) : Bool := (48 ≤ c ∧ c ≤ 57) ∨ (65 ≤ upper c ∧ upper c ≤ 70)

/-- R134 | the tag that a token writes -/
def tagOf : List Nat → Option (List Nat)
  | 35 :: r => if 1 ≤ r.length ∧ r.length ≤ 8 ∧ r.all alnum then some (r.map upper) else none
  | _ => none

/-- R118 | the tag of a line: its last token before a comment -/
def lineTag (t : List Nat) : Option (List Nat) := (tokens t).getLast?.bind tagOf

/-- R118, R134 | the position of a token that begins as a tag and is none: a bad tag, a tag before the last token, a tag without a
command -/
def badTag (t : List Nat) : Option Nat :=
  let l := tokens t
  ((numbered 1 l).find? (fun e => e.2.head? == some 35 && !(e.1 == l.length && 1 < e.1 && (tagOf e.2).isSome))).map (fun e => e.1)

/-- R120 | the digits of a number up to its unit: a decimal run with at most one point between digits -/
def decRun : List Nat → List Nat
  | [] => []
  | [c] => if 48 ≤ c ∧ c ≤ 57 then [c] else []
  | c :: d :: r => if (48 ≤ c ∧ c ≤ 57) ∨ (c = 46 ∧ 48 ≤ d ∧ d ≤ 57) then c :: decRun (d :: r) else []

/-- R120 | significant digits of a decimal: from the first that is not zero to the last written; a zero counts as one -/
def sigDigits (t : List Nat) : Nat := max 1 ((decRun t).filter (fun c => c != 46) |>.dropWhile (fun c => c == 48)).length

/-- R120 | whether a number at the head of some characters keeps to its form: a hex number has 1 to 16 digits with underscores
between digits only, a decimal at most 12 significant digits -/
def numberOk : List Nat → Bool
  | 48 :: x :: r =>
    if x = 120 ∨ x = 88 then
      let t := r.takeWhile (fun c => isHex c || c == 95)
      let n := (t.filter (fun c => c != 95)).length
      1 ≤ n && n ≤ 16 && t.head? != some 95 && t.getLast? != some 95 && !(t.zip (t.drop 1)).any (fun p => p.1 == 95 && p.2 == 95)
    else sigDigits (48 :: x :: r) ≤ 12
  | t => match t with
    | [] => true
    | c :: r => if c = 43 ∨ c = 45 then sigDigits r ≤ 12 else sigDigits (c :: r) ≤ 12

/-- The value of a token: what follows its `=`, else all of it. -/
def tokenValue (t : List Nat) : List Nat := match t.dropWhile (fun c => c != 61) with | [] => t | _ :: r => r

/-- R120 | words whose lines carry secrets: their tokens are no numbers -/
def secretLine (l : List (List Nat)) : Bool :=
  match l with
  | [] => false
  | c :: r =>
    let u := fun (x : List Nat) => x.map upper
    u c == [79, 87, 78, 69, 82] || u c == [76, 79, 71, 73, 78] || u c == [73, 68, 69, 78, 84] || r.any (fun x => u x == [75, 69, 89])

/-- R120, R121 | the position of the first number of a line that breaks the form of numbers -/
def badNumber (t : List Nat) : Option Nat :=
  let l := tokens t
  if secretLine l then none
  else ((numbered 1 l).find? (fun e => !numberOk (tokenValue e.2))).map (fun e => e.1)

/-! ### The SEAL suffix (R28, R29, R118) -/

/-- R118 | a line split at its last ` | ` -/
def sealAt : List Nat → Option (List Nat × List Nat)
  | [] => none
  | c :: r => match sealAt r with
    | some (a, b) => some (c :: a, b)
    | none => if c = 32 ∧ r.take 2 = [124, 32] then some ([], r.drop 2) else none

/-- The value of a hex digit. -/
def hexVal (c : Nat) : Nat := if c ≤ 57 then c - 48 else upper c - 55

/-- R118, R120 | a MAC of four groups of four hex digits, joined by hyphens or in one run -/
def macOf (t : List Nat) : Option Nat :=
  let d := t.filter (fun c => c != 45)
  if d.length = 16 ∧ d.all isHex ∧ (t.length = 16 ∨ (t.length = 19 ∧ t[4]? = some 45 ∧ t[9]? = some 45 ∧ t[14]? = some 45)) then
    some (d.foldl (fun a c => 16 * a + hexVal c) 0)
  else none

/-- R118 | a line of SEAL mode: its text without the suffix, and its MAC if it has one -/
def sealParts (t : List Nat) : List Nat × Option Nat := match sealAt t with | some (a, b) => (a, macOf b) | none => (t, none)

/-- R118 | a header as its command reads it: without the suffix where the line arrived in SEAL mode -/
def Hdr.plain (sealed : Bool) (h : Hdr) : Hdr := if sealed then { h with text := (sealParts h.text).1 } else h

/-- R121 | the position of the first bad token of a line: one that fits no form of its command, or no form of R120 -/
def Hdr.fault (h : Hdr) : Option Nat :=
  match h.bad, badNumber h.text with
  | some p, some q => some (min p q)
  | some p, none => some p
  | none, q => q

/-- R120 | whether a token is a secret in groups of four hex digits joined by hyphens -/
def isSecret (t : List Nat) : Bool :=
  9 ≤ t.length ∧ t.length % 5 = 4 ∧
    (List.range t.length).all (fun i => let c := (t[i]?).getD 0; if i % 5 = 4 then c = 45 else isHex c)

/-- Tokens joined by single spaces. -/
def joinSp : List (List Nat) → List Nat
  | [] => []
  | [t] => t
  | t :: r => t ++ 32 :: joinSp r

/-- R136 | the normalised text of a command line, without its block -/
def normText (t : List Nat) : List Nat :=
  joinSp ((tokens t).map (fun x => let u := x.map upper; if isSecret u then u.filter (fun c => c != 45) else u))

/-- R136 | what a DATA block adds to the normalised text: its length and CRC -/
def blkText (b : Blk) : List Nat := 32 :: decBytes b.hdr.n ++ 32 :: decBytes b.crc

end Sys2Proof.Machine
end

