-- ==== Sys2Proof/Machine/EventOps.lean ====
section
/-! DEFINITION. Lines that are sent, event queues, EVT lines and trace packets: what every part of the module uses to tell
something. -/

namespace Sys2Proof.Machine

/-! ### Sending on a line -/

/-- R29, R30 | the MAC of a line under a session key, a counter and a direction byte -/
def lineMac (key q dir : Nat) (text : List Nat) : Nat := hmacNum key (beBytes 8 q ++ dir :: text) / 2 ^ 192

/-- R30, R126, R132 | send one line on a line: with its MAC in SEAL mode; it waits while output is paused -/
def sendLine (s : State) (l : Nat) (t : Line) : State :=
  modLn s l (fun x =>
    if x.paused then { x with outw := x.outw ++ [(t, true)] }
    else match x.sm with
      | some m => { x with tx := x.tx ++ [⟨t, some (lineMac m.key m.qm 0x4D (lineBytes t)), true⟩],
                           sm := some { m with qm := m.qm + 1 } }
      | none => { x with tx := x.tx ++ [⟨t, none, true⟩] })

/-- R129, R132 | characters sent without a line end: prompts, echoes, redisplays; they wait while output is paused -/
def sendRaw (s : State) (l : Nat) (b : List Nat) : State :=
  if b.isEmpty then s
  else modLn s l (fun x =>
    let t : Line := [{ val := [.raw b] }]
    if x.paused then { x with outw := x.outw ++ [(t, false)] } else { x with tx := x.tx ++ [⟨t, none, false⟩] })

/-- R132 | output goes on: what waited is sent in order -/
def resumeOut (s : State) (l : Nat) : State :=
  (getLn s l).outw.foldl (fun s t => if t.2 then sendLine s l t.1 else modLn s l (fun x => { x with tx := x.tx ++ [⟨t.1, none, false⟩] }))
    (modLn s l (fun x => { x with paused := false, outw := [] }))

/-- R132, R152 | bytes that a line's input buffer holds: the partial line and the lines received and not yet started -/
def bufBytes (x : LineSt) : Nat :=
  x.part.length + (x.held.map (fun e => match x.slots.find? (fun y => y.id == e.1) with | some y => y.bytes | none => 0)).sum

/-- R132 | with XON/XOFF on, XOFF goes out when the input buffer holds 3,072 bytes, and XON when it has fallen to 1,024 -/
def flowControl (s : State) (l : Nat) : State :=
  modLn s l (fun x =>
    let put := fun (b : Nat) (y : LineSt) => { y with tx := y.tx ++ [⟨[{ val := [.raw [b]] }], none, false⟩] }
    if x.xon && !x.machine && !x.xoff && decide (3072 ≤ bufBytes x) then put 19 { x with xoff := true }
    else if x.xoff && decide (bufBytes x ≤ 1024) then put 17 { x with xoff := false }
    else x)

/-- R129 | the prompt of typed mode -/
def promptBytes (r : Role) : List Nat :=
  (match r with
    | .anon => (Atom.s "ANON").bytes | .owner => (Atom.s "OWNER").bytes
    | .tenant d => 68 :: decBytes d | .observer n => 79 :: 66 :: decBytes n) ++ [62, 32]

/-- R127, R131 | send an event line between complete lines; in typed mode a partial line is redisplayed after it -/
def sendEvent (s : State) (l : Nat) (t : Line) : State :=
  let x := getLn s l
  if x.machine || x.part.isEmpty then sendLine s l t
  else sendRaw (sendLine (sendLine s l []) l t) l (promptBytes x.role ++ x.part)

/-- R92, R110 | the lines that hear the module's state: every open session, and CON -/
def heard (s : State) : List Nat := lineNos.filter (fun l => (getLn s l).up || l == 0)

def sendAll (s : State) (t : Line) : State := (heard s).foldl (fun s l => sendEvent s l t) s

/-! ### Physical EVT lines (R529, R530) -/

/-- R530, R532 | a line that HOLD keeps low is released; a pulse in progress completes -/
def EvtSt.letGo (e : EvtSt) : EvtSt := { e with low := e.low && e.pulse }

/-- R530 | a mapped event asserts a line: HOLD until cleared; a PULSE only when the line is not low and 1 us has passed
since its release -/
def evtHit (s : State) (n : Nat) : State :=
  modEvt s n (fun e =>
    if e.hold then { e with low := true, pulse := false }
    else if e.low then e
    else match e.relT with
      | some t => if s.wall < t + Config.us then e else { e with low := true, pulse := true, relT := some (s.wall + Config.us) }
      | none => { e with low := true, pulse := true, relT := some (s.wall + Config.us) })

/-- R530 | an event of a source and a class asserts every EVT line mapped to it; a deckle source asserts nothing in SAFE -/
def evtRaise (s : State) (src : MapSrc) (c : EvClass) : State :=
  [0, 1, 2, 3].foldl (fun s n =>
    let e := getEvt s n
    if e.src = some src ∧ e.cls.contains c ∧ (src = .modl ∨ s.md.st ≠ .safe) then evtHit s n else s) s

/-! ### Event queues (R524 to R527) -/

/-- Remove the first element that satisfies a test. -/
def dropFirst (p : α → Bool) : List α → List α
  | [] => []
  | x :: r => if p x then r else x :: dropFirst p r

/-- R526 | a line enters a queue of a given capacity; the second component is the number of lines dropped -/
def enqueue (cap : Nat) (q : List (EvClass × Line)) (c : EvClass) (t : Line) : List (EvClass × Line) × Nat :=
  if q.length < cap then (q ++ [(c, t)], 0)
  else if c = .fault then
    if q.any (fun e => e.1 != .fault) then (dropFirst (fun e => e.1 != .fault) q ++ [(c, t)], 1)
    else (q.drop 1 ++ [(c, t)], 1)
  else (q, 1)

/-- A line enters the queue of a deckle; `own` tells whether it belongs to the deckle and counts in its counters (R549). -/
def queueEv (s : State) (d : Nat) (own : Bool) (c : EvClass) (t : Line) : State :=
  modDk s d (fun k =>
    let r := enqueue 256 k.evq c t
    let k := { k with evq := r.1, evlost := k.evlost + r.2 }
    let k := if own then cntAdd k (16 + c.num) 1 else k
    if 0 < r.2 then cntAdd k 20 r.2 else k)

/-- R523 | an event line of a deckle: `!CLASS Dd WORD fields` -/
def evLine (c : EvClass) (d : Nat) (t : Line) : Line := w ("!" ++ c.name) :: dTok d :: t

/-- R524, R526, R530 | an event of a deckle is detected -/
def event (s : State) (d : Nat) (c : EvClass) (t : Line) : State :=
  queueEv (evtRaise s (.deckle d) c) d true c (evLine c d t)

/-- R524, R526 | an owner event -/
def ownerEvent (s : State) (c : EvClass) (t : Line) : State :=
  let r := enqueue 64 s.ow.q c (w ("!" ++ c.name) :: t)
  evtRaise { s with ow := { s.ow with q := r.1, lost := s.ow.lost + r.2 } } .modl c

/-- R524 | a note to the owner and to the tenants of the deckles that satisfy a test -/
def noteDeckles (s : State) (p : Deckle → Bool) (t : Line) : State :=
  deckles.foldl (fun s d => if p (getDk s d) then queueEv s d false .note (w "!NOTE" :: t) else s) (ownerEvent s .note t)

/-- R524 | a note to the owner and to every tenant of a deckle that is not CLOSED -/
def noteAll (s : State) (t : Line) : State := noteDeckles s (fun k => k.st != .closed) t

/-- R525, R527 | the oldest queued line of the session's deckle or of the owner is sent on a line, after the note of lost lines; while
the line's output is paused, the lines sent wait there -/
def passNext (s : State) (l : Nat) : State :=
  let x := getLn s l
  if !x.up then s
  else match x.role with
    | .tenant d =>
      let k := getDk s d
      match k.evq with
      | [] => s
      | e :: r =>
        let s := if 0 < k.evlost then sendEvent s l [w "!NOTE", dTok d, w "EVENTS-LOST", kn "N" k.evlost] else s
        sendEvent (modDk s d (fun k => { k with evq := r, evlost := 0 })) l e.2
    | .owner =>
      match s.ow.q with
      | [] => s
      | e :: r =>
        let s := if 0 < s.ow.lost then sendEvent s l [w "!NOTE", w "EVENTS-LOST", kn "N" s.ow.lost] else s
        sendEvent { s with ow := { s.ow with q := r, lost := 0 } } l e.2
    | _ => s

/-- R525 | the same, and nothing while the line's output is paused -/
def sendNext (s : State) (l : Nat) : State := if (getLn s l).paused then s else passNext s l

/-- R104, R525 | every queued line goes out to its session, before what is sent next (log 90) -/
def sendQueued (s : State) : State :=
  lineNos.foldl (fun s l => (List.range (match (getLn s l).role with
    | .tenant d => (getDk s d).evq.length | .owner => s.ow.q.length | _ => 0)).foldl (fun s _ => passNext s l) s) s

/-- R526 | a customer UEVENT is dropped when the queue already holds 192 lines -/
def uevent (s : State) (d : Nat) (c : EvClass) (t : Line) : State :=
  if (getDk s d).evq.length < 192 then incr (event s d c t) d 21
  else incr (incr (modDk s d (fun k => { k with evlost := k.evlost + 1 })) d 20) d 21

/-! ### Trace packets (R541 to R545) -/

/-- R545 | a packet enters the FIFO, or is dropped when the FIFO is full -/
def fifoPut (k : Deckle) (p : Packet) : Deckle :=
  if k.trace.fifo.length < 8 then
    { k with trace := { k.trace with fifo := k.trace.fifo ++ [{ p with lost := k.trace.lost }], lost := false } }
  else cntAdd { k with trace := { k.trace with lost := true } } 35 1

/-- A number as `n` bytes, least significant first. -/
def leNats (n v : Nat) : List Nat := (List.range n).map (fun i => v / 256 ^ i % 256)

/-- R541, R542 | a TIME packet enters the stream -/
def putTime (d t : Nat) (k : Deckle) : Deckle :=
  let k := fifoPut k { ty := 0xE, d := d, t := t, body := leNats 4 (t / 2 ^ 32) }
  { k with trace := { k.trace with lastTime := some t } }

/-- R542 | no TIME packet since ARM, or the last one a second ago -/
def timeDue (k : Deckle) (t : Nat) : Bool := match k.trace.lastTime with | none => true | some u => u + Config.sec ≤ t

/-- R542 | the low word of the time stamps has wrapped since the last TIME packet -/
def timeWrap (k : Deckle) (t : Nat) : Bool := match k.trace.lastTime with | none => false | some u => t / 2 ^ 32 != u / 2 ^ 32

/-- R542 | a packet enters the stream, after a TIME packet where one is due -/
def streamPut (s : State) (d ty : Nat) (body : List Nat) : State :=
  modDk s d (fun k =>
    let t := now s
    fifoPut (if timeDue k t || timeWrap k t then putTime d t k else k) { ty := ty, d := d, t := t, body := body })

/-- R541 | the state number of a STATE packet, in the order of the deckle state table -/
def DkState.code : DkState → Nat
  | .closed => 0 | .opened => 1 | .held => 2 | .armed => 3 | .running => 4 | .stopped => 5 | .faulted => 6 | .zeroing => 0

/-- R541 | a STATE packet -/
def traceState (s : State) (d : Nat) : State :=
  let k := getDk s d
  if k.trace.state then
    let cause := if k.st = .faulted then match k.cause with | some c => c.rank | none => 0 else 0
    streamPut s d 6 (k.st.code :: cause :: leNats 6 (k.seq.nextP - 1))
  else s

/-- R543 | a ROUTINE packet of a stock routine -/
def traceRoutine (s : State) (d id op steps : Nat) : State :=
  if (getDk s d).trace.routine then streamPut s d 4 (leNats 2 id ++ leNats 3 op ++ leNats 2 steps) else s

/-- R541 | a DISP packet -/
def traceDisp (s : State) (d pa n q : Nat) (cont : Bool) : State :=
  if (getDk s d).trace.disp then
    streamPut s d 5 (leNats 3 pa ++ leNats 2 (n - 1) ++ leNats 5 (q % 2 ^ 39 + (if cont then 2 ^ 39 else 0)))
  else s

/-- R14 | wall ticks that a deckle has spent RUNNING -/
def Deckle.ran (k : Deckle) (wall : Nat) : Nat := if k.st = .running then k.runT + (wall - k.runFrom) else k.runT

/-- R156, R14 | a deckle takes a state, with its STATE packet -/
def setSt (s : State) (d : Nat) (st : DkState) : State :=
  traceState (modDk s d (fun k => { k with st := st, runT := k.ran s.wall, runFrom := s.wall })) d

end Sys2Proof.Machine
end

