-- ==== Sys2Proof/Machine/Lines.lean ====
section
/-! DEFINITION. The Noram lines: sessions, the order of checks of R122, tag memories, replies in order, commands whose
reply comes later, and DATA blocks. -/

namespace Sys2Proof.Machine

/-! ### Rights (R573 to R576) -/

/-- R574 | role columns of the index -/
inductive RoleK where | a | o | t | b
deriving DecidableEq, Repr

def Role.kind : Role → RoleK
  | .anon => .a | .owner => .o | .tenant _ => .t | .observer _ => .b

def allRoles : List RoleK := [.a, .o, .t, .b]

/-- What the index says of a form: its command word, the roles that may issue it, its mark r, and whether a tenant with a
provisional key may issue it (R18). -/
structure Form where
  word : String
  roles : List RoleK := [.t]
  ro : Bool := false
  prov : Bool := false
deriving DecidableEq, Repr

/-- R576 | the roles that may issue some form of a command word -/
def wordRoles (x : String) : List RoleK :=
  if ["HELLO", "HELP", "IDENT", "MODE", "SELFTEST", "STATUS", "TIME", "LOGIN", "LOGOUT", "COUNT"].contains x then allRoles
  else if ["ACCEPT", "DECKLE"].contains x then [.o]
  else if x == "OWNER" then [.a, .o]
  else if ["BANK", "CHAIN", "EVENT", "MICRO", "PACE", "REF"].contains x then [.o, .t]
  else if x == "TRACE" then [.o, .t, .b]
  else [.t]

/-- R140 | forms that need no tag in machine mode -/
def Form.tagFree (f : Form) : Bool :=
  f.ro || ["HELLO", "HELP", "IDENT", "STATUS", "SELFTEST", "LOGIN", "LOGOUT"].contains f.word

/-- R93, R575 | words answered in SAFE and DEGRADED-PENDING -/
def safeWord (x : String) : Bool :=
  ["HELLO", "HELP", "MODE", "IDENT", "STATUS", "SELFTEST", "TIME", "LOGIN", "LOGOUT", "OWNER", "COUNT", "TRACE"].contains x

/-- R45, R93 | words refused while secure storage has failed -/
def secWord (x : String) : Bool := ["LOGIN", "LOGOUT", "OWNER"].contains x

/-- R93, R96, R575 | check 8: whether the module state lets the word pass -/
def moduleOk (s : State) (x : String) : Bool :=
  match s.md.st with
  | .warming | .ready => true
  | .degraded => x == "ACCEPT" || (safeWord x && !(secWord x && s.md.secFail))
  | _ => safeWord x && !(secWord x && s.md.secFail)

/-! ### Tag memories (R134 to R139) -/

/-- R135 | the memory that the tags of a session belong to -/
def tagMemOf (l : Nat) : Role → TagMem
  | .tenant d => .deckle d
  | .owner => .owner
  | _ => .session l

def getTags (s : State) : TagMem → List TagEntry
  | .deckle d => (getDk s d).tags
  | .owner => s.ow.tags
  | .session l => (getLn s l).tags

def setTags (s : State) (m : TagMem) (t : List TagEntry) : State :=
  match m with
  | .deckle d => modDk s d (fun k => { k with tags := t })
  | .owner => { s with ow := { s.ow with tags := t } }
  | .session l => modLn s l (fun x => { x with tags := t })

/-- R135 | an entry is alive while its command executes and for 60 s after its final line -/
def tagAlive (s : State) (e : TagEntry) : Bool := e.reply.isNone || s.wall < e.done + 60 * Config.sec

/-- The entry of a tag in a memory. -/
def findTag (s : State) (m : TagMem) (t : List Nat) : Option TagEntry := (getTags s m).find? (fun e => e.tag == t && tagAlive s e)

/-- R135 | the completed entry that ended earliest is dropped while more than 32 are held -/
def pruneTags (l : List TagEntry) : List TagEntry :=
  let c := l.filter (fun e => e.reply.isSome)
  if c.length ≤ 32 then l
  else match c with
    | [] => l
    | x :: r =>
      let m := r.foldl (fun a e => if e.done < a.done then e else a) x
      l.filter (fun e => e != m)

/-- R135 | an entry is made when its command begins executing -/
def beginTag (s : State) (m : TagMem) (t : List Nat) (text : List Nat) : State :=
  setTags s m ((getTags s m).filter (fun e => e.tag != t) ++ [{ tag := t, text := text }])

/-- R139 | the bytes of body lines as sent, with their terminators -/
def bodyBytes (b : List Line) : Nat := (b.map (fun t => (lineBytes t).length + 2)).sum

/-- R139 | a reply as it is stored: the body only up to 1,024 bytes -/
def endTag (s : State) (m : TagMem) (t : List Nat) (body : List Line) (fin : Line) : State :=
  let long := 1024 < bodyBytes body
  setTags s m (pruneTags ((getTags s m).map (fun e =>
    if e.tag == t then { e with reply := some (if long then [] else body, fin), trunc := long, done := s.wall } else e)))

/-- R137, R139 | the stored reply, marked REPLAY -/
def replayOf (e : TagEntry) : List Line × Line :=
  match e.reply with
  | some (b, f) => (b, f ++ (if e.trunc then [w "REPLAY", w "TRUNC"] else [w "REPLAY"]))
  | none => ([], [])

/-! ### Replies in the order of arrival (R123, R126) -/

/-- The lines of the replies at the head of the order that are known, and the places that stay. -/
def headReplies : List Slot → List (List Line × Line) × List Slot
  | [] => ([], [])
  | x :: r => match x.reply with
    | some p => let q := headReplies r; (p :: q.1, q.2)
    | none => ([], x :: r)

/-- R126, R129 | one reply is sent: body lines, final line, and in typed mode the prompt -/
def sendReply (s : State) (l : Nat) (p : List Line × Line) : State :=
  let s := sendLine (p.1.foldl (fun s t => sendLine s l t) s) l p.2
  let x := getLn s l
  if x.machine then s else sendRaw s l (promptBytes x.role)

/-- The replies that have become first in order are sent. -/
def flushSlots (s : State) (l : Nat) : State :=
  let h := headReplies (getLn s l).slots
  h.1.foldl (fun s p => sendReply s l p) (modLn s l (fun x => { x with slots := h.2 }))

/-- R126 | a reply takes its place; place 0 has no session left and is discarded (R114) -/
def answer (s : State) (l slot : Nat) (body : List Line) (fin : Line) : State :=
  if slot = 0 then s
  else flushSlots (modLn s l (fun x =>
    { x with slots := x.slots.map (fun y => if y.id == slot then { y with reply := some (body, fin) } else y) })) l

/-- A place at the end of the order of replies, for a line of so many bytes that arrives now. -/
def newSlot (s : State) (l : Nat) (bytes : Nat := 0) : Nat × State :=
  let n := (getLn s l).nslot
  (n, modLn { s with arrN := s.arrN + 1 } l (fun x =>
    { x with nslot := n + 1,
             slots := x.slots ++ [{ id := n, tb := now s, rx := s.wall, seq := s.arrN, bytes := bytes, sealed := x.sm.isSome }] }))

/-- The place of a number on a line. -/
def placeAt (s : State) (l n : Nat) : Slot := ((getLn s l).slots.find? (fun y => y.id == n)).getD {}

/-- The place of the command that executes on a line: the first without a reply. -/
def running (s : State) (l : Nat) : Slot := ((getLn s l).slots.find? (fun y => y.reply.isNone)).getD { tb := now s, rx := s.wall }

/-- R123 | whether a command of the session is executing or waiting -/
def busy (x : LineSt) : Bool := x.slots.any (fun y => y.reply.isNone)

/-! ### Commands whose reply comes later -/

/-- R149 | the lateness field -/
def lateTok (n : Int) : Tok := { key := "LATE", val := [.d n, .s "ns"] }

/-- A finished reply is stored under its tag, sent in its place, given to the duplicates that wait for it (R138), and
sent as an event where the command was scheduled (R148). -/
def completeJob (s : State) (j : Job) (body : List Line) (fin : Line) : State :=
  let fin := match j.late with
    | some n => fin ++ [lateTok n]
    | none => fin
  let s := { s with jobs := s.jobs.filter (fun x => x != j) }
  let s := match j.tag with | some (m, t) => endTag s m t body fin | none => s
  let s := match j.atId with
    | some (d, id, _) => incr (event s d .done ([w "AT", kn "ID" id] ++ fin)) d 23
    | none => s
  let s := answer s j.line j.slot body fin
  match j.tag with
  | none => s
  | some (m, t) =>
    (s.jobs.filter (fun x => x.kind == .dup m t)).foldl (fun s x =>
      match findTag s m t with
      | some e => let r := replayOf e; answer { s with jobs := s.jobs.filter (fun y => y != x) } x.line x.slot r.1 r.2
      | none => s) s

/-- The first job of a kind gets its reply. -/
def finishJob (s : State) (p : JobKind → Bool) (body : List Line) (fin : Line) : State :=
  match s.jobs.find? (fun j => p j.kind) with
  | some j => completeJob s j body fin
  | none => s

/-- Every job of a kind gets the same reply. -/
def finishJobs (s : State) (p : JobKind → Bool) (body : List Line) (fin : Line) : State :=
  (s.jobs.filter (fun j => p j.kind)).foldl (fun s j => completeJob s j body fin) s

/-- R33 | the commands in progress of a deckle are abandoned without a reply -/
def dropJobs (s : State) (p : JobKind → Bool) : State :=
  (s.jobs.filter (fun j => p j.kind)).foldl (fun s j =>
    let s := { s with jobs := s.jobs.filter (fun x => x != j) }
    let s := match j.tag with
      | some (m, t) => setTags s m ((getTags s m).filter (fun e => e.tag != t))
      | none => s
    modLn s j.line (fun x => { x with slots := x.slots.filter (fun y => y.id != j.slot) })) s

/-- R14 and others: whether some job of a kind is outstanding -/
def hasJob (s : State) (p : JobKind → Bool) : Bool := s.jobs.any (fun j => p j.kind)

/-! ### Sessions (R112 to R115) -/

/-- R173, R524 | the HELD line of a deckle -/
def heldLine (d : Nat) (y : HeldWhy) : Line := [w "!NOTE", dTok d, w "HELD", kw "REASON" y.name] ++ y.details

/-- R156 | a deckle becomes HELD for a reason, its seal cleared -/
def holdDeckle (s : State) (d : Nat) (y : HeldWhy) : State :=
  setSt (modDk s d (fun k => { k with why := some y, sealN := none })) d .held

/-- R156, R173 | a tenant session ends: an OPEN deckle without seal is HELD REASON=SESSION -/
def tenantGone (s : State) (r : Role) : State :=
  match r with
  | .tenant d =>
    let k := getDk s d
    if k.st = .opened ∧ k.sealN = none then
      holdDeckle (queueEv (evtRaise s (.deckle d) .note) d true .note (heldLine d .session)) d .session
    else s
  | _ => s

/-- R46, R114, R115 | a session ends: its role ends, replies still open are only stored, lines not started are discarded, a LOGIN RESP
not yet answered has failed (log 92), what waited for XON goes out, and the line is Anonymous and typed, open to a new session while its
host stays (log 88) -/
def endSession (s : State) (l : Nat) : State :=
  if (getLn s l).up then
    let s := resumeOut s l
    let x := getLn s l
    let s := { s with jobs := (s.jobs.filter (fun j => !(j.line == l && match j.kind with | .dup _ _ => true | _ => false))).map
                        (fun j => if j.line == l then { j with slot := 0 } else j) }
    let s := finishJobs s (fun k => k == .login l) [] e401
    let s := setLn s l { up := true, baud := x.baud, baudNext := x.baudNext, nslot := x.nslot, tx := x.tx, rxT := s.wall }
    tenantGone s x.role
  else s

/-- What waits for XON on a line is never sent. -/
def dropOut (s : State) (l : Nat) : State := modLn s l (fun x => { x with outw := [] })

/-- R113 | the host of a line has gone: its session ends, and none exists until DTR is set again -/
def closeLine (s : State) (l : Nat) : State := modLn (endSession (dropOut s l) l) l (fun x => { x with up := false })

/-- R113 | every session ends, and no session exists -/
def dropSessions (s : State) : State := lineNos.foldl closeLine s

/-! ### A command line (R122) -/

/-- What a command does when its checks pass: reply now, reply later, or reply at a time of its own (LOGIN RESP). -/
inductive Ans where
  | now (body : List Line) (fin : Line)
  | later (k : JobKind) (late : Option Int := none)
  | silent
deriving DecidableEq, Repr

abbrev Body := State → Res (State × Ans)

/-- A reply with no body lines. -/
def ok (s : State) (fin : Line) : Res (State × Ans) := .ok (s, .now [] fin)
/-- A reply with body lines. -/
def okBody (s : State) (b : List Line) (fin : Line) : Res (State × Ans) := .ok (s, .now b fin)

/-- R29 | a line whose MAC is wrong or missing -/
def badMac (s : State) (l : Nat) : State :=
  let x := getLn s l
  match x.sm with
  | none => s
  | some m =>
    let (n, s) := newSlot (setLn s l { x with sm := some { m with bad := m.bad + 1 } }) l
    let s := answer s l n [] e405
    if 3 ≤ m.bad + 1 then endSession s l else s

/-- R29 | whether a line's MAC is there and right under the host counter -/
def macOk (x : LineSt) (text : List Nat) : Bool :=
  match x.sm with
  | none => true
  | some m => let p := sealParts text; p.2 == some (lineMac m.key m.qh 0x48 p.1)

/-- R29 | a line with a right MAC advances the host counter -/
def macTake (x : LineSt) : LineSt :=
  match x.sm with
  | none => x
  | some m => { x with sm := some { m with qh := m.qh + 1, bad := 0 } }

/-- R29, R145 | the MACs of the lines of a block, in order: each right one advances the host counter, a wrong or missing one is
answered E405; whether one was wrong -/
def blkMacs (s : State) (l : Nat) : List BlkRow → State × Bool
  | [] => (s, false)
  | r :: t =>
    if macOk (getLn s l) r.text then blkMacs (modLn s l macTake) l t
    else ((blkMacs (badMac s l) l t).1, true)

/-- R29, R143, R144 | lines that are discarded up to an END line: their MACs count, and END ends the discarding -/
def discard (s : State) (l : Nat) : List BlkRow → State
  | [] => s
  | r :: t =>
    let x := getLn s l
    if macOk x r.text then
      let word := (tokens (if x.sm.isSome then (sealParts r.text).1 else r.text))[0]?
      discard (modLn s l (fun x => { macTake x with rxT := s.wall, part := [],
                                                    skip := x.skip && !(word.map (fun t => t.map upper) == some [69, 78, 68]) })) l t
    else discard (badMac s l) l t

/-- The checks 6, 7 and 8 of R122, and the refusal of a form that the command does not define. -/
def precheck (f : Form) (h : Hdr) (s : State) : Res Unit := do
  let x := getLn s h.line
  need (!x.machine || f.tagFree || (lineTag h.text).isSome) e428
  need ((wordRoles f.word).contains x.role.kind) e403
  need (h.fault.isSome || f.roles.contains x.role.kind) e403
  need (!x.prov || f.prov) e403
  need (moduleOk s f.word) e503
  match h.fault with | some p => .error (e400 p) | none => pure ⟨⟩

/-- R413 | a refusal that names a double-bit error is also told to the owner, without its address -/
def errNote (s : State) (e : Line) : State :=
  match e with
  | c :: _ :: b :: _ => if c = w "E437" then ownerEvent s .note [w "F-BANK", b] else s
  | _ => s

/-- A command begins executing: checks 4 to 11, its effect, and its reply in its place. -/
def start (s : State) (pre : State → Res Unit) (h : Hdr) (extra : List Nat) (slot : Nat) (body : Body) : State :=
  let l : Nat := h.line
  let role := (getLn s l).role
  let m := tagMemOf l role
  let text := normText h.text ++ extra
  let refuse := fun (s : State) (e : Line) =>
    match lineTag h.text with
    | some t => answer (endTag (beginTag s m t text) m t [] e) l slot [] e
    | none => answer s l slot [] e
  let go := fun (s : State) =>
    match (do pre s; body s) with
    | .error e => refuse (errNote s e) e
    | .ok (s', .now b fin) =>
      match lineTag h.text with
      | some t => answer (endTag (beginTag s' m t text) m t b fin) l slot b fin
      | none => answer s' l slot b fin
    | .ok (s', .later k late) =>
      let s' := match lineTag h.text with | some t => beginTag s' m t text | none => s'
      { s' with jobs := s'.jobs ++ [{ kind := k, line := l, slot := slot, tag := (lineTag h.text).map (fun t => (m, t)), late := late }] }
    | .ok (s', .silent) => s'
  match lineTag h.text with
  | none => go s
  | some t =>
    match findTag s m t with
    | none => go s
    | some e =>
      if e.text != text then answer s l slot [] e409
      else if e.reply.isNone then { s with jobs := s.jobs ++ [{ kind := .dup m t, line := l, slot := slot }] }
      else let r := replayOf e; answer s l slot r.1 r.2

/-! ### Lines that wait (R123, R125) -/

/-- R123 | the line received that begins next on a line, its place at the head of the order of replies: its number of arrival, its
place and its command -/
def heldOf (x : LineSt) : Option (Nat × Nat × Instr) :=
  match x.slots, x.held with
  | y :: _, (n, c) :: _ => if y.id == n then some (y.seq, n, c) else none
  | _, _ => none

/-- The lines that may begin, each with the number of its line. -/
def heldReady (s : State) : List (Nat × Nat × Nat × Instr) := lineNos.filterMap (fun l => (heldOf (getLn s l)).map (fun e => (l, e)))

/-- R123, R125 (log 3) | of the lines that may begin, the one that arrived first, with its command taken from its list -/
def heldNext (s : State) : Option (Instr × State) :=
  match heldReady s with
  | [] => none
  | x :: r =>
    let e := r.foldl (fun a b => if b.2.1 < a.2.1 then b else a) x
    some (e.2.2.2, { flowControl (modLn s e.1 (fun x => { x with held := x.held.drop 1 })) e.1 with resume := some e.2.2.1 })

/-! ### Arrival (R122) -/

/-- R139 | a line that check 3 refuses; the reply to a tagged one is stored, where its tag is new -/
def refuseForm (s : State) (h : Hdr) (e : Line) : State :=
  let l : Nat := h.line
  let (n, s) := newSlot s l
  let m := tagMemOf l (getLn s l).role
  match lineTag h.text with
  | none => answer s l n [] e
  | some t =>
    if (findTag s m t).isSome then answer s l n [] e
    else answer (endTag (beginTag s m t (normText h.text)) m t [] e) l n [] e

/-- Checks 1 to 3 of R122 as the line arrives, with the lines of its block, and its place in the order of replies; `go` begins its
execution, with the header as its command reads it. A line that finds its session busy, or another line due before it, is held (R123,
R125), unless it overtakes (R124). -/
def arrive (s : State) (c : Instr) (h : Hdr) (blk : List BlkRow) (overtakes : Bool) (go : Hdr → State → Nat → State) : State :=
  let l : Nat := h.line
  match s.resume with
  | some n => go (h.plain (placeAt s l n).sealed) { s with resume := none } n
  | none =>
    let s := advance s h.dt
    let x := getLn s l
    let p := h.plain x.sm.isSome
    if !x.up then s
    else if x.skip then discard s l (⟨h.text⟩ :: blk)
    else
      let s := setLn s l { x with rxT := s.wall, part := [], crT := none }
      let refused := fun (s : State) => (blkMacs s l blk).1
      if 1024 < p.text.length then let (n, s) := newSlot s l; refused (answer s l n [] e413)
      else if !macOk x h.text then refused (badMac s l)
      else
        let s := modLn s l macTake
        if !lineChars h.text then refused (refuseForm s p e400bare)
        else match badTag p.text with
          | some k => refused (refuseForm s p (e400 k))
          | none =>
            if (tokens p.text).isEmpty then s
            else
              let waits := (busy (getLn s l) || !(heldReady s).isEmpty) && !overtakes
              let full := waits && l == 0 && decide (4096 < bufBytes (getLn s l) + h.text.length + 1)
              let (n, s) := newSlot s l (h.text.length + 1)
              let r := blkMacs s l blk
              let s := r.1
              if r.2 && (placeAt s l n).id != n then s
              else
                let s := if r.2 then modLn s l (fun x => { x with slots := x.slots.map (fun y => if y.id == n then { y with lost := true } else y) }) else s
                if full then answer s l n [] e431
                else if waits then flowControl (modLn s l (fun x => { x with held := x.held ++ [(n, c)] })) l
                else go p s n

/-- A command line without a block. -/
def noram (s : State) (c : Instr) (f : Form) (h : Hdr) (body : Body) : Out :=
  .next (arrive s c h [] false (fun p s n => start s (precheck f p) p [] n body))

/-- R124 | a command line that executes ahead of the session's earlier lines -/
def noramFirst (s : State) (c : Instr) (f : Form) (h : Hdr) (body : Body) : Out :=
  .next (arrive s c h [] true (fun p s n => start s (precheck f p) p [] n body))

/-! ### DATA blocks (R141 to R144) -/

/-- R141 | payload lines: ⌈n / 57⌉, each of 57 bytes but the last -/
def blkRows (n : Nat) : Nat := (n + 56) / 57

/-- R141 | the bytes that the i-th payload line carries -/
def blkRowBytes (n i : Nat) : Nat := if i + 1 < blkRows n then 57 else n - 57 * (blkRows n - 1)

/-- R144 | the bytes of the payload lines, or the first fault -/
def blkDecode (n : Nat) : Nat → List BlkRow → Res (List Nat)
  | _, [] => .ok []
  | i, r :: t =>
    if blkRows n ≤ i then .error e415
    else match b64Dec (blkRowBytes n i) r.text with
      | some b => do let rest ← blkDecode n (i + 1) t; pure (b ++ rest)
      | none => .error e415

/-- R144 | the payload of a block that ends with its END line -/
def blkBytes (b : Blk) : Res (List Nat) := do
  let p ← blkDecode b.hdr.n 0 b.rows
  need (b.rows.length = blkRows b.hdr.n) e415
  need (crc32 p = b.crc) e416
  pure p

/-- The rows of a block, header and END line among them. -/
def blkAll (b : Blk) : List BlkRow := [b.hdr.row] ++ b.rows ++ [b.fin]

/-- R145 | the payload lines as the block holds them: without their suffixes in SEAL mode -/
def rowsPlain (sealed : Bool) (l : List BlkRow) : List BlkRow := if sealed then l.map (fun r => { text := (sealParts r.text).1 }) else l

/-- R143 | a command with a block: checks 1 to 9 as its line arrives, execution after a valid END line; the lines up to END belong to it
also where it is refused before its block (log 93) -/
def noramBlk (s : State) (c : Instr) (f : Form) (h : Hdr) (b : Blk) (pre : State → Res Unit) (body : List Nat → Body) : Out :=
  .next (arrive s c h (blkAll b) false (fun p s n =>
    let y := placeAt s h.line n
    start s (precheck f p) p (blkText b) n (fun s => do
      pre s
      need (1 ≤ b.hdr.n ∧ b.hdr.n ≤ 1048576) (e419 2)
      need (!y.lost) e415
      let q ← blkBytes { b with rows := rowsPlain y.sealed b.rows }
      body q s)))

/-- Bytes in runs of 57. -/
def chunk57 : Nat → List Nat → List (List Nat)
  | 0, _ => []
  | f + 1, l => if l.isEmpty then [] else l.take 57 :: chunk57 f (l.drop 57)

/-- R141, R145 | a block that the module sends -/
def blkLines (p : List Nat) : List Line :=
  [[w "DATA", { val := [.d p.length] }]] ++ (chunk57 p.length p).map (fun r => [{ val := [.raw (b64Enc r)] }]) ++
    [[w "END", { val := [.hx (crc32 p) 8] }]]

/-! ### The session's own deckle -/

/-- The deckle a tenant session acts in. -/
def myDk (s : State) (h : Hdr) : Nat := match (getLn s h.line).role with | .tenant d => d | _ => 0

/-- R157 | the deckle state lets the command pass -/
def inSt (k : Deckle) (l : List DkState) : Res Unit := need (l.contains k.st) (e420 k)

/-- Every state but CLOSED. -/
def anySt : List DkState := [.opened, .held, .zeroing, .armed, .running, .stopped, .faulted]

/-- R585 | the deckle holds every unit named -/
def holds (k : Deckle) (u : UKind) (l : List Nat) : Res Unit := need (l.all (fun n => (k.grant.of u).contains n)) e403

/-- R585 | a list of units of one kind, at a token: its form, its range, and the deckle's grant -/
def unitsOf (k : Deckle) (pos : Nat) (u : UKind) (l : List URange) : Res (List Nat) := do
  let x ← expand pos u l
  holds k u x
  pure x

/-- R102, R103 | a wait for WARM is cancelled -/
def cancelWarm (s : State) (d : Nat) (cause : String) : State :=
  if (getDk s d).waitWarm then
    event (modDk s d (fun k => { k with waitWarm := false })) d .note [w "WARM-WAIT-CANCELLED", kw "CAUSE" cause]
  else s

/-- R156, R103 | an edit of the working furnish clears the seal -/
def clearSeal (s : State) (d : Nat) (cause : String) : State := cancelWarm (modDk s d (fun k => { k with sealN := none })) d cause

/-- R167 | an edit of the furnish: of the working furnish in OPEN and HELD, of the shadow otherwise; `item` names the change
that a press may not make. The reply's last words come with the new state. -/
def edit (s : State) (d : Nat) (item : Option String) (f : Furnish → Furnish) : Res (State × Line) :=
  let k := getDk s d
  if k.st = .opened ∨ k.st = .held then .ok (clearSeal (modDk s d (fun k => { k with work := f k.work })) d "EDIT", [])
  else if k.st.shadowed then
    let s := modDk s d (fun k => { k with shad := f k.shad, dirty := true, need := k.need ++ item.toList })
    .ok (s, match item with | some _ => [w "SHADOW", w "NEEDSTOP"] | none => [w "SHADOW"])
  else .error (e420 k)

/-- R462 | the item of a change to the LIST or COUNT of an AUX channel, which PRESS refuses while the channel may not take it -/
def auxList : String := "AUXLIST"

/-- R167, R462 | an edit of the LIST or COUNT of an AUX channel, noted for PRESS where it goes to the shadow -/
def editList (s : State) (d : Nat) (f : Furnish → Furnish) : Res (State × Line) := do
  let (s, t) ← edit s d none f
  pure (modDk s d (fun k => if k.st.shadowed then { k with need := k.need ++ [auxList] } else k), t)

/-- R280, R311 | a write to banks or slices: at once in OPEN and HELD, staged otherwise -/
def writeOrStage (s : State) (d : Nat) (item : String) (n : Nat) (x : Staged) (now : State → State) : Res (State × Line) :=
  let k := getDk s d
  if k.st = .opened ∨ k.st = .held then .ok (clearSeal (now s) d "EDIT", [])
  else if k.st.shadowed then do
    need (k.stagedN + n ≤ 262144) e429stage
    pure (modDk s d (fun k => { k with staged := k.staged ++ [x], stagedN := k.stagedN + n, dirty := true, need := k.need ++ [item] }),
      [w "SHADOW", w "NEEDSTOP"])
  else .error (e420 k)

/-- The furnish that edits and FURNISH SHOW with SHADOW act on: the working furnish, or the shadow. -/
def Deckle.editing (k : Deckle) : Furnish := if k.st = .opened ∨ k.st = .held then k.work else k.shad

/-- R167 | the furnish that edits act on, changed. -/
def modEditing (s : State) (d : Nat) (g : Furnish → Furnish) : State :=
  modDk s d (fun k => if k.st = .opened ∨ k.st = .held then { k with work := g k.work } else { k with shad := g k.shad })

/-- The furnish in force: the working furnish in OPEN and HELD, the active one otherwise. -/
def Deckle.inForce (k : Deckle) : Furnish := if k.st = .opened ∨ k.st = .held then k.work else k.act

/-- R129 | an edit of a line's own settings -/
def modSession (s : State) (h : Hdr) (f : LineSt → LineSt) : State := modLn s h.line f

end Sys2Proof.Machine
end

