-- ==== Sys2Proof/Machine/Profile.lean ====
section
/-! DEFINITION. The set-point profile of a DPS channel: pieces of constant bend, planned from a present value and slew to a
target, and run in microseconds. -/

namespace Sys2Proof.Machine

/-- A piece of the profile: how long it lasts in us, its bend in V/us2, and the slew at its start in V/us. -/
abbrev Piece := Rat × Rat × Rat

/-- A square root, rounded down to 60 binary places; exact where it is rational with that many (log 18). -/
def ratSqrt (q : Rat) : Rat :=
  if q ≤ 0 then 0
  else
    let r := Nat.sqrt (q.num.natAbs * q.den)
    if r * r = q.num.natAbs * q.den then (r : Rat) / q.den
    else (Nat.sqrt ((q * 2 ^ 120).floor.natAbs) : Rat) / 2 ^ 60

/-- R426 | pieces from a slew v ≥ 0 toward a target at a distance d > 0, under slew limit s and bend b, in direction g -/
def towardPieces (v d s b g : Rat) : List Piece :=
  let p2 := b * d + v * v / 2
  if s * s ≤ p2 then
    let d1 := (s * s - v * v) / (2 * b)
    let d3 := s * s / (2 * b)
    [((s - v) / b, g * b, g * v), ((d - d1 - d3) / s, 0, g * s), (s / b, -g * b, g * s)]
  else
    let p := ratSqrt p2
    [((p - v) / b, g * b, g * v), (p / b, -g * b, g * p)]

/-- R426, R427 | the pieces from value r and slew v to a target -/
def planProfile (r v tgt s : Rat) (bend : Option Rat) : List Piece :=
  match bend with
  | none => if r = tgt then [] else
      let g : Rat := if r < tgt then 1 else -1
      [((tgt - r) * g / s, 0, g * s)]
  | some b =>
    let g : Rat := if r < tgt then 1 else -1
    let d := (tgt - r) * g
    let a := if v < 0 then -v else v
    if r = tgt ∧ v = 0 then []
    else if 0 ≤ v * g ∧ a * a / (2 * b) ≤ d then (towardPieces a d s b g).filter (fun p => p.1 ≠ 0)
    else
      let h : Rat := if v < 0 then -1 else 1
      let r2 := r + h * (a * a / (2 * b))
      let g2 : Rat := if r2 < tgt then 1 else -1
      (a / b, -h * b, v) :: (if r2 = tgt then [] else (towardPieces 0 ((tgt - r2) * g2) s b g2).filter (fun p => p.1 ≠ 0))

/-- R439 | the point at which the profile comes to rest when it brakes at once -/
def stopPoint (r v : Rat) (bend : Option Rat) : Rat :=
  match bend with
  | none => r
  | some b => r + (if v < 0 then -1 else 1) * (v * v / (2 * b))

/-- How long the pieces last, in us. -/
def profTime (l : List Piece) : Rat := (l.map (fun p => p.1)).sum

/-- The value, slew and pieces left after a time; at the end the profile rests at its target. -/
def runProfile (tgt : Rat) : List Piece → Rat → Rat → Rat × Rat × List Piece
  | [], _, _ => (tgt, 0, [])
  | (d, a, v) :: l, r, t =>
    if t < d then (r + v * t + a * t * t / 2, v + a * t, (d - t, a, v + a * t) :: l)
    else runProfile tgt l (r + v * d + a * d * d / 2) (t - d)

/-- A time in us as ticks, rounded up. -/
def usTicks (q : Rat) : Nat := (q * 1250).ceil.toNat

/-- R422 | the source clamp: the range's full scale where none is set -/
def DpsCfg.src (c : DpsCfg) : Rat := c.isrc.getD c.range
/-- R422 | the sink clamp: the range's full scale where none is set, 0.3 A on 1.5A -/
def DpsCfg.snk (c : DpsCfg) : Rat := c.isnk.getD (if c.range = 3 / 2 then 3 / 10 else c.range)

/-- R426 | the profile run on to a timebase count -/
def Dps.upto (x : Dps) (t : Nat) : Dps :=
  if t ≤ x.pt then x
  else if x.segs.isEmpty then { x with pt := t }
  else
    let p := runProfile x.tgt x.segs x.r (((t - x.pt : Nat) : Rat) / 1250)
    { x with pt := t, r := p.1, sl := p.2.1, segs := p.2.2,
             arrived := if p.2.2.isEmpty then x.pt + usTicks (profTime x.segs) else x.arrived }

/-- R427 | a channel takes a new target -/
def retarget (x : Dps) (tgt : Rat) : Dps :=
  let l := planProfile x.r x.sl tgt x.cfg.slew x.cfg.bend
  { x with tgt := tgt, segs := l, arrived := if l.isEmpty then x.pt else x.arrived,
           sl := if x.cfg.bend.isNone ∧ x.r = tgt then 0 else x.sl }

/-- R426 | the profile is at rest -/
def Dps.rest (x : Dps) : Bool := x.segs.isEmpty

end Sys2Proof.Machine
end

