-- ==== Sys2Proof/Machine/AuxOps.lean ====
section
/-! DEFINITION. The stimulus generators: list entries, waveforms, the code that is due, and how an entry hands over. -/

namespace Sys2Proof.Machine

/-- R449 | a parameter-list entry -/
structure AuxEntry where
  ftw : Nat := 0
  phase : Nat := 0
  amp : Int := 0
  ofs : Int := 0
  dur : Nat := 0
  wave : Nat := 0
  mark : Bool := false
  /-- bits that the table does not name -/
  rest : Nat := 0
deriving DecidableEq, Repr

/-- The two's complement value of an n-bit number. -/
def signed (n v : Nat) : Int := if v < 2 ^ (n - 1) then v else (v : Int) - 2 ^ n

/-- The n-bit number of a two's complement value. -/
def unsigned (n : Nat) (v : Int) : Nat := (v % (2 ^ n : Int)).toNat

/-- R449 | entry e of a list -/
def auxEntry (l : Mem) (e : Nat) : AuxEntry :=
  let a := 16 * e
  let b := mnum l (a + 15) 1
  { ftw := mnum l a 6, phase := mnum l (a + 6) 2, amp := signed 16 (mnum l (a + 8) 2), ofs := signed 16 (mnum l (a + 10) 2),
    dur := mnum l (a + 12) 3, wave := b % 4, mark := b / 4 % 2 = 1, rest := b / 8 }

/-- R449 | the sixteen bytes of an entry -/
def auxBytes (x : AuxEntry) : List (BitVec 8) :=
  leBytes 6 x.ftw ++ leBytes 2 x.phase ++ leBytes 2 (unsigned 16 x.amp) ++ leBytes 2 (unsigned 16 x.ofs) ++ leBytes 3 x.dur ++
    leBytes 1 (x.wave + (if x.mark then 4 else 0) + 8 * x.rest)

/-- Round half to even. -/
def roundEven (q : Rat) : Int :=
  let f := q.floor
  let d := q - f
  if d < 1 / 2 then f else if 1 / 2 < d then f + 1 else if f % 2 = 0 then f else f + 1

/-- Twice pi to 80 binary places (log 17). -/
def twoPi : Int := 7595904947272677161575987

/-- The Taylor series of the sine in fixed point with 80 binary places: next term, its index, terms left (log 17). -/
def sineSum : Nat → Int → Int → Int → Int
  | 0, _, _, _ => 0
  | f + 1, x2, t, k => t + sineSum f x2 (-(t * x2 / 2 ^ 80) / ((k + 1) * (k + 2))) (k + 2)

/-- The sine of i/65,536 of a cycle, with 80 binary places, by symmetry from the first quadrant. -/
def sineFix (i : Nat) : Int :=
  let j := i % 65536
  let q := j / 16384
  let r := j % 16384
  let m := if q % 2 = 0 then r else 16384 - r
  let v : Int := if m = 16384 then 2 ^ 80 else
    let x := twoPi * m / 65536
    sineSum 20 (x * x / 2 ^ 80) x 1
  if q < 2 then v else -v

/-- R450 | AMP times the waveform value at phase i/65,536, for SINE, TRI and SAW -/
def waveVal (wave i : Nat) (amp : Int) : Rat :=
  let t : Rat := (i : Rat) / 65536
  match wave with
  | 0 => (amp * sineFix i : Int) / (2 ^ 80 : Int)
  | 1 => amp * (if i < 16384 then 4 * t else if i < 49152 then 2 - 4 * t else 4 * t - 4)
  | _ => amp * (if i < 32768 then 2 * t else 2 * t - 2)

/-- R451 | one step of the generator: the new bit and the register after it -/
def prbsStep (r : Nat) : Nat × Nat :=
  let b := (r / 2 ^ 30 + r / 2 ^ 27) % 2
  (b, (2 * r + b) % 2 ^ 31)

/-- R451 | a number of steps: the bits as a number, first bit highest, and the register -/
def prbsRun : Nat → Nat → Nat → Nat × Nat
  | 0, acc, r => (acc, r)
  | n + 1, acc, r => let p := prbsStep r; prbsRun n (2 * acc + p.1) p.2

/-- The register after a number of samples. -/
def prbsSkip : Nat → Nat → Nat
  | 0, r => r
  | n + 1, r => prbsSkip n (prbsRun 16 0 r).2

/-- R450, R451 | the code of sample j of an entry that began with an accumulator and a register -/
def auxSample (x : AuxEntry) (acc prbs j : Nat) : Int :=
  if x.wave = 3 then
    let n := signed 16 (prbsRun 16 0 (prbsSkip j prbs)).1
    x.ofs + roundEven ((x.amp * n : Int) / (32768 : Int))
  else x.ofs + roundEven (waveVal x.wave ((acc + j * x.ftw) % 2 ^ 48 / 2 ^ 32) x.amp)

/-- R450 | samples of an entry -/
def auxLen (x : AuxEntry) : Nat := 32 * x.dur

/-- The sample of the entry that plays at a tick. -/
def auxIndex (a : Aux) (t : Nat) : Nat := min ((t - a.t0) / 4) (auxLen (auxEntry a.cfg.list a.ent) - 1)

/-- R446, R459 | the code at the DAC: code 0 during a span dwell -/
def auxCode (a : Aux) (t : Nat) : Int :=
  if a.dwell.isSome then 0
  else if a.st = .playing then auxSample (auxEntry a.cfg.list a.ent) a.acc a.prbs (auxIndex a t)
  else a.code

/-- R448 | the code that the DAC leaves at a sample tick at which something other than the next sample of an entry changes it -/
def auxLeaves (a : Aux) (t : Nat) : Aux := { a with prev := auxCode a (t - 4), prevT := t }

/-- R448 | the offset-binary form of a code -/
def offsetBinary (c : Int) : Nat := unsigned 16 c ^^^ 0x8000

/-- R448 | a major transition: a change in bits [15:12] of the offset-binary code -/
def majorTransition (c d : Int) : Bool := offsetBinary c / 2 ^ 12 != offsetBinary d / 2 ^ 12

/-- R448 | the code at the output of the track-and-hold so many picoseconds from a DAC update: at a major transition the code before it is
held for 2.0 ns about the update, and then the new code is released directly -/
def deglitched (c d : Int) (ps : Int) : Int := if ps < (if majorTransition c d then 1000 else 0) then c else d

/-- R446, R448 | the code at the output so many picoseconds from the DAC update of a sample tick -/
def auxOut (a : Aux) (t : Nat) (ps : Int) : Int := deglitched (if t = a.prevT then a.prev else auxCode a (t - 4)) (auxCode a t) ps

/-- R447 | volts of a code on a span, whose half-span is given in volts -/
def auxVolts (half : Rat) (c : Int) : Rat := c * half / 32768

/-- R452 | whether entry e of a list loads the accumulator and seeds the register, when it follows entry p -/
def auxReload (l : Mem) (p e : Nat) : Bool :=
  let x := auxEntry l p
  let y := auxEntry l e
  x.ftw != y.ftw || x.phase != y.phase

/-- R452 | the register when an entry seeds it -/
def auxSeed (x : AuxEntry) : Nat := 0x40000000 ||| x.phase

/-- R452, R454 | a list begins entry 0 at a tick -/
def auxBegin (a : Aux) (t : Nat) : Aux :=
  let x := auxEntry a.cfg.list 0
  { auxLeaves a t with st := .playing, ent := 0, t0 := t, acc := x.phase * 2 ^ 32, prbs := auxSeed x }

/-- R452 | the entry that plays hands over to entry e at the tick after its last sample -/
def auxNext (a : Aux) (e : Nat) : Aux :=
  let x := auxEntry a.cfg.list a.ent
  let y := auxEntry a.cfg.list e
  let t := a.t0 + 4 * auxLen x
  let b := auxLeaves a t
  if auxReload a.cfg.list a.ent e then { b with ent := e, t0 := t, acc := y.phase * 2 ^ 32, prbs := auxSeed y }
  else { b with ent := e, t0 := t, acc := (a.acc + auxLen x * x.ftw) % 2 ^ 48,
                prbs := if x.wave = 3 then prbsSkip (auxLen x) a.prbs else a.prbs }

/-- R456, R457 | play ends with a code held or code 0 -/
def auxStop (a : Aux) (zero : Bool) (t : Nat) : Aux :=
  { auxLeaves a t with st := .ended, code := if zero then 0 else auxCode { a with dwell := none } (t - 4), halt := none }

/-- R465 | FROZEN at the last code -/
def auxFreeze (a : Aux) (t : Nat) : Aux :=
  if a.st = .off then a else { a with st := .frozen, code := auxCode a t, starts := [], halt := none }

/-- R155, R465 | code 0, relay open, OFF -/
def auxOff (a : Aux) : Aux := { a with st := .off, code := 0, relay := false, starts := [], halt := none, dwell := none }

end Sys2Proof.Machine
end

