-- ==== Sys2Proof/Machine/TmuOps.lean ====
section
/-! DEFINITION. Time-measurement units: statistics, fits, records, and the window of the measurement pad. -/

namespace Sys2Proof.Machine

/-- R509 | the window of a TMU in the measurement pad -/
def tmuBase (n : Nat) : Nat := n * 2 ^ 13

/-- The square root of a quotient of naturals, to the nearest natural, half to even. -/
def sqrtEven (a b : Nat) : Nat :=
  let r := Nat.sqrt (a / b)
  let x := (2 * r + 1) * (2 * r + 1) * b
  if x < 4 * a then r + 1 else if x = 4 * a ∧ r % 2 = 1 then r + 1 else r

/-- R505 | the mean of x, to 1 fs, half to even; none where nothing has been measured -/
def tmuMean (x : Tmu) : Option Nat := if x.done = 0 then none else some (roundEven ((x.sx : Rat) / (x.done : Rat))).toNat

/-- R505 | the sample standard deviation of x, to 1 fs, half to even; none for fewer than two measurements -/
def tmuSd (x : Tmu) : Option Nat :=
  if x.done < 2 then none
  else some (sqrtEven (x.done * x.sxx - x.sx * x.sx) (x.done * (x.done - 1)))

/-- R509 | the STATE byte of the window -/
def tmuStateByte (s : State) (n : Nat) : State :=
  { s with mpad := mputNum s.mpad (tmuBase n + 0x2A) 1 (if (getTmu s n).busy then 1 else 0) }

/-- R509 | MIN, MAX and MEAN of the window while nothing has been measured: free values, since the spec states a pattern for SD
alone (log 27) -/
def tmuNoStats (s : State) : (Nat × Nat × Nat) × State :=
  let (i, s) := draw s
  let (j, s) := draw s
  let (k, s) := draw s
  (((Config.value i).toNat, (Config.value j).toNat, (Config.value k).toNat), s)

/-- R509 | the statistics, WRITE and STATE of the window -/
def tmuWindow (s : State) (n : Nat) : State :=
  let x := getTmu s n
  let (f, s) := if x.done = 0 then tmuNoStats s else ((0, 0, 0), s)
  let bytes := leBytes 4 x.done ++ leBytes 4 x.tos ++ leBytes 8 (x.mn.getD f.1) ++ leBytes 8 (x.mx.getD f.2.1) ++ leBytes 8 ((tmuMean x).getD f.2.2) ++
    leBytes 8 ((tmuSd x).getD (2 ^ 64 - 1)) ++ leBytes 2 x.wr ++ leBytes 1 (if x.busy then 1 else 0)
  { s with mpad := mput s.mpad (tmuBase n) bytes }

/-- R509 | the sixteen bytes of a record -/
def TmuRec.bytes (r : TmuRec) : List (BitVec 8) :=
  leBytes 8 (unsigned 64 r.val) ++ (if r.kind = 2 then leBytes 2 r.key ++ leBytes 4 r.m else leBytes 6 r.key) ++ leBytes 1 r.flags ++ leBytes 1 r.kind

/-- R510 | a record enters the ring, or is dropped while 504 are unread; the second component tells of the first loss in a run -/
def tmuStore (s : State) (n : Nat) (r : TmuRec) : State × Bool :=
  let x := getTmu s n
  if 504 ≤ x.recs.length then
    (setTmu s n { x with lost := x.lost + 1, lostF := true, fullSent := true }, !x.fullSent)
  else
    let r := if x.lostF then { r with flags := r.flags ||| 2 } else r
    let s := { s with mpad := mput s.mpad (tmuBase n + 0x80 + 16 * x.wr) r.bytes }
    (setTmu s n { x with recs := x.recs ++ [r], lostF := false, wr := (x.wr + 1) % 504 }, false)

/-- R509, R510 | the oldest records leave the ring, and their slots are empty (log 111) -/
def tmuTake (s : State) (n m : Nat) : State :=
  let x := getTmu s n
  let slot := fun (i : Nat) => (x.wr + 504 - x.recs.length + i) % 504
  { modTmu s n (fun x => { x with recs := x.recs.drop m }) with
      mpad := (List.range m).foldl (fun p i => mput p (tmuBase n + 0x80 + 16 * slot i + 15) [0]) s.mpad }

/-- R500 | the dead time of the primary interpolator, in fs -/
def deadTime (c : TmuCfg) : Nat := if c.ramp then 30000000 else 200000000

/-- R507 | sums over the stamps of a gate: of k, t, k squared and k times t -/
def gateSums (l : List (Nat × Nat)) : Nat × Nat × Nat × Nat :=
  l.foldl (fun a p => (a.1 + p.1, a.2.1 + p.2, a.2.2.1 + p.1 * p.1, a.2.2.2 + p.1 * p.2)) (0, 0, 0, 0)

/-- R507 | the slope and the intercept of the least-squares line through the stamps -/
def gateFit (l : List (Nat × Nat)) : Rat × Rat :=
  let m : Rat := l.length
  let (k, t, kk, kt) := gateSums l
  let den := m * kk - (k : Rat) * k
  let tau := (m * kt - (k : Rat) * t) / den
  (tau, ((t : Rat) - tau * k) / m)

/-- R507 | the frequency in uHz and the rms residual in fs, each to the nearest, half to even -/
def gateResult (l : List (Nat × Nat)) : Nat × Nat :=
  let (tau, t0) := gateFit l
  let ssr := l.foldl (fun (a : Rat) p => let e := (p.2 : Rat) - t0 - tau * p.1; a + e * e) 0
  ((roundEven ((10 ^ 21 : Nat) / tau)).toNat, sqrtEven ssr.num.toNat (ssr.den * l.length))

end Sys2Proof.Machine
end

