-- ==== Sys2Proof/Machine/Outputs.lean ====
section
/-! DEFINITION. Outputs and ends of runs: what pins, DPS and AUX channels, converters and TMUs take at rest, off, at a fault
and in SAFE; KEEPER; stops at a quire boundary; faults of a deckle; SAFE. -/

namespace Sys2Proof.Machine

/-! ### Units -/

/-- R366, R367 | the end of the dwells in progress on a pin; 0 when there is none -/
def Pin.dwellEnd (p : Pin) : Nat :=
  max (match p.dwell with | some (e, _) => e | none => 0) (match p.cdwell with | some (e, _) => e | none => 0)

/-- R360 | the driver state of a rest state -/
def Rest.drv : Rest → Drv | .hiz => .off | .low => .vil | .high => .vih | .term => .vtt

/-- R355, R360 | a pin takes a rest state; one that is off by F-PIN, or whose PMU acts, keeps its driver off -/
def pinRest (p : Pin) (r : Rest) : Pin :=
  if p.dead || p.px then { p with drv := .off, on := false, load := false }
  else { p with drv := r.drv, on := r != .hiz, load := false }

/-- R155, R374 | driver, load and PMU off; the DACs keep their codes -/
def pinOff (p : Pin) : Pin :=
  { p with drv := .off, on := false, load := false, cur := { p.cur with pmu := .off, load := false }, lq := [], dwell := none,
           cdwell := none, px := false, recon := none, last := none }

/-- R155, R68 | force switch open; the 100 ohm discharge as asked -/
def dpsOff (hundred : Bool) (x : Dps) : Dps :=
  { x with on := false, dis100 := hundred, segs := [], r := 0, sl := 0, tgt := 0, nextT := none, ffNext := none, ffCmd := none, dwell := none,
           div := 0, fb := false, f0 := false, late := none, ramp := false, clamp := .none, lim := false, learning := false }

/-- R69 | the module is WARMING or READY -/
def isUp (s : State) : Bool := s.md.st = .warming || s.md.st = .ready

/-- R68, R99, R155 | the 100 ohm discharge of a supply that is off: for a withdrawn one in operation, and as the condition of the module has
it otherwise -/
def dpsRest (s : State) (x : Dps) : Dps := dpsOff (if isUp s then x.wd else x.dis100) x

/-- R439, R215 | a fault elsewhere in the deckle: the profile comes to rest at its stopping point, f is 0 -/
def dpsHold (t : Nat) (x : Dps) : Dps :=
  let x := x.upto t
  if x.on && !x.fb then { retarget x (stopPoint x.r x.sl x.cfg.bend) with f0 := true, nextT := none } else { x with nextT := none }

/-- R481 | the conversion in progress completes, later entries are abandoned -/
def adcCut (a : Adc) : Adc :=
  { a with starts := [], timer := none, cfg := if a.busy then { a.cfg with count := a.ent + 1, rpt := a.scans + 1 } else a.cfg }

/-- R481 | idle, records kept -/
def adcIdle (a : Adc) : Adc := { a with busy := false, starts := [], timer := none }

/-- R516 | series or gate abandoned -/
def tmuAbandon (t : Tmu) : Tmu := { t with busy := false, startS := none, stamps := [], halting := false, ended := 0 }

/-- R516, R509 | the same, with the STATE byte of the window -/
def abandonTmu (s : State) (n : Nat) : State := tmuStateByte (modTmu s n tmuAbandon) n

/-! ### KEEPER (R63) -/

/-- R356 | a driving pin -/
def Pin.drives (p : Pin) : Bool := p.on || p.cur.pmu = .fv || p.cur.pmu = .fi

/-- R63 | a deckle's outputs are live or armed -/
def liveOut (s : State) (d : Nat) : Bool :=
  let k := getDk s d
  k.st = .armed || k.grant.ch.any (fun c => (getPin s c).drives) || k.grant.dps.any (fun n => (getDps s n).on) ||
    k.grant.aux.any (fun n => (getAux s n).relay)

/-- R63, R64 | KEEPER runs while some deckle's outputs are live or armed, from the first microsecond boundary on -/
def keep (s : State) : State :=
  if deckles.any (liveOut s) then
    if s.md.keeper then s else { s with md := { s.md with keeper := true, keeperT := ceilTo (now s + 1) 1250 } }
  else { s with md := { s.md with keeper := false } }

/-! ### All outputs of a deckle -/

/-- R155 | the outputs of a deckle off at once: pins, DPS on the 10 kohm, AUX, converters and TMUs idle -/
def outputsOff (s : State) (d : Nat) : State :=
  let g := (getDk s d).grant
  let s := forEach g.ch s (fun s c => modPin s c pinOff)
  let s := forEach g.dps s (fun s n => modDps s n (dpsRest s))
  let s := forEach g.aux s (fun s n => modAux s n auxOff)
  let s := forEach g.adc s (fun s n => modAdc s n adcIdle)
  keep (forEach g.tmu s abandonTmu)

/-- R68, R70 | the outputs of every unit in SAFE, in reset or after a power loss -/
def safeOutputs (s : State) : State :=
  let s := { s with pin := tmap s.pin pinOff,
                    dps := tmap s.dps (dpsOff true),
                    aux := tmap s.aux auxOff,
                    adc := tmap s.adc (fun a => { adcIdle a with store := [], lostF := false }),
                    tmu := tmap s.tmu (fun t => { tmuAbandon t with recs := [], lostF := false }),
                    mpad := [] }
  { s with md := { s.md with keeper := false }, ch := { s.ch with j4 := false },
           ph := { s.ph with toUp := [], foUp := [], mkUp := [] } }

/-- R518 | DPS, AUX, converters and TMUs of a deckle that a fault stops -/
def faultUnits (s : State) (d : Nat) : State :=
  let g := (getDk s d).grant
  let s := forEach g.dps s (fun s n => modDps s n (dpsHold (now s)))
  let s := forEach g.aux s (fun s n => modAux s n (fun a => auxFreeze a (now s)))
  let s := forEach g.adc s (fun s n => modAdc s n adcCut)
  forEach g.tmu s abandonTmu

/-- R481, R433 | converters of a deckle that stops without a fault: TIMER ceases; no quire is placed, so f is 0 -/
def stopUnits (s : State) (d : Nat) : State :=
  forEach (getDk s d).grant.adc s (fun s n => modAdc s n (fun a => { a with timer := none }))

/-- The rest state of a channel in the furnish in force. -/
def restOf (k : Deckle) (c : Nat) : Rest := (tget k.act.pins c {}).rest

/-- R347 | the deskew of a channel in the active furnish -/
def deskewOf (k : Deckle) (c : Nat) : Deskew := tget k.act.dsk c {}

/-- R343, R360 | every owned pin goes to its rest state at a boundary in fine steps: edges at or after the boundary are not
placed, and the change comes at the boundary plus DRV, or 512 steps after the last placed edge if that is later -/
def restPins (s : State) (d : Nat) (b : Nat) : State :=
  let k := getDk s d
  let kept := k.seq.edges.filter (fun e => e.t - (deskewOf k e.ch).drv < (b : Int))
  let rests := k.grant.ch.map (fun c =>
    let t := (b : Int) + (deskewOf k c).drv
    let l := (kept.filter (fun e => e.ch == c)).foldl (fun m e => max m (e.t + 512)) t
    ({ ch := c, t := l, lev := (restOf k c).drv } : Edge))
  let offs := (rests.filter (fun e => (getPin s e.ch).load)).map (fun e => ({ ch := e.ch, t := e.t, acts := false } : LoadSw))
  let s := modSeq s d (fun q => { q with edges := kept ++ rests, loads := q.loads.filter (fun e => e.t < (b : Int)) ++ offs })
  forEach k.grant.ch s (fun s c => modPin s c (fun p => pinRest p (restOf k c)))

/-! ### Stops -/

/-- R158 | the number of the last quire placed in the run -/
def lastPlaced (k : Deckle) : Option Nat := if k.seq.nextP = 0 then none else some (k.seq.nextP - 1)

/-- R260 | QUIRE=q, over 48 bits; NONE where no quire was placed (log 19). -/
def quireTok (q : Option Nat) : Tok := match q with | some n => kn "QUIRE" (n % 2 ^ 48) | none => kw "QUIRE" "NONE"

/-- R214 | SHEET=n, the last sheet placed, counted from the start of the run. -/
def sheetTok (q : Option Nat) : Tok := match q with | some n => kn "SHEET" (32 * (n % 2 ^ 48 + 1) - 1) | none => kw "SHEET" "NONE"

/-- R158 | the boundary at which a deckle that stops now stops: the placement time of the next unplaced quire, in ticks -/
def boundaryTick (k : Deckle) : Nat := k.seq.start / 1024

/-- The last quire and the boundary that the lines of a stop or fault carry. -/
def stopMark (s : State) (d : Nat) : Option Nat × Nat :=
  let k := getDk s d
  if k.st = .running then (lastPlaced k, boundaryTick k)
  else if k.st = .faulted then (k.lastQ, k.lastTb)
  else (k.lastQ, now s)

/-- R158, R214, R518 | the thread halts and every quire in the felts is purged unplaced -/
def haltThread (k : Deckle) : Deckle :=
  { k with thr := { k.thr with active := false, wait := none, mt := none, learn := [], lmask := 0 },
           seq := { k.seq with dreg := none, felts := [], cur := none, bad := none, marks := [], halting := false, stops := [],
                               lim2 := false, matched := none },
           press := none }

/-- R187, R462 | a PRESS whose deckle stops ends without its boundary; a PLAY that waited for it is refused where the deckle
has faulted -/
def pressFails (s : State) (d : Nat) (cause : String) : State :=
  let s := finishJobs s (fun k => k == .press d) [] (e424cause cause)
  if (getDk s d).st = .faulted then
    finishJobs s (fun k => match k with | .play e _ _ => e == d | _ => false) [] (e420 (getDk s d))
  else s

/-- R158, R159 | the line of a stop -/
def stopLine (k : Deckle) (d : Nat) : Line := [w "OK", w "STOP", dTok d, quireTok k.lastQ, kt "TB" k.lastTb]

/-- R159, R469 | DPS channels that ramp to 0 V, AUX channels to code 0 with their relays opening or, in a span dwell, left open, converters and TMUs idle, pins off -/
def beginOff (s : State) (d : Nat) : State :=
  let g := (getDk s d).grant
  let s := forEach g.ch s (fun s c => modPin s c pinOff)
  let s := forEach g.dps s (fun s n => modDps s n (fun x => if x.on then { retarget (x.upto (now s)) 0 with ramp := true, nextT := none } else x))
  let s := forEach g.aux s (fun s n => modAux s n (fun a =>
    { auxLeaves a (now s / 4 * 4 + 4) with code := 0, starts := [], halt := none, st := if a.st = .off then .off else .ended,
                                           dwell := a.dwell.map (fun e => (e.1, { e.2 with relay := false })) }))
  let s := forEach g.adc s (fun s n => modAdc s n adcCut)
  keep (forEach g.tmu s abandonTmu)

/-- R348, R351 | a deskew measurement of the deckle goes on -/
def tdrBusy (s : State) (d : Nat) : Bool := hasJob s (fun j => match j with | .deskew e _ => e == d | _ => false)

/-- R543 | a packet of a stock routine whose step count the spec does not state: a free value (log 5) -/
def traceFree (s : State) (d id : Nat) : State :=
  if (getDk s d).trace.routine then
    let (n, s) := draw s
    traceRoutine s d id (getDk s d).thr.ip ((Config.value n).toNat % 65536)
  else s

/-- R389 | a FAIL-OUT mapping change that waited for the boundary of the mapped deckle takes effect -/
def applyFailOut (s : State) : State :=
  match s.ph.foNext with
  | some m => { s with ph := { s.ph with fo := m, foNext := none } }
  | none => s

/-- Whether a stop cause is a fault. -/
def StopCause.isFault : StopCause → Bool | .fault _ _ => true | _ => false

/-- Whether a stop cause is STOP or STOP OFF (R391). -/
def isStop : StopCause → Bool | .stop | .off => true | _ => false

/-- R33 | zeroing begins: outputs off, the state ZEROING, banks on their way to the pool, sessions of the deckle still up -/
def beginZero (s : State) (d : Nat) : State :=
  let s := outputsOff s d
  let k := getDk s d
  let s := forEach k.grant.banks s (fun s b => modBk s b (fun x => if x.wd then x else { x with couch := some none }))
  setSt (modDk s d (fun k => { haltThread k with waitWarm := false, arming := none, ats := [] })) d .zeroing

/-- R33, R44 | a reclaim or a release waits for this deckle -/
def reclaiming (s : State) (d : Nat) : Bool := hasJob s (fun j => match j with | .zero e _ => e == d | .release _ => true | _ => false)

/-- R227 | some deckle still runs on towards the boundary at which a switch of the reference stops it -/
def switchWaits (s : State) : Bool := deckles.any (fun d => (getDk s d).st = .running && (getDk s d).seq.stops.contains .refswitch)

/-- R227 | once every deckle has stopped, the loop leaves its source for the one that it moves to, in holdover -/
def leaveSource (s : State) : State :=
  if s.rf.moving.isSome && s.rf.lock = .locked && !switchWaits s then { s with rf := { s.rf with lock := .holdover, hoT := some s.wall } }
  else s

/-- R158, R277, R518 | a deckle comes to its stop boundary: pins at rest, felts purged, STOPPED or FAULTED, and the lines and
replies that the causes bring -/
def stopDeckle (s : State) (d : Nat) : State :=
  let k := getDk s d
  let causes := k.seq.stops
  let fault := causes.any StopCause.isFault
  let q := lastPlaced k
  let t := boundaryTick k
  let s := restPins s d k.seq.start
  let s := modDk s d (fun k => { haltThread k with lastQ := q, lastTb := t })
  let s := modRes s d (fun r => { r with lastT := t })
  let s := if fault then faultUnits s d else stopUnits s d
  let s := traceFree s d (if fault then 0x202 else 0x201)
  let s := setSt s d (if fault then .faulted else .stopped)
  let s := if s.ph.fo = some d then applyFailOut s else s
  let s := causes.foldl (fun s c => match c with
    | .refswitch => event s d .note [w "STOPPED", kw "CAUSE" "REFSWITCH"]
    | .brokeStop => if causes.any isStop then s else event s d .done [w "BROKE-STOP", quireTok q, kt "TB" t]
    | _ => s) s
  let s := if causes.isEmpty && k.seq.halting then event s d .done [w "HALT", quireTok q] else s
  let s := pressFails s d (if fault then "FAULT" else "STOP")
  let s := finishJobs s (fun j => j == .stop d) [] (stopLine (getDk s d) d)
  let s := if hasJob s (fun j => j == .stopOff d) then beginOff s d else s
  keep (leaveSource (if reclaiming s d then beginZero s d else s))

/-! ### Faults of a deckle (R518, R519, R533 to R536) -/

/-- R534 | faults that a STOP at the same boundary hides -/
def FaultKind.hidden : FaultKind → Bool
  | .felt | .ref | .chain | .bank => true
  | _ => false

/-- R535 | the cause that is reported: the first detected, ranked when detected at one tick -/
def noteCause (k : Deckle) (f : FaultKind) (t : Nat) : Deckle :=
  match k.cause with
  | none => { k with cause := some f, causeT := t }
  | some c => if k.causeT = t ∧ f.rank < c.rank then { k with cause := some f } else k

/-- R191, R229 | the refusal of an ARM that a fault abandons (log 25) -/
def armLost (s : State) (d : Nat) (f : FaultKind) : Line :=
  match f with
  | .safe => e503
  | .ref | .chain => e433in s.rf.cls.name
  | _ => if (getDk s d).rearm then e420state "FAULTED" "REARM" else [w "E420", w "BADSTATE", kw "STATE" "FAULTED"]

/-- R191, R229 | an ARM in progress is abandoned by a fault -/
def abandonArm (s : State) (d : Nat) (f : FaultKind) : State :=
  if (getDk s d).arming.isSome then
    finishJob (modDk s d (fun k => { k with arming := none })) (fun j => j == .arm d) [] (armLost s d f)
  else s

/-- R518 | a fault of a deckle is detected. RUNNING: its line is queued, the thread halts and the deckle stops at its next
boundary. ARMED, STOPPED and in the course of an ARM: FAULTED at once. FAULTED: only the line (R536). Elsewhere: nothing. -/
def detect (s : State) (d : Nat) (f : FaultKind) (fields : Line) : State :=
  let k := getDk s d
  let m := stopMark s d
  let line := w f.name :: fields ++ quireTok m.1 :: (if f = .felt then [sheetTok m.1] else []) ++ [kt "TB" m.2]
  match (if k.arming.isSome then DkState.armed else k.st) with
  | .running =>
    if f.hidden && k.seq.stops.any (fun c => !c.isFault) then s
    else
      let s := event (modDk s d (fun k => noteCause k f (now s))) d .fault line
      modDk s d (fun k => { k with thr := { k.thr with active := false }, seq := { k.seq with stops := k.seq.stops ++ [.fault f fields] } })
  | .armed | .stopped =>
    let s := event (modDk s d (fun k => { noteCause k f (now s) with lastTb := m.2 })) d .fault line
    let s := abandonArm (faultUnits s d) d f
    let k := getDk s d
    let s := forEach k.grant.ch s (fun s c => modPin s c (fun p => pinRest p (restOf k c)))
    keep (pressFails (setSt (traceFree (modDk s d haltThread) d 0x202) d .faulted) d "FAULT")
  | .faulted => event s d .fault line
  | _ => s

/-! ### SAFE and resets (R70, R182, R520, R533) -/

/-- R182, R67 | a deckle stops at once: FAULTED, REASON=SAFE, when ARMED, RUNNING, STOPPED or in the course of an ARM; pending
actions and waits are discarded (R103, R151) -/
def safeDeckle (s : State) (d : Nat) : State :=
  let k := getDk s d
  let s := modDk s d (fun k => { k with waitWarm := false, ats := [] })
  if k.st.live || k.arming.isSome then
    let q := if k.st = .running then lastPlaced k else k.lastQ
    let t := now s
    let s := abandonArm s d .safe
    let s := modDk s d (fun k => { noteCause { haltThread k with lastQ := q, lastTb := t } .safe t with cause := some .safe })
    let s := modRes s d (fun r => { r with lastT := t })
    let s := setSt s d .faulted
    let s := pressFails s d "SAFE"
    let s := finishJobs s (fun j => j == .stop d) [] (stopLine (getDk s d) d)
    finishJobs s (fun j => j == .stopOff d) [] e503
  else s

/-- R530 | EVT lines mapped to a deckle source are released -/
def releaseEvt (s : State) : State :=
  { s with ph := { s.ph with evt := tmap s.ph.evt (fun e =>
      match e.src with | some (.deckle _) => { e with low := false, pulse := false } | _ => e) } }

/-- R80, R92, R520 | a module-scope fault: SAFE, with its line to every session and to CON -/
def enterSafe (s : State) (cause : String) (latch : Bool) (fields : Line) : State :=
  let s := { s with md := { s.md with st := .safe, cause := cause, latch := s.md.latch || latch,
                                      latchCause := if latch && !s.md.latch then cause else s.md.latchCause } }
  let s := safeOutputs (releaseEvt (deckles.foldl safeDeckle s))
  let s := deckles.foldl (fun s d =>
    if reclaiming s d && (getDk s d).st.isOpen then beginZero s d else s) s
  evtRaise (sendAll s ([w "!FAULT", w "STATE", w "SAFE", w cause] ++ fields)) .modl .fault

end Sys2Proof.Machine
end

