-- ==== Sys2Proof/Machine/Index.lean ====
section
/-! DEFINITION. The command index of R573 as HELP shows it (R578). -/

namespace Sys2Proof.Machine

/-- R574 | a row of the command index -/
structure IndexRow where
  word : String
  form : String
  roles : List RoleK
  role : String
  states : String
  mark : String
deriving DecidableEq, Repr

/-- R573 | part 1 of the index -/
def index1 : List IndexRow :=
  [⟨"ACCEPT", "ACCEPT DEGRADED u ...", [.o], "O", "module_in_DEGRADED-PENDING_only", "-"⟩,
   ⟨"ADC", "ADC ADCn fields", [.t], "T", "edit+", "-"⟩,
   ⟨"ADC", "ADC ADCn ENTRY i ...", [.t], "T", "edit+", "-"⟩,
   ⟨"ADC", "ADC SOURCES", [.t], "T", "any", "r"⟩,
   ⟨"ADC", "ADC ADCn SHOW", [.t], "T", "any", "r"⟩,
   ⟨"ADC", "ADC ADCn STATUS", [.t], "T", "any", "r"⟩,
   ⟨"ADC", "ADC ADCn START", [.t], "T", "ARMED,RUNNING,STOPPED", "s"⟩,
   ⟨"ADC", "ADC ADCn RESULTS", [.t], "T", "any", "-"⟩,
   ⟨"ADC", "ADC ADCn READ", [.t], "T", "any", "-"⟩,
   ⟨"ARM", "ARM", [.t], "T", "OPEN_with_the_seal_set;STOPPED", "s"⟩,
   ⟨"AT", "AT t ...", [.t], "T", "those_of_the_command,checked_when_due", "-"⟩,
   ⟨"AT", "AT +d ...", [.t], "T", "those_of_the_command,checked_when_due", "-"⟩,
   ⟨"AT", "AT CANCEL n", [.t], "T", "any", "-"⟩,
   ⟨"AUX", "AUX AUXn fields", [.t], "T", "edit+", "-"⟩,
   ⟨"AUX", "AUX AUXn ENTRY i ...", [.t], "T", "edit+", "-"⟩,
   ⟨"AUX", "AUX AUXn LIST FROM=i", [.t], "T", "edit+", "-"⟩,
   ⟨"AUX", "AUX AUXn LIST READ", [.t], "T", "any", "r"⟩,
   ⟨"AUX", "AUX AUXn SHOW", [.t], "T", "any", "r"⟩,
   ⟨"AUX", "AUX AUXn READ", [.t], "T", "any", "r"⟩,
   ⟨"AUX", "AUX AUXn PLAY", [.t], "T", "ARMED,RUNNING,STOPPED", "s"⟩,
   ⟨"AUX", "AUX AUXn HALT", [.t], "T", "ARMED,RUNNING,STOPPED", "s"⟩,
   ⟨"BANK", "BANK STRIPE list", [.t], "T", "edit+", "-"⟩,
   ⟨"BANK", "BANK POWER list p", [.t], "T", "per_R406", "-"⟩,
   ⟨"BANK", "BANK ZERO list", [.t], "T", "OPEN,HELD", "-"⟩]

/-- R573 | part 2 of the index -/
def index2 : List IndexRow :=
  [⟨"BANK", "BANK SHOW", [.t], "T", "any", "r"⟩,
   ⟨"BANK", "BANK POOL", [.o], "O", "-", "r"⟩,
   ⟨"BROKE", "BROKE", [.t], "T", "any", "r"⟩,
   ⟨"BROKE", "BROKE SHOW", [.t], "T", "any", "r"⟩,
   ⟨"BROKE", "BROKE READ", [.t], "T", "any", "r"⟩,
   ⟨"BROKE", "BROKE COUNT", [.t], "T", "any", "r"⟩,
   ⟨"CAPTURE", "CAPTURE", [.t], "T", "any", "r"⟩,
   ⟨"CAPTURE", "CAPTURE SHOW", [.t], "T", "any", "r"⟩,
   ⟨"CAPTURE", "CAPTURE READ", [.t], "T", "any", "r"⟩,
   ⟨"BROKE", "BROKE CLEAR", [.t], "T", "OPEN,HELD,STOPPED", "-"⟩,
   ⟨"CAPTURE", "CAPTURE CLEAR", [.t], "T", "OPEN,HELD,STOPPED", "-"⟩,
   ⟨"CHAIN", "CHAIN", [.o, .t], "O,T", "-", "r"⟩,
   ⟨"CHAIN", "CHAIN ROLE r", [.o], "O", "-", "-"⟩,
   ⟨"CHAIN", "CHAIN CAL", [.o], "O", "-", "-"⟩,
   ⟨"CHAIN", "CHAIN GROUP g ...", [.o], "O", "-", "-"⟩,
   ⟨"COUNT", "COUNT [Dd] [list]", [.t, .b], "T,B", "any", "r"⟩,
   ⟨"COUNT", "COUNT MODULE [list]", allRoles, "all", "-", "r"⟩,
   ⟨"COUNT", "COUNT CLEAR [list]", [.t], "T", "any", "-"⟩,
   ⟨"DATA", "DATA SHEETS ...", [.t], "T", "edit+", "-"⟩,
   ⟨"DATA", "DATA SHEET ...", [.t], "T", "edit+", "-"⟩,
   ⟨"DATA", "DATA READ ...", [.t], "T", "any", "r"⟩,
   ⟨"DECKLE", "DECKLE [d]", [.o], "O", "-", "r"⟩,
   ⟨"DECKLE", "DECKLE d OPEN ...", [.o], "O", "CLOSED", "-"⟩,
   ⟨"DECKLE", "DECKLE d KEY W C", [.o], "O", "CLOSED", "-"⟩]

/-- R573 | part 3 of the index -/
def index3 : List IndexRow :=
  [⟨"DECKLE", "DECKLE d GRANT ...", [.o], "O", "OPEN,HELD", "-"⟩,
   ⟨"DECKLE", "DECKLE d CLOSE", [.o], "O", "OPEN,HELD", "-"⟩,
   ⟨"DECKLE", "DECKLE d RECLAIM", [.o], "O", "any", "-"⟩,
   ⟨"DECKLE", "DECKLE REARM", [.o], "O", "-", "-"⟩,
   ⟨"DPS", "DPS DPSn fields", [.t], "T", "edit+", "-"⟩,
   ⟨"DPS", "DPS DPSn MATRIX ...", [.t], "T", "edit+", "-"⟩,
   ⟨"DPS", "DPS DPSn FFTABLE ...", [.t], "T", "edit+", "-"⟩,
   ⟨"DPS", "DPS DPSn TARGET=v", [.t], "T", "any;run-time_in_ARMED,RUNNING,STOPPED;shadow_edit_in_FAULTED,per_R425", "s"⟩,
   ⟨"DPS", "DPS DPSn FFOFS=n", [.t], "T", "any;run-time_in_ARMED,RUNNING,STOPPED;shadow_edit_in_FAULTED,per_R425", "s"⟩,
   ⟨"DPS", "DPS DPSn SHOW", [.t], "T", "any", "r"⟩,
   ⟨"DPS", "DPS DPSn READ", [.t], "T", "any", "r"⟩,
   ⟨"EVENT", "EVENT MAP ...", [.o], "O", "-", "-"⟩,
   ⟨"EVENT", "EVENT UNMAP line", [.o], "O", "-", "-"⟩,
   ⟨"EVENT", "EVENT CLEAR EVTn", [.o, .t], "O,T", "-", "-"⟩,
   ⟨"EVENT", "EVENT SHOW", [.o, .t], "O,T", "-", "r"⟩,
   ⟨"EVENT", "EVENT GRANT PORT", [.t], "T", "any", "-"⟩,
   ⟨"EVENT", "EVENT REVOKE PORT", [.t], "T", "any", "-"⟩,
   ⟨"FURNISH", "FURNISH SEAL", [.t], "T", "OPEN,HELD", "-"⟩,
   ⟨"FURNISH", "FURNISH LOAD n", [.t], "T", "OPEN,HELD", "-"⟩,
   ⟨"FURNISH", "FURNISH SAVE n", [.t], "T", "OPEN", "-"⟩,
   ⟨"FURNISH", "FURNISH START n", [.t], "T", "OPEN", "-"⟩,
   ⟨"FURNISH", "FURNISH DROP n", [.t], "T", "OPEN", "-"⟩,
   ⟨"FURNISH", "FURNISH SET ...", [.t], "T", "edit+", "-"⟩,
   ⟨"FURNISH", "FURNISH REVERT", [.t], "T", "ARMED,RUNNING,STOPPED,FAULTED", "-"⟩]

/-- R573 | part 4 of the index -/
def index4 : List IndexRow :=
  [⟨"FURNISH", "FURNISH SHOW ...", [.t], "T", "any", "r"⟩,
   ⟨"FURNISH", "FURNISH SLOTS", [.t], "T", "any", "r"⟩,
   ⟨"HELLO", "HELLO", allRoles, "all", "-", "r"⟩,
   ⟨"HELLO", "HELLO ECHO", allRoles, "all", "-", "r"⟩,
   ⟨"HELP", "HELP [word]", allRoles, "all", "-", "r"⟩,
   ⟨"IDENT", "IDENT", allRoles, "all", "-", "r"⟩,
   ⟨"IDENT", "IDENT CERT", allRoles, "all", "-", "r"⟩,
   ⟨"IDENT", "IDENT ATTEST n", allRoles, "all", "-", "r"⟩,
   ⟨"LEARN", "LEARN DPSn GAIN=g ...", [.t], "T", "edit+", "-"⟩,
   ⟨"LEARN", "LEARN DPSn READ", [.t], "T", "any", "r"⟩,
   ⟨"LEARN", "LEARN DPSn LOAD", [.t], "T", "OPEN,HELD,STOPPED,FAULTED", "-"⟩,
   ⟨"LEARN", "LEARN DPSn CLEAR", [.t], "T", "OPEN,HELD,STOPPED,FAULTED", "-"⟩,
   ⟨"PIN", "PIN ...", [.t], "T", "edit+", "-"⟩,
   ⟨"LEVEL", "LEVEL list ...", [.t], "T", "edit+", "-"⟩,
   ⟨"PIN", "PIN SHOW", [.t], "T", "any", "r"⟩,
   ⟨"LEVEL", "LEVEL SHOW", [.t], "T", "any", "r"⟩,
   ⟨"LOGIN", "LOGIN target", allRoles, "all", "any_target_state;a_CLOSED,ZEROING_or_keyless_target_is_challenged_and_refused_per_R25", "-"⟩,
   ⟨"LOGIN", "LOGIN RESP A", allRoles, "all", "any_target_state;a_CLOSED,ZEROING_or_keyless_target_is_challenged_and_refused_per_R25", "-"⟩,
   ⟨"LOGOUT", "LOGOUT", allRoles, "all", "any_target_state;a_CLOSED,ZEROING_or_keyless_target_is_challenged_and_refused_per_R25", "-"⟩,
   ⟨"LOGIN", "LOGIN REKEY W C", [.t], "T", "any", "-"⟩,
   ⟨"MICRO", "MICRO LOAD ...", [.t], "T", "edit+", "-"⟩,
   ⟨"MICRO", "MICRO WORD ...", [.t], "T", "edit+", "-"⟩,
   ⟨"MICRO", "MICRO DISPATCH e v", [.t], "T", "edit+", "-"⟩,
   ⟨"MICRO", "MICRO CLEAR", [.t], "T", "edit+", "-"⟩]

/-- R573 | part 5 of the index -/
def index5 : List IndexRow :=
  [⟨"MICRO", "MICRO DISPATCH", [.t], "T", "any", "r"⟩,
   ⟨"MICRO", "MICRO READ ...", [.t], "T", "any", "r"⟩,
   ⟨"MICRO", "MICRO CHECK", [.t], "T", "any", "r"⟩,
   ⟨"MICRO", "MICRO IMAGE kind ...", [.o], "O", "-", "-"⟩,
   ⟨"MICRO", "MICRO IMAGE DROP PATCH n", [.o], "O", "-", "-"⟩,
   ⟨"MICRO", "MICRO IMAGE LIST", [.o], "O", "-", "r"⟩,
   ⟨"MODE", "MODE", allRoles, "all", "-", "r"⟩,
   ⟨"MODE", "MODE MACHINE", allRoles, "all", "-", "-"⟩,
   ⟨"MODE", "MODE TYPED", allRoles, "all", "-", "-"⟩,
   ⟨"MODE", "MODE SEAL", allRoles, "all", "-", "-"⟩,
   ⟨"MODE", "MODE ECHO=", allRoles, "all", "-", "-"⟩,
   ⟨"MODE", "MODE XON=", allRoles, "all", "-", "-"⟩,
   ⟨"MODE", "MODE IDLE=", allRoles, "all", "-", "-"⟩,
   ⟨"MODE", "MODE BAUD=", allRoles, "all", "-", "-"⟩,
   ⟨"OWNER", "OWNER TAKE key", [.a], "A,on_CON_only", "-", "-"⟩,
   ⟨"OWNER", "OWNER CLEAR", [.a], "A,on_CON_only", "-", "-"⟩,
   ⟨"OWNER", "OWNER REKEY", [.o], "O", "-", "-"⟩,
   ⟨"OWNER", "OWNER OBSERVER OBn KEY", [.o], "O", "-", "-"⟩,
   ⟨"OWNER", "OWNER RELEASE", [.o], "O", "-", "-"⟩,
   ⟨"PACE", "PACE", [.o, .t], "O,T", "-", "r"⟩,
   ⟨"PACE", "PACE SET p", [.o], "O", "-", "-"⟩,
   ⟨"PRESS", "PRESS", [.t], "T", "ARMED,RUNNING,STOPPED", "s"⟩,
   ⟨"REF", "REF", [.o, .t], "O,T", "-", "r"⟩,
   ⟨"REF", "REF SELECT s [FORCE]", [.o], "O", "-", "-"⟩]

/-- R573 | part 6 of the index -/
def index6 : List IndexRow :=
  [⟨"RUN", "RUN", [.t], "T", "ARMED", "s"⟩,
   ⟨"TRIG", "TRIG", [.t], "T", "ARMED", "s"⟩,
   ⟨"SELFTEST", "SELFTEST", allRoles, "all", "-", "r"⟩,
   ⟨"SEQ", "SEQ BANK", [.t], "T", "edit+", "-"⟩,
   ⟨"SEQ", "SEQ LOAD", [.t], "T", "edit+", "-"⟩,
   ⟨"SEQ", "SEQ OP", [.t], "T", "edit+", "-"⟩,
   ⟨"SEQ", "SEQ ENTRY", [.t], "T", "edit+", "-"⟩,
   ⟨"SEQ", "SEQ LIST", [.t], "T", "any", "r"⟩,
   ⟨"SEQ", "SEQ COST", [.t], "T", "any", "r"⟩,
   ⟨"STATUS", "STATUS", allRoles, "all", "-", "r"⟩,
   ⟨"STATUS", "STATUS METER", [.o], "O", "-", "r"⟩,
   ⟨"STOP", "STOP", [.t], "T", "ARMED,RUNNING;OPEN_while_a_WARM_wait_is_pending,per_R103", "s"⟩,
   ⟨"STOP", "STOP OFF", [.t], "T", "ARMED,RUNNING,STOPPED,FAULTED", "s"⟩,
   ⟨"TIME", "TIME", allRoles, "all", "-", "r"⟩,
   ⟨"TMU", "TMU TMUn fields", [.t], "T", "edit+", "-"⟩,
   ⟨"TMU", "TMU TMUn SHOW", [.t], "T", "any", "r"⟩,
   ⟨"TMU", "TMU TMUn STAT", [.t], "T", "any", "r"⟩,
   ⟨"TMU", "TMU TMUn STATUS", [.t], "T", "any", "r"⟩,
   ⟨"TMU", "TMU TMUn START", [.t], "T", "ARMED,RUNNING,STOPPED", "s"⟩,
   ⟨"TMU", "TMU TMUn HALT", [.t], "T", "ARMED,RUNNING,STOPPED", "s"⟩,
   ⟨"TMU", "TMU TMUn CLEAR", [.t], "T", "any", "-"⟩,
   ⟨"TMU", "TMU TMUn RESULTS", [.t], "T", "any", "-"⟩,
   ⟨"TMU", "TMU TMUn READ", [.t], "T", "any", "-"⟩,
   ⟨"TRACE", "TRACE [Dd]", [.t, .b], "T,B", "any", "r"⟩]

/-- R573 | part 7 of the index -/
def index7 : List IndexRow :=
  [⟨"TRACE", "TRACE SHOW", [.t, .b], "T,B", "any", "r"⟩,
   ⟨"TRACE", "TRACE READ", [.t, .b], "T,B", "any", "r"⟩,
   ⟨"TRACE", "TRACE SELECT ...", [.t], "T", "any", "-"⟩,
   ⟨"TRACE", "TRACE GRANT ...", [.t], "T", "any", "-"⟩,
   ⟨"TRACE", "TRACE REVOKE ...", [.t], "T", "any", "-"⟩,
   ⟨"TRACE", "TRACE ENABLE ...", [.o], "O", "-", "-"⟩,
   ⟨"TRACE", "TRACE DISABLE ...", [.o], "O", "-", "-"⟩,
   ⟨"TRACE", "TRACE PORT ...", [.o], "O", "-", "-"⟩,
   ⟨"TSET", "TSET ...", [.t], "T", "edit+", "-"⟩,
   ⟨"TSET", "TSET s SHOW", [.t], "T", "any", "r"⟩,
   ⟨"TSET", "TSET DESKEW SHOW", [.t], "T", "any", "r"⟩,
   ⟨"TSET", "TSET DESKEW MEASURE list", [.t], "T", "STOPPED", "-"⟩]

/-- R573 | every command form -/
def index : List IndexRow := index1 ++ index2 ++ index3 ++ index4 ++ index5 ++ index6 ++ index7

/-- R573 | the command words, in ascending order -/
def commandWords : List String :=
  ["ACCEPT", "ADC", "ARM", "AT", "AUX", "BANK", "BROKE", "CAPTURE", "CHAIN", "COUNT", "DATA", "DECKLE", "DPS", "EVENT", "FURNISH", "HELLO", "HELP", "IDENT", "LEARN", "LEVEL", "LOGIN", "LOGOUT", "MICRO", "MODE", "OWNER", "PACE", "PIN", "PRESS", "REF", "RUN", "SELFTEST", "SEQ", "STATUS", "STOP", "TIME", "TMU", "TRACE", "TRIG", "TSET"]

end Sys2Proof.Machine
end

