-- ==== Sys2Proof/Machine/Session.lean ====
section
/-! DEFINITION. Sessions and identity: what ends and begins a session, HELLO to TIME, MODE, LOGIN and its reply, lines
refused before their word is known, and event lines sent. -/

namespace Sys2Proof.Machine

/-! ### Names -/

/-- R108 | the name of a line -/
def lineName (l : Nat) : List Atom := if l = 0 then [.s "CON"] else [.s "USB", .d ((l : Int) - 1)]

/-- R108 | the port byte of a line -/
def portByte (l : Nat) : Nat := if l = 0 then 0 else 0x10 + (l - 1)

/-- The name of a role. -/
def roleName : Role → List Atom
  | .anon => [.s "ANON"] | .owner => [.s "OWNER"] | .tenant d => [.s "D", .d d] | .observer n => [.s "OB", .d n]

/-- R579 | a serial number of 16 hex digits, grouped -/
def serialAtom (n : Nat) : Atom := .raw (groups4 95 (hexBytes true 16 n))

/-- A version, major.minor.build. -/
def verAtoms (v : Nat × Nat × Nat) : List Atom := [.d v.1, .s ".", .d v.2.1, .s ".", .d v.2.2]

/-- R83 | the firmware that runs -/
def runningFw (s : State) : Image := s.md.runFw

def owned (s : State) : Bool := s.nv.owner.isSome

def Variant.name : Variant → String | .o => "HQ-48/O" | .x => "HQ-48/X"

/-- R92, R586 | the identity fields of the line sent at the end of a start -/
def startFields (s : State) : Line :=
  [kv "SN" [serialAtom s.nv.serial], kv "FW" (verAtoms (runningFw s).ver), kv "MC" (verAtoms s.md.runMc.ver),
   kn "PL" s.md.pl, kn "ARB" s.nv.arb]

/-! ### Lines refused early -/

/-- R121, R122 | a line whose command word is unknown, or that fails before its word is known; after a refused block the
lines up to its END line are discarded (R143, R144) -/
def execUnknownCommand (h : Hdr) (s : State) : Out :=
  .next (arrive s (.unknownCommand h) h [] false (fun p s n => start s (fun _ => .error e404) p [] n (fun _ => .error e404)))

/-- R144 | the first fault of a block that did not end; `lost` where a line of it was discarded for its MAC -/
def blkFault (lost : Bool) (hd : BlkHdr) (rows : List BlkRow) (e : Line) : Line :=
  match blkDecode hd.n 0 rows with
  | .error x => if lost then e else x
  | .ok _ => e

/-- R144 | more than 10 s pass inside a block: the command is refused, and lines are discarded up to the next END line; no effect
when the line took its last command within 10 s, for then the gap cannot be inside a block -/
def execDataBlockTimeout (h : Hdr) (hd : BlkHdr) (rows : List BlkRow) (s : State) : Out :=
  if h.dt ≤ 10 * Config.sec ∧ s.wall + h.dt ≤ (getLn s h.line).rxT + 10 * Config.sec ∧ s.resume.isNone then .next (advance s h.dt)
  else .next (arrive s (.dataBlockTimeout h hd rows) h (hd.row :: rows) false (fun p s n =>
    let y := placeAt s h.line n
    modLn (start s (fun _ => .ok ⟨⟩) p (32 :: decBytes hd.n) n (fun _ => .error (blkFault y.lost hd (rowsPlain y.sealed rows) e408))) h.line
      (fun x => { x with skip := x.up })))

/-- R144 | !ABORT inside a block; the last of the lines that came is the !ABORT itself -/
def execDataBlockAbort (h : Hdr) (hd : BlkHdr) (rows : List BlkRow) (s : State) : Out :=
  .next (arrive s (.dataBlockAbort h hd rows) h (hd.row :: rows) false (fun p s n =>
    let y := placeAt s h.line n
    start s (fun _ => .ok ⟨⟩) p (32 :: decBytes hd.n) n (fun _ => .error (blkFault y.lost hd (rowsPlain y.sealed rows.dropLast) e415aborted))))

/-- R135 | completed entries reach 60 s and are dropped -/
def execTagEntryExpiry (dt : Nat) (mem : TagMem) (s : State) : Out :=
  let s := advance s dt
  .next (setTags s mem ((getTags s mem).filter (tagAlive s)))

/-- R152 | CON's input buffer overflows: the line is answered E431; a USB line never overruns. It can only overflow where the longest
line (R117) no longer fits beside what it holds -/
def execConOverrun (dt : Nat) (s : State) : Out :=
  let s := advance s dt
  if (getLn s 0).up ∧ 4096 < bufBytes (getLn s 0) + 1048 then
    let (n, s) := newSlot (modLn s 0 (fun x => { x with part := [], rxT := s.wall })) 0
    .next (answer s 0 n [] e431)
  else .next s

/-! ### HELLO, HELP, IDENT, STATUS, SELFTEST, TIME -/

/-- R577 -/
def execHello (h : Hdr) (s : State) : Out :=
  noram s (.hello h) { word := "HELLO", roles := allRoles, ro := true } h (fun s =>
    let x := getLn s h.line
    ok s [w "OK", w "HELLO", w "HQ-48", kv "SN" [serialAtom s.nv.serial], kv "ROLE" (roleName x.role),
      kv "LINE" (lineName h.line), kw "MODE" (if x.machine then "MACHINE" else "TYPED")])

/-- R145 | HELLO ECHO returns the block it received -/
def execHelloEcho (h : Hdr) (blk : Blk) (s : State) : Out :=
  noramBlk s (.helloEcho h blk) { word := "HELLO", roles := allRoles, ro := true } h blk (fun _ => .ok ⟨⟩) (fun p s =>
    okBody s (blkLines p) [w "OK", w "HELLO", w "ECHO", kn "BYTES" p.length])

/-- R578 | whether the role of a session may issue a form of a word in the present module state -/
def helpWord (s : State) (x : LineSt) (c : String) : Bool :=
  (wordRoles c).contains x.role.kind && moduleOk s c && (c != "ACCEPT" || s.md.st = .degraded) &&
    (!x.prov || ["LOGIN", "LOGOUT", "IDENT", "STATUS", "HELP"].contains c)

/-- R578 -/
def execHelp (h : Hdr) (word : Option String) (s : State) : Out :=
  noram s (.help h word) { word := "HELP", roles := allRoles, ro := true, prov := true } h (fun s =>
    let x := getLn s h.line
    match word with
    | none =>
      let b := (commandWords.filter (helpWord s x)).map (fun c => [w "HP", w c])
      okBody s b [w "OK", w "HELP", kn "N" b.length]
    | some c =>
      let c := upWord c
      if commandWords.contains c then
        let b := (index.filter (fun r => r.word == c)).map (fun r =>
          [w "HP", w r.form, kw "ROLE" r.role, kw "STATES" r.states, kw "MARK" r.mark])
        okBody s b [w "OK", w "HELP", kn "N" b.length]
      else .error e404)

/-- R579 -/
def execIdent (h : Hdr) (s : State) : Out :=
  noram s (.ident h) { word := "IDENT", roles := allRoles, ro := true, prov := true } h (fun s =>
    ok s [w "OK", w "IDENT", w s.nv.variant.name, kv "SN" [serialAtom s.nv.serial], kv "FW" (verAtoms (runningFw s).ver),
      kv "MC" (verAtoms s.md.runMc.ver), kn "PL" s.md.pl, kb "OWNED" (owned s), kw "STATE" s.md.st.name])

/-- R42 | the device certificate for the device key and the serial number, issued by Luquamo (log 5) -/
def certificate (s : State) : List Nat :=
  (List.range (Config.certLength s.nv.devKey s.nv.serial)).map (fun i => (Config.certByte s.nv.devKey s.nv.serial i).toNat)

/-- R42 -/
def execIdentCert (h : Hdr) (s : State) : Out :=
  noram s (.identCert h) { word := "IDENT", roles := allRoles, ro := true, prov := true } h (fun s =>
    okBody s (blkLines (certificate s)) [w "OK", w "IDENT", w "CERT", kn "BYTES" (certificate s).length])

/-- R43 | the statement line; its word AT is the model's choice (log 94) -/
def statement (s : State) (nonce : Sec) : Line :=
  [w "AT", kv "SN" [serialAtom s.nv.serial], kv "FW" (verAtoms (runningFw s).ver), kv "MC" (verAtoms s.md.runMc.ver), kn "PL" s.md.pl,
   kn "ARB" s.nv.arb, kb "OWNED" (owned s), kw "STATE" s.md.st.name, kt "TB" (now s), kv "NONCE" [.sec nonce.val (nonce.digits / 4)]]

/-- R43 | an ECDSA signature under the device key over the bytes of a line; `n` is the draw for its random number (log 5) -/
def signature (key : Nat) (text : List Nat) (n : Nat) : List Nat :=
  (List.range (Config.signatureLength key text n)).map (fun i => (Config.signatureByte key text n i).toNat)

/-- R43 | IDENT ATTEST takes a nonce of 1 to 8 groups -/
def execIdentAttest (h : Hdr) (nonce : Sec) (s : State) : Out :=
  noram s (.identAttest h nonce) { word := "IDENT", roles := allRoles, ro := true, prov := true } h (fun s => do
    need (nonce.digits % 4 = 0 ∧ 4 ≤ nonce.digits ∧ nonce.digits ≤ 32 ∧ nonce.val < 16 ^ nonce.digits) (e400 3)
    let (n, s) := draw s
    let t := statement s nonce
    okBody s (t :: blkLines (signature s.nv.devKey (lineBytes t) n)) [w "OK", w "IDENT", w "ATTEST"])

/-- R94 | the units reported FAIL or UNTESTED at this start -/
def failedUnits (s : State) : List String :=
  (s.md.report.flatMap (fun r => r.units ++ r.unt)).eraseDups

/-- Names joined by commas, NONE when empty. -/
def nameList (l : List String) : List Atom := listAtoms (l.map (fun x => [Atom.s x]))

/-- R580, R94 | the module line -/
def moduleLine (s : State) : Line :=
  [w "ST", w "MODULE", kw "STATE" s.md.st.name, kb "WARM" s.md.warm, kw "LOCK" s.rf.lock.name, kb "OWNED" (owned s),
   kw "PACE" s.nv.pace.name] ++
  (if s.md.st = .safe ∨ s.md.st = .degraded then
    [kw "CAUSE" s.md.cause, kv "UNITS" (nameList (failedUnits s)), kb "LATCH" s.md.latch] else [])

/-- R580 | a tenant's line for its own deckle -/
def ownLine (s : State) (d : Nat) : Line :=
  let k := getDk s d
  let reason := match k.st with
    | .held => match k.why with | some y => [kw "REASON" y.name] | none => []
    | .faulted => match k.cause with | some c => [kw "REASON" c.name] | none => []
    | _ => []
  [w "ST", dTok d, kw "STATE" k.st.name] ++ reason ++ (if k.waitWarm then [kw "WAIT" "WARM"] else []) ++
    [kv "SEAL" (match k.sealN with | some n => [.d n] | none => [.s "NONE"])]

/-- R580, R190 | the owner's lines -/
def ownerLines (s : State) : List Line :=
  (deckles.filter (fun d => (getDk s d).st != .closed)).map (fun d =>
    let k := getDk s d
    [w "ST", dTok d, w (if k.st = .zeroing then "ZEROING" else "OPEN"), kv "SHARE" [.d k.grant.share, .s "/8"]])

/-- R13, R580 | what STATUS shows a role -/
def statusLines (s : State) : Role → List Line
  | .tenant d => [moduleLine s, ownLine s d]
  | .owner => moduleLine s :: ownerLines s
  | _ => [moduleLine s]

/-- R580 -/
def execStatus (h : Hdr) (s : State) : Out :=
  noram s (.status h) { word := "STATUS", roles := allRoles, ro := true, prov := true } h (fun s =>
    okBody s (statusLines s (getLn s h.line).role) [w "OK", w "STATUS"])

/-- R14, R580 | metering, per deckle -/
def meterLines (s : State) : List Line :=
  deckles.map (fun d =>
    let k := getDk s d
    [w "SM", dTok d, kn "RUN" k.meterMs, kn "STEPS" k.stepsPct, kn "BANKS" k.grant.banks.length])

/-- R14, R580 -/
def execStatusMeter (h : Hdr) (s : State) : Out :=
  noram s (.statusMeter h) { word := "STATUS", roles := [.o], ro := true } h (fun s =>
    okBody s (moduleLine s :: ownerLines s ++ meterLines s) [w "OK", w "STATUS"])

def Verdict.name : Verdict → String | .pass => "PASS" | .fail => "FAIL" | .untested => "UNTESTED" | .notrun => "NOTRUN"

/-- R88 | the items, in table order -/
def testItems : List String :=
  ["SECSTORE", "STEWMEM", "CSTORE", "REFPATH", "BANKS", "FELT", "DRVCMP", "LOOPBK", "DPSNL", "TMUAGR"]

/-- R91 | the report of an item; one that this start never reached is NOTRUN -/
def itemOf (s : State) (n : String) : StItem := (s.md.report.find? (fun r => r.name == n)).getD { name := n }

/-- R91 | items whose verdict is FAIL or UNTESTED -/
def failedCount (s : State) : Nat := (s.md.report.filter (fun r => r.v = .fail ∨ !r.unt.isEmpty)).length

/-- R91, R89 | one line for each item; units left UNTESTED follow those that failed (log 39) -/
def execSelftest (h : Hdr) (s : State) : Out :=
  noram s (.selftest h) { word := "SELFTEST", roles := allRoles, ro := true } h (fun s =>
    okBody s (testItems.map (fun n =>
        let r := itemOf s n
        [w "ST", w n, w r.v.name] ++ (if r.units.isEmpty then [] else [{ val := nameList r.units }]) ++
          (if r.unt.isEmpty then [] else [w Verdict.untested.name, { val := nameList r.unt }])))
      [w "OK", w "SELFTEST", kw "STATE" s.md.st.name, kn "FAILED" (failedCount s)])

/-- R220 -/
def execTime (h : Hdr) (s : State) : Out :=
  noram s (.time h) { word := "TIME", roles := allRoles, ro := true } h (fun s => ok s [w "OK", w "TIME", kt "TB" (now s)])

/-! ### MODE (R129 to R133, R28) -/

def modeForm : Form := { word := "MODE", roles := allRoles }

/-- R130 -/
def execMode (h : Hdr) (s : State) : Out :=
  noram s (.mode h) { modeForm with ro := true } h (fun s =>
    let x := getLn s h.line
    ok s ([w "OK", w "MODE", kv "LINE" (lineName h.line), kv "ROLE" (roleName x.role),
      kw "MODE" (if x.machine then "MACHINE" else "TYPED"), kw "ECHO" (onOff x.echo), kw "XON" (onOff x.xon), kn "IDLE" x.idle] ++
      (if (h.line : Nat) = 0 then [kn "BAUD" x.baud] else [])))

/-- R129, R130, R132 | the reply is sent under the new mode; machine mode has no XON/XOFF, so output that waited goes on -/
def execModeMachine (h : Hdr) (s : State) : Out :=
  noram s (.modeMachine h) modeForm h (fun s =>
    ok (modSession (resumeOut s h.line) h (fun x => { x with machine := true, xoff := false })) [w "OK", w "MODE", w "MACHINE"])

/-- R28, R130 | a session in SEAL mode leaves it only by LOGOUT or by ending: MODE TYPED is E403 there (log 15) -/
def execModeTyped (h : Hdr) (s : State) : Out :=
  noram s (.modeTyped h) modeForm h (fun s => do
    need (getLn s h.line).sm.isNone e403
    ok (modSession s h (fun x => { x with machine := false })) [w "OK", w "MODE", w "TYPED"])

/-- R10, R16 | the key of a role as it is stored now; K_session of R16 and K_role of R28 (log 95) -/
def roleKey (s : State) : Role → Option Key
  | .owner => s.nv.owner | .tenant d => tget? s.nv.dk d | .observer n => tget? s.nv.obs n | .anon => none

/-- R22 | a nonce as 16 bytes -/
def nonceBytes (n : Nat) : List Nat := beBytes 16 n

def strBytes (t : String) : List Nat := t.toList.map (fun c => c.toNat)

/-- R28 | the session key S -/
def sealKey (key nonce : Nat) : Nat := hmacNum key (nonceBytes nonce ++ strBytes "SEAL")

/-- R28 | MODE SEAL, in machine mode and after a login (log 15); both counters start at 0 -/
def execModeSeal (h : Hdr) (s : State) : Out :=
  noram s (.modeSeal h) modeForm h (fun s => do
    let x := getLn s h.line
    need (x.machine && x.sm.isNone) e403
    match x.nonce, roleKey s x.role with
    | some n, some k => ok (modSession s h (fun x => { x with sm := some { key := sealKey k.k n } })) [w "OK", w "MODE", w "SEAL"]
    | _, _ => .error e403)

/-- R129 -/
def execModeEcho (h : Hdr) (on : Bool) (s : State) : Out :=
  noram s (.modeEcho h on) modeForm h (fun s =>
    ok (modSession s h (fun x => { x with echo := on })) [w "OK", w "MODE", kw "ECHO" (onOff on)])

/-- R129, R132 -/
def execModeXon (h : Hdr) (on : Bool) (s : State) : Out :=
  noram s (.modeXon h on) modeForm h (fun s =>
    ok (modSession s h (fun x => { x with xon := on })) [w "OK", w "MODE", kw "XON" (onOff on)])

/-- R113 -/
def execModeIdle (h : Hdr) (n : Val) (s : State) : Out :=
  noram s (.modeIdle h n) modeForm h (fun s => do
    let q ← readRange 2 .s 60 86400 n
    need (q.den = 1) (e400 2)
    ok (modSession s h (fun x => { x with idle := q.num.toNat })) [w "OK", w "MODE", kn "IDLE" q.num.toNat])

/-- R133 | the baud rates of CON -/
def bauds : List Nat := [9600, 19200, 38400, 57600, 115200, 230400, 460800, 921600, 1000000, 2000000, 3000000]

/-- R55, R133 | ticks in which CON sends some characters and a line end at a rate: ten bits each -/
def conTicks (chars baud : Nat) : Nat := ((chars + 2) * 10 * Config.sec + baud - 1) / baud

/-- R133 | the reply goes out at the old rate, and the new rate applies 20 ms after its last stop bit; on a USB line the command has no
effect -/
def execModeBaud (h : Hdr) (n : Val) (s : State) : Out :=
  noram s (.modeBaud h n) modeForm h (fun s => do
    let b ← readNat 2 0 (10 ^ 12) n
    need (bauds.contains b) (e419 2)
    let t := [w "OK", w "MODE", kn "BAUD" b]
    ok (if (h.line : Nat) = 0 then
        modSession s h (fun x => { x with baudNext := some (b, s.wall + conTicks (lineBytes t).length x.baud) }) else s) t)

/-- R133 | the new rate applies, once the reply has been sent -/
def execBaudChangeApply (dt : Nat) (s : State) : Out :=
  let s := advance s dt
  .next (modLn s 0 (fun x => match x.baudNext with
    | some (b, t) => if t + 20 * Config.ms ≤ s.wall && !x.paused then { x with baud := b, baudNext := none } else x
    | none => x))

/-! ### LOGIN (R22 to R27) -/

/-- R22 | the target byte -/
def Target.byte : Target → Nat | .deckle d => d | .owner => 0x40 | .observer n => 0x80 + n

def Target.inRange : Target → Bool | .deckle d => d < 8 | .owner => true | .observer n => n < 8

def Target.role : Target → Role | .deckle d => .tenant d | .owner => .owner | .observer n => .observer n

/-- The target of a byte. -/
def targetOf (b : Nat) : Target := if b < 8 then .deckle b else if b = 0x40 then .owner else .observer (b - 0x80)

/-- R25, R32 | the key against which a response is checked; none for a target that accepts no response -/
def targetKey (s : State) : Target → Option Key
  | .deckle d => if (getDk s d).st.isOpen then tget? s.nv.dk d else none
  | .owner => s.nv.owner
  | .observer n => tget? s.nv.obs n

/-- R26 | seconds of a lockout that remain, rounded up; 0 when none is in force -/
def lockLeft (s : State) (b : Nat) : Nat :=
  let e := (tget s.nv.lock b (0, 0)).2
  (e - s.wall + Config.sec - 1) / Config.sec

/-- R26 | a failed response counts; the fourth locks the target for 60 s, each further one after the lockout doubles it up to 3,840 s;
one that comes during a lockout does not count (log 96) -/
def countFail (s : State) (b : Nat) : State :=
  if 0 < lockLeft s b then s
  else
    let n := (tget s.nv.lock b (0, 0)).1 + 1
    let t := if n < 4 then 0 else s.wall + min 3840 (60 * 2 ^ min (n - 4) 6) * Config.sec
    { s with nv := { s.nv with lock := tset s.nv.lock b (n, t) } }

def clearFail (s : State) (b : Nat) : State := { s with nv := { s.nv with lock := tdel s.nv.lock b } }

/-- R22, R25, R26, R109 | LOGIN target: a fresh nonce, or the lockout -/
def execLogin (h : Hdr) (target : Target) (s : State) : Out :=
  noram s (.login h target) { word := "LOGIN", roles := allRoles } h (fun s => do
    need target.inRange (e419 2)
    need (target != .owner || (h.line : Nat) ≤ 1) e403
    need (lockLeft s target.byte = 0) (e406 (lockLeft s target.byte))
    let (n, s) := draw s
    let nonce := (Config.nonce n).toNat
    ok (modSession s h (fun x => { x with chal := some (nonce, target.byte, s.wall) })) [w "CHAL", { val := [.sec nonce 8] }])

/-- R22 | the response that is right for a challenge -/
def rightResponse (key nonce target line serial : Nat) : Nat :=
  hmacNum key (nonceBytes nonce ++ [target, portByte line] ++ beBytes 8 serial) / 2 ^ 128

/-- R22 | a nonce is accepted for 30 s after its issue -/
def nonceOld (s : State) (t : Nat) : Bool := decide (t + 30 * Config.sec < s.wall)

/-- R22, R23, R25 | LOGIN RESP: judged now, answered 50 ms after the end of its line; without a nonce in force it is wrong and counts
against no target (log 96) -/
def execLoginResp (h : Hdr) (a : Sec) (s : State) : Out :=
  noram s (.loginResp h a) { word := "LOGIN", roles := allRoles } h (fun s => do
    need (a.digits = 32) (e400 3)
    let x := getLn s h.line
    let rx := (running s h.line).rx
    let s := modSession s h (fun x => { x with chal := none })
    match x.chal with
    | some (n, b, t) =>
      if nonceOld s t then
        .ok (modSession s h (fun x => { x with resp := some (false, b, n, rx) }), .later (.login h.line))
      else
        let good := match targetKey s (targetOf b) with
          | some k => a.val == rightResponse k.k n b h.line s.nv.serial
          | none => false
        let s := if good then s else countFail s b
        .ok (modSession s h (fun x => { x with resp := some (good, b, n, rx) }), .later (.login h.line))
    | none => .ok (modSession s h (fun x => { x with resp := some (false, 0x40, 0, rx) }), .later (.login h.line)))

/-- R27 | the other lines whose session holds a role -/
def otherHolders (s : State) (l : Nat) (r : Role) : List Nat :=
  lineNos.filter (fun i => i != l && (getLn s i).up && (getLn s i).role == r)

/-- R128 | the queued events of a deckle go to a line, oldest first -/
def flushEvents (s : State) (l d : Nat) : State :=
  let k := getDk s d
  let s := modDk s d (fun k => { k with evq := [], evlost := 0 })
  let s := if 0 < k.evlost ∧ !k.evq.isEmpty then
      sendEvent s l [w "!NOTE", dTok d, w "EVENTS-LOST", kn "N" k.evlost] else modDk s d (fun x => { x with evlost := k.evlost })
  k.evq.foldl (fun s e => sendEvent s l e.2) s

/-- R27 | sessions that a login replaces end, each told so -/
def takeOver (s : State) (l : Nat) (r : Role) : State :=
  match r with
  | .tenant _ | .owner => (otherHolders s l r).foldl (fun s i => endSession (sendEvent s i [w "!NOTE", w "SESSION-TAKEN"]) i) s
  | _ => s

/-- R19 | the final line of a successful login -/
def loginReply (s : State) (r : Role) : Line :=
  match r with
  | .owner => [w "OK", w "OWNER"]
  | .observer n => [w "OK", { val := [.s "OB", .d n] }]
  | .tenant d => let k := (tget? s.nv.dk d).getD {}
    [w "OK", dTok d] ++ (if k.prov then [w "PROVISIONAL"] else []) ++ [kt "KEYSET" k.setAt]
  | .anon => e401

/-- R23, R24, R27, R128, R174 | 50 ms after a LOGIN RESP: the reply, and the role when the response was right -/
def execLoginReply (dt : Nat) (line : Fin 10) (s : State) : Out :=
  let s := advance s dt
  let l : Nat := line
  match (getLn s l).resp with
  | none => .next s
  | some (good, b, n, t) =>
    if s.wall < t + 49 * Config.ms then .next s
    else
      let s := modLn s l (fun x => { x with resp := none })
      let isL := fun (k : JobKind) => k == .login l
      if good && (targetKey s (targetOf b)).isSome then
        let r := (targetOf b).role
        let old := (getLn s l).role
        let s := clearFail (takeOver s l r) b
        let s := if old == r then s else tenantGone s old
        let prov := match r with | .tenant d => ((tget? s.nv.dk d).getD {}).prov | _ => false
        let s := modLn s l (fun x => { x with role := r, nonce := some n, prov := prov })
        let s := finishJob s isL [] (loginReply s r)
        match r with
        | .tenant d =>
          let s := flushEvents s l d
          let k := getDk s d
          match k.st, k.why with
          | .held, some y => .next (sendEvent s l (heldLine d y))
          | _, _ => .next s
        | _ => .next s
      else .next (finishJob s isL [] e401)

/-- R22 | 30 s after its issue a nonce expires -/
def execNonceExpiry (dt : Nat) (line : Fin 10) (s : State) : Out :=
  let s := advance s dt
  .next (modLn s line (fun x => match x.chal with
    | some (_, _, t) => if t + 30 * Config.sec ≤ s.wall then { x with chal := none } else x
    | none => x))

/-- R26 | a lockout expires; the count of failures stays -/
def execLockoutExpiry (dt : Nat) (target : Target) (s : State) : Out :=
  let s := advance s dt
  let b := target.byte
  if 0 < lockLeft s b then .next s
  else match tget? s.nv.lock b with
    | some (n, _) => .next { s with nv := { s.nv with lock := tset s.nv.lock b (n, 0) } }
    | none => .next s

/-- R28, R113 | LOGOUT returns the session to Anonymous and leaves SEAL mode, its own reply included (log 15); a tenant's role ends with
it (log 16) -/
def execLogout (h : Hdr) (s : State) : Out :=
  noram s (.logout h) { word := "LOGOUT", roles := allRoles, prov := true } h (fun s =>
    let r := (getLn s h.line).role
    ok (tenantGone (modSession s h (fun x => { x with role := .anon, nonce := none, prov := false, sm := none, chal := none })) r)
      [w "OK", w "LOGOUT"])

/-! ### Ends and beginnings of sessions (R112, R113) -/

/-- Whether the lines are open: after the end of a start (R79). -/
def linesOpen (s : State) : Bool :=
  match s.md.st with | .degraded | .warming | .ready | .safe => true | _ => false

/-- R112 | DTR set on USBn begins a session -/
def execUsbDtrSet (dt : Nat) (n : Fin 9) (s : State) : Out :=
  let s := advance s dt
  let l : Nat := n + 1
  if linesOpen s && s.md.usb && !(getLn s l).up then
    let x := getLn s l
    .next (setLn s l { up := true, rxT := s.wall, baud := x.baud, nslot := x.nslot, tx := x.tx })
  else .next s

/-- R113 | DTR cleared on USBn ends its session -/
def execUsbDtrClear (dt : Nat) (n : Fin 9) (s : State) : Out :=
  .next (closeLine (advance s dt) (n + 1))

/-- R75, R113 | a bus reset, detach or long suspend ends every USB session -/
def execUsbBusLoss (dt : Nat) (s : State) : Out :=
  .next ([1, 2, 3, 4, 5, 6, 7, 8, 9].foldl closeLine (advance s dt))

/-- R113, R115 | a break of at least 100 ms ends the CON session and returns CON to 115,200 baud -/
def execConBreak (dt : Nat) (s : State) : Out :=
  .next (modLn (endSession (advance s dt) 0) 0 (fun x => { x with baud := 115200, baudNext := none }))

/-- R113 | no line for the idle time -/
def execIdleTimeout (dt : Nat) (line : Fin 10) (s : State) : Out :=
  let s := advance s dt
  let x := getLn s line
  if x.up ∧ x.rxT + x.idle * Config.sec ≤ s.wall then .next (endSession s line) else .next s

/-- R113 | the module could not send for 60 s -/
def execSendBlockedTimeout (dt : Nat) (line : Fin 10) (s : State) : Out := .next (endSession (dropOut (advance s dt) line) line)

/-- R132 | XOFF with flow control on pauses output -/
def execXoffReceived (dt : Nat) (line : Fin 10) (s : State) : Out :=
  .next (modLn (advance s dt) line (fun x => if x.up && x.xon && !x.machine then { x with paused := true } else x))

/-- R132, R133 | XON resumes output: what waited is sent in order, and a change of rate counts from then -/
def execXonReceived (dt : Nat) (line : Fin 10) (s : State) : Out :=
  let s := advance s dt
  if (getLn s line).paused then
    .next (modLn (resumeOut s line) line (fun x => { x with baudNext := x.baudNext.map (fun e => (e.1, max e.2 s.wall)) }))
  else .next s

/-- R116, R118 | a terminator without a command: an empty line; an LF within 10 ms of a CR belongs to it -/
def lineEnd (s : State) (l b : Nat) : State :=
  let x := getLn s l
  let pair : Bool := b = 10 && (match x.crT with | some t => decide (s.wall ≤ t + 10 * Config.ms) | none => false)
  if pair then modLn s l (fun x => { x with crT := none })
  else modLn s l (fun x => { x with part := [], rxT := s.wall, crT := if b = 13 then some s.wall else none })

/-- R129, R132 | a character in typed mode: echoed and kept, or an editing byte; in machine mode it only joins the line. A terminator ends
the line (R116); one that ends a command comes with that command's row (log 6). The bytes echoed for an editing byte are the model's
(log 97) -/
def execLineEditing (dt : Nat) (line : Fin 10) (b : Nat) (s : State) : Out :=
  let s := advance s dt
  let l : Nat := line
  let x := getLn s l
  if !x.up then .next s
  else if b = 13 ∨ b = 10 then .next (lineEnd s l b)
  else if x.machine then .next (flowControl (modLn s l (fun x => { x with part := x.part ++ [b] })) l)
  else
    let echo := fun (s : State) (t : List Nat) => if x.echo then sendRaw s l t else s
    if b = 8 ∨ b = 127 then
      if x.part.isEmpty then .next s
      else .next (echo (modLn s l (fun x => { x with part := x.part.dropLast })) [8, 32, 8])
    else if b = 21 then .next (echo (modLn s l (fun x => { x with part := [] })) ([13, 10] ++ promptBytes x.role))
    else if b = 3 then .next (echo (modLn s l (fun x => { x with part := [] })) ([13, 10] ++ promptBytes x.role))
    else if b = 18 then .next (sendRaw s l ([13, 10] ++ promptBytes x.role ++ x.part))
    else if x.xon && (b = 17 ∨ b = 19) then .next s
    else .next (flowControl (echo (modLn s l (fun x => { x with part := x.part ++ [b] })) [b]) l)

/-! ### Event lines sent (R525 to R527) -/

/-- R525, R527 | the oldest queued event line of the deckle or the owner is sent to its session -/
def execEventLineSend (dt : Nat) (line : Fin 10) (s : State) : Out := .next (sendNext (advance s dt) line)

end Sys2Proof.Machine
end

