-- ==== Sys2Proof/Machine/Flags.lean ====
section
/-! DEFINITION. The ALU of the microengine: results and the flags C0 to C3. -/

namespace Sys2Proof.Machine

/-- R294 | ALU operation codes -/
inductive AluOp where
  | nop | pass | add | adc | sub | sbc | and | or | xor | andn | shl | shr | asr | ror | cmp | tst | min | max | clz | popc
deriving DecidableEq, Repr

/-- R294 | the operation of a code; 0x14 to 0x3F are reserved -/
def aluOf (n : Nat) : Option AluOp :=
  [AluOp.nop, .pass, .add, .adc, .sub, .sbc, .and, .or, .xor, .andn, .shl, .shr, .asr, .ror, .cmp, .tst, .min, .max, .clz, .popc][n]?

/-- What an operation gives: the value it computes, its carry (none where the spec states none), its overflow. -/
structure AluOut where
  val : BitVec 32
  c : Option Bool := none
  v : Bool := false
deriving DecidableEq, Repr

/-- A + B + carry in, with carry out and signed overflow. -/
def addWith (a b : BitVec 32) (ci : Bool) : AluOut :=
  let n := a.toNat + b.toNat + (if ci then 1 else 0)
  let r := BitVec.ofNat 32 n
  { val := r, c := some (2 ^ 32 ≤ n), v := a.msb == b.msb && r.msb != a.msb }

/-- A shift with the last bit shifted out; a shift by 0 shifts none out. -/
def shiftOut (r : BitVec 32) (n : Nat) (last : Bool) : AluOut := { val := r, c := if n = 0 then none else some last }

/-- Leading zeros of a word. -/
def clz (a : BitVec 32) : Nat := ((List.range 32).find? (fun i => a.getLsbD (31 - i))).getD 32

/-- Ones of a word. -/
def popc (a : BitVec 32) : Nat := ((List.range 32).filter (fun i => a.getLsbD i)).length

/-- R285, R294 | what each operation computes from A, B and C2; SUB, SBC and CMP carry out as A + NOT B + 1 (log 20) -/
def alu (op : AluOp) (a b : BitVec 32) (c : Bool) : AluOut :=
  let n := b.toNat % 32
  match op with
  | .nop => { val := 0 }
  | .pass => { val := a }
  | .add => addWith a b false
  | .adc => addWith a b c
  | .sub | .cmp => addWith a (~~~b) true
  | .sbc => addWith a (~~~b) c
  | .and | .tst => { val := a &&& b }
  | .or => { val := a ||| b }
  | .xor => { val := a ^^^ b }
  | .andn => { val := a &&& ~~~b }
  | .shl => shiftOut (a <<< n) n (a.getLsbD (32 - n))
  | .shr => shiftOut (a >>> n) n (a.getLsbD (n - 1))
  | .asr => shiftOut (a.sshiftRight n) n (a.getLsbD (n - 1))
  | .ror => shiftOut (a.rotateRight n) n (a.getLsbD (n - 1))
  | .min => { val := if a.toNat ≤ b.toNat then a else b }
  | .max => { val := if a.toNat ≤ b.toNat then b else a }
  | .clz => { val := BitVec.ofNat 32 (clz a) }
  | .popc => { val := BitVec.ofNat 32 (popc a) }

/-- R294 | operations that write no destination -/
def AluOp.flagsOnly : AluOp → Bool | .nop | .cmp | .tst => true | _ => false

end Sys2Proof.Machine
end

