-- ==== Sys2Proof/Machine/Sheets.lean ====
section
/-! DEFINITION. Sheets and ops in the vat banks: widths, addresses, sheet fields, program words, and how they are
written out and assembled. -/

namespace Sys2Proof.Machine

/-! ### Sheets (R250 to R258) -/

/-- R252 | storage width for a number of pins -/
def widthOf (n : Nat) : Nat := if n ≤ 2 then 32 else if n ≤ 6 then 64 else if n ≤ 14 then 128 else 256

/-- R252 | storage width of a deckle's sheets -/
def Deckle.width (k : Deckle) : Nat := widthOf k.grant.ch.length

/-- Vat address of a bank. -/
def bankBase (b : Nat) : Nat := b * 2 ^ 20

/-- R257 | quires that one bank holds -/
def bankQuires (width : Nat) : Nat := 262144 / width

/-- R257 | quires of the pattern address space -/
def patternSize (f : Furnish) (width : Nat) : Nat := f.stripe.length * bankQuires width

/-- R257 | the bank of a quire -/
def quireBank (f : Furnish) (pa : Nat) : Nat := (f.stripe[pa % f.stripe.length]?).getD 0

/-- R257 | the vat address of a quire -/
def quireAddr (f : Furnish) (width pa : Nat) : Nat := bankBase (quireBank f pa) + pa / f.stripe.length * (4 * width)

/-- R253, R257 | the vat address of a sheet -/
def sheetAddr (f : Furnish) (width pa s : Nat) : Nat := quireAddr f width pa + s * (width / 8)

/-- R261 | whether a quire slot holds part of the program -/
def progSlot (f : Furnish) (width pa : Nat) : Bool :=
  match f.prog with
  | some b => quireBank f pa == b && pa / f.stripe.length * (4 * width) < 8 * f.nops
  | none => false

/-- R250 | header fields of a sheet word -/
def sheetTs (x : Nat) : Nat := x / 8 % 32
def sheetMask (x : Nat) : Bool := x / 4 % 2 = 1
def sheetNofo (x : Nat) : Bool := x / 2 % 2 = 1
def sheetBook (x : Nat) : Bool := x % 2 = 1
/-- R250 | code of pin p -/
def sheetCode (x p : Nat) : Nat := x / 2 ^ (4 * p + 8) % 16

/-- R254 | the sheet words of a quire -/
def readQuire (s : State) (f : Furnish) (width pa : Nat) : List Nat :=
  (List.range 32).map (fun i => mnum s.vat (sheetAddr f width pa i) (width / 8))

/-- R254 | code letters, in the order of their values -/
def codeLetters : List Char := ['0', '1', 'L', 'H', 'X', 'Z', 'M', 'V', 'T', 'K', 'C']

/-- R255 | the first reserved code of a sheet, by pin, or a filler bit that is not zero -/
def sheetFault (k : Deckle) (x : Nat) : Option Tok :=
  let n := k.grant.ch.length
  match (numbered 0 k.grant.ch).find? (fun e => 10 < sheetCode x e.1) with
  | some (_, c) => some (kv "PIN" (unitName .ch c))
  | none => if x < 2 ^ (4 * n + 8) then none else some (w "FILL")

/-- Numbers of `n` bytes each from a list of bytes, least significant first. -/
def splitNums (n : Nat) : Nat → List Nat → List Nat
  | 0, _ => []
  | f + 1, l => if l.isEmpty then [] else (l.take n).foldr (fun b a => b + 256 * a) 0 :: splitNums n f (l.drop n)

/-- R255 | the first refused sheet of quires written from a pattern address on -/
def quiresFault (k : Deckle) (pa : Nat) (xs : List Nat) : Option Line :=
  ((numbered 0 xs).filterMap (fun e => (sheetFault k e.2).map (fun why => e417 (pa + e.1 / 32) (e.1 % 32) why)))[0]?

def toBytes (l : List Nat) : List (BitVec 8) := l.map (BitVec.ofNat 8)

/-- R258 | masks of the bank that a sheet is written to: its TS value, and the pins that carry code T -/
def maskSheet (n : Nat) (x : Nat) (b : Bank) : Bank :=
  let t := (List.range n).foldl (fun m p => if sheetCode x p = 8 then m ||| 2 ^ p else m) 0
  { b with tsm := b.tsm ||| 2 ^ sheetTs x, tm := b.tm ||| t }

/-- R278 | a bank that has been zeroed holds no loaded op -/
def unload (s : State) (b : Nat) : State :=
  match (getBk s b).own with
  | some d => modDk s d (fun k => { k with work := { k.work with loaded := tdel k.work.loaded b }, act := { k.act with loaded := tdel k.act.loaded b },
                                           shad := { k.shad with loaded := tdel k.shad.loaded b } })
  | none => s

/-- R408 | an access by a command or a block transfer brings a bank to ON; from OFF it comes up zeroed -/
def wakeBank (s : State) (b : Nat) : State :=
  let x := getBk s b
  if x.wd then s else match x.pow with
  | .on => s
  | .retain => setBk s b { x with pow := .on }
  | .off => setBk { unload s b with vat := mzero s.vat (bankBase b) (2 ^ 20) } b { x with pow := .on, tsm := 1, tm := 0, dbe := [] }

/-- R402 | a bank's contents zeroed, check bits included, its header mask at TS 0 -/
def zeroBank (s : State) (b : Nat) : State :=
  modBk { unload s b with vat := mzero s.vat (bankBase b) (2 ^ 20) } b (fun x => { x with pow := .on, tsm := 1, tm := 0, dbe := [] })

/-- R279, R396, R408, R413 | one sheet is written; masks and check bits follow -/
def writeSheet (s : State) (d : Nat) (f : Furnish) (pa i : Nat) (x : Nat) : State :=
  let k := getDk s d
  let a := sheetAddr f k.width pa i
  let n := k.width / 8
  let s := modBk s (quireBank f pa) (fun b =>
    { maskSheet k.grant.ch.length x b with dbe := b.dbe.filter (fun v => !(a % 2 ^ 20 / 16 ≤ v && v ≤ (a % 2 ^ 20 + n - 1) / 16)) })
  { s with vat := mputNum s.vat a n x }

/-- R253, R279 | sheets written in order from a sheet of the pattern address space on, 32 to a quire -/
def writeSheets (s : State) (d : Nat) (f : Furnish) (first : Nat) (xs : List Nat) : State :=
  (numbered first xs).foldl (fun s e => writeSheet (wakeBank s (quireBank f (e.1 / 32))) d f (e.1 / 32) (e.1 % 32) e.2) s

/-- R413 | the first word with a double-bit error among `n` bytes from a vat address on, as its byte address in the bank -/
def bankErr (s : State) (a n : Nat) : Option (Nat × Nat) :=
  let b := a / 2 ^ 20
  let o := a % 2 ^ 20
  ((getBk s b).dbe.find? (fun v => o / 16 ≤ v && v ≤ (o + n - 1) / 16)).map (fun v => (b, 16 * v))

/-- R413 | a steward or DMA read of a bank is refused where it meets a double-bit error -/
def readOk (s : State) (a n : Nat) : Res Unit :=
  match bankErr s a n with | some (b, v) => .error (e437 b v) | none => .ok ⟨⟩

/-! ### Ops (R261 to R263) -/

/-- R262 | an op word -/
structure Op where
  code : Nat := 0
  flag : Nat := 0
  a : Nat := 0
  b : Nat := 0
deriving DecidableEq, Repr

def opOf (x : Nat) : Op := { code := x / 2 ^ 56 % 256, flag := x / 2 ^ 48 % 256, a := x / 2 ^ 24 % 2 ^ 24, b := x % 2 ^ 24 }
def Op.word (o : Op) : Nat := o.code * 2 ^ 56 + o.flag * 2 ^ 48 + o.a * 2 ^ 24 + o.b

/-- R261 | vat address of op i of a program bank -/
def opAddr (bank i : Nat) : Nat := bankBase bank + 8 * i

/-- R261 | op i of the program of a furnish -/
def readOp (s : State) (f : Furnish) (i : Nat) : Op :=
  match f.prog with | some b => opOf (mnum s.vat (opAddr b i) 8) | none => {}

/-- The program of a furnish, up to its last loaded op. -/
def program (s : State) (f : Furnish) : List Op := (List.range f.nops).map (readOp s f)

/-- R261 | ops written from an index on -/
def writeOps (s : State) (bank a : Nat) (ops : List Nat) : State :=
  let n := 8 * ops.length
  let o := 8 * a
  let s := modBk s bank (fun b => { b with dbe := b.dbe.filter (fun v => !(o / 16 ≤ v && v ≤ (o + n - 1) / 16)) })
  { s with vat := mput s.vat (opAddr bank a) (ops.flatMap (leBytes 8)) }

/-- R262 | steps of a stock op; none for reserved opcodes -/
def opCost (c : Nat) : Option Nat :=
  if c = 0x00 ∨ c = 0x01 ∨ c = 0x10 ∨ c = 0x20 ∨ c = 0x21 ∨ c = 0x22 ∨ c = 0x30 ∨ c = 0x31 ∨ c = 0x32 then some 1
  else if c = 0x11 ∨ c = 0x12 ∨ c = 0x23 ∨ c = 0x24 ∨ c = 0x25 then some 2
  else none

/-- R263 | whether the bits an op leaves unnamed are zero and its fields are in range -/
def opFieldOk (o : Op) : Bool :=
  match o.code with
  | 0x00 | 0x01 | 0x24 => o.flag = 0 ∧ o.a = 0 ∧ o.b = 0
  | 0x10 => o.flag ≤ 1 ∧ o.b < 2 ^ 16
  | 0x11 => o.flag = 0 ∧ o.b = 0
  | 0x12 => o.flag ≤ 1 ∧ 1 ≤ o.b
  | 0x20 => o.flag = 0 ∧ o.a = 0
  | 0x21 | 0x22 | 0x23 => o.flag = 0 ∧ o.a = 0 ∧ o.b < 2 ^ 17
  | 0x25 => o.flag < 8 ∧ o.a = 0 ∧ o.b < 2 ^ 17
  | 0x30 => o.flag < 8 ∧ o.a = 0 ∧ o.b < 32
  | 0x31 => o.flag = 0 ∧ o.a = 0 ∧ o.b < 16
  | 0x32 => o.flag = 0 ∧ o.a = 0 ∧ o.b < 32
  | _ => true

/-- R263 | an op text assembled; the number tells the token at which a field is out of range -/
def assemble (pos : Nat) : OpText → Res Op
  | .nop => .ok {}
  | .halt => .ok { code := 0x01 }
  | .run pa n cont => do
    need (pa < 2 ^ 24) (e419 (pos + 1))
    need (1 ≤ n ∧ n ≤ 65536) (e419 (pos + 2))
    pure { code := 0x10, flag := if cont then 1 else 0, a := pa, b := n - 1 }
  | .matchOp pa => do
    need (pa < 2 ^ 24) (e419 (pos + 1))
    pure { code := 0x11, a := pa }
  | .waitt pa dur => do
    need (pa < 2 ^ 24) (e419 (pos + 1))
    let q ← readVal (pos + 2) .us dur
    need (0 < q) (e419 (pos + 2))
    if dur.unit = .ms ∨ dur.unit = .s then do
      let m := q / 1000
      need (m.den = 1) (e400 (pos + 2))
      need (m.num ≤ 16777215) (e419 (pos + 2))
      pure { code := 0x12, flag := 1, a := pa, b := m.num.toNat }
    else do
      need (q.den = 1) (e400 (pos + 2))
      need (q.num ≤ 16777215) (e419 (pos + 2))
      pure { code := 0x12, a := pa, b := q.num.toNat }
  | .loop n => do
    need (1 ≤ n ∧ n ≤ 2 ^ 24) (e419 (pos + 1))
    pure { code := 0x20, b := n - 1 }
  | .endl t => do need (t < 2 ^ 17) (e419 (pos + 1)); pure { code := 0x21, b := t }
  | .jump t => do need (t < 2 ^ 17) (e419 (pos + 1)); pure { code := 0x22, b := t }
  | .call t => do need (t < 2 ^ 17) (e419 (pos + 1)); pure { code := 0x23, b := t }
  | .ret => .ok { code := 0x24 }
  | .brfail sfail neg clr t => do
    need (t < 2 ^ 17) (e419 (pos + 2 + (if neg then 1 else 0) + (if clr then 1 else 0)))
    pure { code := 0x25, flag := (if neg then 1 else 0) + (if sfail then 2 else 0) + (if clr then 4 else 0), b := t }
  | .mark m i => do
    need (m < 8) (e419 (pos + 1))
    need (i < 32) (e419 (pos + 2))
    pure { code := 0x30, flag := m, b := i }
  | .learn l => do
    need (l.all (fun n => n < 4)) (e419 (pos + 1))
    pure { code := 0x31, b := (sortNat l).foldl (fun m n => m + 2 ^ n) 0 }
  | .tsel o => do need (o < 32) (e419 (pos + 1)); pure { code := 0x32, b := o }
  | .custom e f a b => do
    need (0xE0 ≤ e ∧ e ≤ 0xFF) (e419 pos)
    need (f < 256) (e419 (pos + 1))
    need (a < 2 ^ 24) (e419 (pos + 2))
    need (b < 2 ^ 24) (e419 (pos + 3))
    pure { code := e, flag := f, a := a, b := b }

/-- R263, R279 | an op as text, in the form SEQ OP takes (log 21) -/
def opText (o : Op) : Line :=
  match o.code with
  | 0x00 => [w "NOP"]
  | 0x01 => [w "HALT"]
  | 0x10 => [w "RUN", kn "PA" o.a, kn "N" (o.b % 2 ^ 16 + 1)] ++ (if o.flag % 2 = 1 then [w "CONT"] else [])
  | 0x11 => [w "MATCH", kn "PA" o.a]
  | 0x12 => [w "WAITT", kn "PA" o.a, { val := [.d o.b, .s (if o.flag % 2 = 1 then "ms" else "us")] }]
  | 0x20 => [w "LOOP", { val := [.d (o.b + 1)] }]
  | 0x21 => [w "ENDL", { val := [.d (o.b % 2 ^ 17)] }]
  | 0x22 => [w "JUMP", { val := [.d (o.b % 2 ^ 17)] }]
  | 0x23 => [w "CALL", { val := [.d (o.b % 2 ^ 17)] }]
  | 0x24 => [w "RET"]
  | 0x25 => [w "BRFAIL", w (if o.flag / 2 % 2 = 1 then "SFAIL" else "QFAIL")] ++ (if o.flag % 2 = 1 then [w "NOT"] else []) ++
      (if o.flag / 4 % 2 = 1 then [w "CLR"] else []) ++ [{ val := [.d (o.b % 2 ^ 17)] }]
  | 0x30 => [w "MARK", { val := [.s "M", .d (o.flag % 8)] }, kn "S" (o.b % 32)]
  | 0x31 => [w "LEARN", { val := commas (([0, 1, 2, 3].filter (fun n => o.b / 2 ^ n % 2 = 1)).map (unitName .dps)) }]
  | 0x32 => [w "TSEL", { val := [.d (o.b % 32)] }]
  | _ => [{ val := [.hx o.code 2] }, { val := [.hx o.flag 2] }, { val := [.hx o.a 6] }, { val := [.hx o.b 6] }]

end Sys2Proof.Machine
end

