-- ==== Sys2Proof/Machine/Stores.lean ====
section
/-! DEFINITION. The control stores: writes with their parity bits, fetches that check them, the vendor region, and the records of a
container. -/

namespace Sys2Proof.Machine

/-! ### Parity (R286, R287, R302) -/

/-- R287 | the XOR of the bits of a byte -/
def bytePar (b : BitVec 8) : Bool := (List.range 8).foldl (fun p i => p != b.getLsbD i) false

/-- R287 | the parity bits of `n` words of `sz` bytes from word `a` up, one byte per word: its bit j is the XOR of the j-th `part` bytes -/
def parOf (sz part : Nat) (m : Mem) (a n : Nat) : Mem :=
  (m.filter (fun c => sz * a ≤ c.1 ∧ c.1 < sz * (a + n))).foldl (fun p c =>
    if bytePar c.2 then mput p (c.1 / sz) [mget p (c.1 / sz) ^^^ BitVec.ofNat 8 (2 ^ (c.1 % sz / part))] else p) []

/-- R287 | the parity of microwords, and of nanowords: P0 of their low half, P1 of their high half -/
def parU (m : Mem) (a n : Nat) : Mem := parOf 4 4 m a n
def parN (m : Mem) (a n : Nat) : Mem := parOf 16 8 m a n

/-- R287 | the micro store with the `n` words from `a` up as another memory has them, their parity computed -/
def storeU (s : State) (m : Mem) (a n : Nat) : State :=
  { s with ust := mcopy s.ust m (4 * a) (4 * n) (4 * a), upar := mcopy s.upar (parU m a n) a n a }

/-- R287 | the nano store with the `n` words from `a` up as another memory has them, their parity computed -/
def storeN (s : State) (m : Mem) (a n : Nat) : State :=
  { s with nst := mcopy s.nst m (16 * a) (16 * n) (16 * a), npar := mcopy s.npar (parN m a n) a n a }

/-- R287 | bytes written from a word of a store up, whole words -/
def writeStore (s : State) (nano : Bool) (a : Nat) (bs : List (BitVec 8)) : State :=
  if nano then storeN s (mput [] (16 * a) bs) a (bs.length / 16) else storeU s (mput [] (4 * a) bs) a (bs.length / 4)

/-- R302 | the parity of a fetched microword, and of both halves of a fetched nanoword, agrees with its parity bits -/
def goodU (s : State) (a : Nat) : Bool := mget (parU s.ust a 1) a = mget s.upar a
def goodN (s : State) (a : Nat) : Bool := mget (parN s.nst a 1) a = mget s.npar a

/-- A bit of a byte of a memory turned over. -/
def turnBit (m : Mem) (a i : Nat) : Mem := mput m a [mget m a ^^^ BitVec.ofNat 8 (2 ^ i)]

/-- R286, R302 | an upset of a store -/
def upset (s : State) (x : Upset) : State :=
  if x.nano then
    if x.bit < 128 then { s with nst := turnBit s.nst (16 * x.addr + x.bit / 8) (x.bit % 8) }
    else { s with npar := turnBit s.npar x.addr (x.bit - 128) }
  else
    if x.bit < 32 then { s with ust := turnBit s.ust (4 * x.addr + x.bit / 8) (x.bit % 8) }
    else { s with upar := turnBit s.upar x.addr (x.bit - 32) }

/-! ### The vendor region (R85, R86, R286, R304 to R307) -/

/-- R286 | words of the vendor micro region and of the vendor nano region -/
def vendorU : Nat := 0x2000
def vendorN : Nat := 0x800

/-- R306 | a record of a container: whole words for consecutive addresses, in the byte order of the stores -/
structure PatchRec where
  nano : Bool := false
  addr : Nat := 0
  bytes : List (BitVec 8) := []
deriving DecidableEq, Repr

/-- R306 | bytes of a record as the stores hold them: every word comes most significant byte first -/
def recWords (sz : Nat) (l : List Nat) : List (BitVec 8) :=
  (List.range (l.length / sz)).flatMap (fun i => ((l.drop (sz * i)).take sz).reverse.map (fun b => BitVec.ofNat 8 b))

/-- R306 | the records of a payload, as many as RECORDS says and nothing after them; none where the payload does not read so -/
def records : Nat → List Nat → Option (List PatchRec)
  | 0, [] => some []
  | n + 1, st :: z :: c1 :: c0 :: a3 :: a2 :: a1 :: a0 :: r =>
    let sz := if st = 2 then 16 else 4
    let len := sz * (256 * c1 + c0)
    if (st = 1 ∨ st = 2) ∧ z = 0 ∧ len ≤ r.length then
      (records n (r.drop len)).map (fun t =>
        { nano := st = 2, addr := 2 ^ 24 * a3 + 2 ^ 16 * a2 + 2 ^ 8 * a1 + a0, bytes := recWords sz (r.take len) } :: t)
    else none
  | _, _ => none

/-- R307 | a record that stays in the vendor region -/
def PatchRec.inVendor (r : PatchRec) : Bool :=
  if r.nano then r.addr + r.bytes.length / 16 ≤ vendorN else r.addr + r.bytes.length / 4 ≤ vendorU

/-- R307 | an image whose records read and stay in the vendor region (log 106) -/
def Image.recsOk (x : Image) : Bool := (records x.nrec x.plain).any (fun l => l.all PatchRec.inVendor)

/-- R85 | the records of an image written to the stores -/
def writeImage (s : State) (x : Image) : State :=
  ((records x.nrec x.plain).getD []).foldl (fun s r => writeStore s r.nano r.addr r.bytes) s

/-- R85 | the stored patches in ascending order of their sequence numbers -/
def patchesInOrder (s : State) : List Image :=
  (List.range 256).flatMap (fun q => (s.nv.patches.map (fun e => e.2)).filter (fun x => x.seq = q))

/-- R80, R85 | the vendor image, patched, written to the stores -/
def writeVendor (s : State) : State := (s.nv.uc :: patchesInOrder s).foldl writeImage s

/-- R80, R86 | the retention copy kept -/
def keepVendor (s : State) : State :=
  { s with md := { s.md with keepU := mslice s.ust 0 (4 * vendorU) 0, keepN := mslice s.nst 0 (16 * vendorN) 0 } }

/-- R304 | the whole vendor region rewritten from the retention copy -/
def rewriteVendor (s : State) : State := storeN (storeU s s.md.keepU 0 vendorU) s.md.keepN 0 vendorN

end Sys2Proof.Machine
end

