-- ==== Sys2Proof/Machine/MicroCode.lean ====
section
/-! DEFINITION. Microwords, nanowords and the fences: how the fields of the control stores read, and which customer words
fail a check. -/

namespace Sys2Proof.Machine

/-! ### Words (R286 to R288, R294, R295) -/

/-- R288 | a microword -/
structure UWord where
  nano : Nat := 0
  mode : Nat := 0
  arg : Nat := 0
deriving DecidableEq, Repr

def uwordOf (x : Nat) : UWord := { nano := x / 2 ^ 20 % 4096, mode := x / 2 ^ 17 % 8, arg := x % 2 ^ 17 }

/-- R294 | a nanoword -/
structure NWord where
  aluop : Nat := 0
  asel : Nat := 0
  bsel : Nat := 0
  dsel : Nat := 0
  upd : Bool := false
  u0op : Nat := 0
  u1op : Nat := 0
  gap : Nat := 0
  pclass : Nat := 0
  parg : Nat := 0
  k16 : Nat := 0
  pmask : Nat := 0
deriving DecidableEq, Repr

def nwordOf (x : Nat) : NWord :=
  { aluop := x / 2 ^ 122 % 64, asel := x / 2 ^ 117 % 32, bsel := x / 2 ^ 112 % 32, dsel := x / 2 ^ 107 % 32, upd := x / 2 ^ 106 % 2 = 1,
    u0op := x / 2 ^ 104 % 4, u1op := x / 2 ^ 102 % 4, gap := x / 2 ^ 96 % 64, pclass := x / 2 ^ 92 % 16, parg := x / 2 ^ 64 % 2 ^ 28,
    k16 := x / 2 ^ 48 % 2 ^ 16, pmask := x % 2 ^ 48 }

/-- Bits [hi:lo] of PARG, numbered as in the nanoword, 64 to 91. -/
def NWord.p (n : NWord) (hi lo : Nat) : Nat := n.parg / 2 ^ (lo - 64) % 2 ^ (hi - lo + 1)

/-- R286 | first word of the micro slice and of the nano slice of a deckle -/
def sliceU (d : Nat) : Nat := 0x2000 + 0x400 * d
def sliceN (d : Nat) : Nat := 0x800 + 0x100 * d
def inSliceU (d a : Nat) : Bool := sliceU d ≤ a && a < sliceU d + 0x400
def inSliceN (d a : Nat) : Bool := sliceN d ≤ a && a < sliceN d + 0x100

def readU (s : State) (a : Nat) : UWord := uwordOf (mnum s.ust (4 * a) 4)
def readN (s : State) (a : Nat) : NWord := nwordOf (mnum s.nst (16 * a) 16)

/-- R288 | base of the block that contains an address -/
def blockBase (a : Nat) : Nat := a / 2048 * 2048

/-- R288 | the fields that ARG holds in each mode -/
def UWord.cond (x : UWord) : Nat := if x.mode = 4 then x.arg / 2 ^ 12 % 16 else x.arg / 2 ^ 13 % 16
def UWord.sense (x : UWord) : Bool := if x.mode = 4 then x.arg / 2 ^ 16 % 2 = 1 else x.arg / 2 ^ 12 % 2 = 1
def UWord.width (x : UWord) : Nat := x.arg / 2 ^ 11 % 4
def UWord.lk (x : UWord) : Nat := x.arg / 2 ^ 15 % 4
def UWord.target (x : UWord) : Nat := if x.mode = 1 ∨ x.mode = 2 then x.arg % 2 ^ 14 else x.arg % 2 ^ 11

/-- R288 | bits of ARG that the mode leaves unnamed -/
def UWord.unnamed (x : UWord) : Bool :=
  match x.mode with
  | 1 | 2 => 2 ^ 14 ≤ x.arg
  | 4 => x.arg / 2 ^ 11 % 2 = 1
  | 6 => x.arg / 2 ^ 11 % 16 ≠ 0
  | 7 => x.arg % 2 ^ 12 ≠ 0
  | _ => false

/-- R295 | bits of PARG that the port action leaves unnamed -/
def NWord.unnamed (n : NWord) : Bool :=
  n.gap ≠ 0 || match n.pclass with
    | 0 | 9 => n.parg ≠ 0
    | 1 | 2 => n.p 83 64 ≠ 0
    | 3 => n.p 82 64 ≠ 0
    | 4 | 5 => n.p 91 91 ≠ 0 || n.p 83 64 ≠ 0
    | 6 => n.p 91 91 ≠ 0 || n.p 77 64 ≠ 0
    | 7 => n.p 81 64 ≠ 0
    | 8 => n.p 85 64 ≠ 0
    | 10 => n.p 91 91 ≠ 0 || n.p 81 64 ≠ 0
    | _ => false

/-- R289 | the values that MWAY merges into a target -/
def mwayTargets (t width : Nat) : List Nat := sortNat ((List.range (2 ^ (width + 1))).map (fun v => t ||| v))

/-- R288, R298 | the targets that a word at an address names: those of JMP, CALL, BR, MWAY and LOOP -/
def UWord.targets (x : UWord) (a : Nat) : List Nat :=
  match x.mode with
  | 1 | 2 => [x.target]
  | 4 | 6 => [blockBase a + x.target]
  | 5 => (mwayTargets x.target x.width).map (fun t => blockBase a + t)
  | _ => []

/-- R291, R315 | whether a microword reads a condition flag, and which -/
def UWord.reads (x : UWord) (c : Nat) : Bool :=
  match x.mode with
  | 4 | 7 => x.cond = c
  | 5 => x.cond ≤ c && c ≤ x.cond + x.width
  | _ => false

/-! ### Fences (R298) -/

/-- What a fence check knows: the deckle, its grants, its pattern, and the register values that are fixed. -/
structure FenceCtx where
  d : Nat
  g : Grant
  f : Furnish
  depth : Nat
  reg : Nat → Option Nat
  mar : Option Nat
  /-- the targets that the word names -/
  targets : List Nat

/-- Whether a value is known and fails a test. -/
def bad? (v : Option Nat) (p : Nat → Bool) : Bool := match v with | some x => p x | none => false

/-- R298, R411 | whether a byte address lies outside the space that a memory access names -/
def memOut (c : FenceCtx) (space bank mar : Nat) : Bool :=
  match space with
  | 0 => 2 ^ 20 ≤ mar || (c.f.prog = some bank && c.f.stripe.contains bank &&
      mar < (8 * c.f.nops + 4 * widthOf c.g.ch.length - 1) / (4 * widthOf c.g.ch.length) * (4 * widthOf c.g.ch.length)) ||
      (c.f.prog = some bank && !c.f.stripe.contains bank && mar < 8 * c.f.nops)
  | 1 => mar < 0x1000 || 0x8000 ≤ mar
  | _ => 0x2000 * c.g.tmu.length ≤ mar

/-- R298 | whether a pattern address is outside the pattern address space or in a program slot -/
def paOut (c : FenceCtx) (pa : Nat) : Bool :=
  let width := widthOf c.g.ch.length
  patternSize c.f width ≤ pa || progSlot c.f width pa

/-- R298 | whether a later pattern address of a DISP of m + 1 quires is outside the space or in a program slot -/
def pasOut (c : FenceCtx) (pa m : Nat) : Bool :=
  let width := widthOf c.g.ch.length
  decide (patternSize c.f width ≤ pa + m) || (List.range (m + 1)).any (fun i => progSlot c.f width (pa + i))

/-- R298 | whether QID fails for QPOP: only the deckle's command queue and its channels' result queues pass -/
def popOut (c : FenceCtx) (q : Nat) : Bool := !(q = 96 + c.d || (48 ≤ q && q ≤ 95 && c.g.ch.contains (q - 48)))

/-- R298 | whether QID fails for QPUSH: only the deckle's broke and capture DMA queues pass -/
def pushOut (c : FenceCtx) (q : Nat) : Bool := !(q = 112 + c.d || q = 120 + c.d)

/-- R298, R425, R464, R487, R515 | whether an instrument register is not granted or not open to microcode -/
def unitOut (c : FenceCtx) (u r : Nat) : Bool :=
  if u ≤ 3 then !(c.g.dps.contains u && (r = 0 || r = 4))
  else if u ≤ 5 then !(c.g.aux.contains (u - 4) && (r = 0 || r = 1))
  else if u < 8 then true
  else if u ≤ 15 then !(c.g.adc.contains (u - 8) && r = 0)
  else if u ≤ 19 then !(c.g.tmu.contains (u - 16) && (r = 0 || r = 1))
  else true

/-- R298 | ALU destination that a step writes -/
def NWord.dest (n : NWord) : Option Nat :=
  match aluOf n.aluop with
  | some op => if op.flagsOnly || n.dsel = 20 then none else some n.dsel
  | none => none

/-- R286, R298 | a word of the vendor region, which no fence checks -/
def vendorWord (a : Nat) : Bool := a < 0x2000

/-- R298 | the first check, in the order of the table, that a customer word fails -/
def fence (c : FenceCtx) (x : UWord) (n : NWord) : Option String :=
  if !inSliceN c.d x.nano then some "FENCE-NANO"
  else if c.targets.any (fun a => !inSliceU c.d a) then some "FENCE-ADDR"
  else if (n.pclass = 1 ∨ n.pclass = 2) ∧ n.p 91 90 = 0 ∧ !c.g.banks.contains (n.p 89 84) then some "FENCE-BANK"
  else if (n.pclass = 1 ∨ n.pclass = 2) ∧ (n.p 91 90 = 3 ∨ bad? c.mar (fun m => memOut c (n.p 91 90) (n.p 89 84) (m / 4 * 4))) then
    some "FENCE-MEM"
  else if (n.pclass = 4 ∧ popOut c (n.p 90 84)) ∨ (n.pclass = 5 ∧ pushOut c (n.p 90 84)) then some "FENCE-QUEUE"
  else if n.pclass = 6 ∧ unitOut c (n.p 90 86) (n.p 85 78) then some "FENCE-UNIT"
  else if n.pclass = 7 ∧ (n.p 91 90 = 1 ∨ n.p 91 90 = 2) then some "FENCE-EVENT"
  else if (List.range 48).any (fun i => n.pmask / 2 ^ i % 2 = 1 && !c.g.ch.contains i) then some "FENCE-PIN"
  else if (n.pclass = 3 ∨ n.pclass = 10) ∧ bad? (c.reg (n.p 90 87)) (fun pa => paOut c pa) then some "FENCE-PA"
  else if n.pclass = 3 ∧ bad? (c.reg (n.p 90 87)) (fun pa => bad? (c.reg (n.p 86 83)) (fun m =>
      decide (m < 65536) && pasOut c pa m)) then some "FENCE-PA"
  else if n.dest = some 15 ∨ n.dest.any (fun k => decide (16 ≤ k ∧ k < 16 + c.depth)) ∨
      (x.mode = 6 ∧ x.lk < c.depth) then some "FENCE-REG"
  else if n.pclass = 3 ∧ bad? (c.reg (n.p 86 83)) (fun m => decide (65536 ≤ m) || (n.p 91 91 = 0 && decide (m < 3))) then some "DISP"
  else if n.pclass = 10 ∧ bad? (c.reg (n.p 86 83)) (fun m => decide (10 < m / 256 % 16)) then some "SHEET"
  else if (aluOf n.aluop).isNone ∨ 28 ≤ n.asel ∨ 28 ≤ n.bsel ∨ 23 ≤ n.dsel ∨ (11 ≤ n.pclass) ∨ x.unnamed ∨ n.unnamed ∨
      (x.mode = 5 ∧ 15 < x.cond + x.width) then some "ILLEGAL"
  else none

end Sys2Proof.Machine
end

