-- ==== Sys2Proof/Machine/MicroFlow.lean ====
section
/-! DEFINITION. The analyzer of customer microcode: which words a custom op site reaches, with which fixed values, what its
checks find, and what its paths cost. -/

namespace Sys2Proof.Machine

/-! ### What the analyzer knows at a word (R316) -/

/-- R316 | the values fixed at a word: G0 to G15 and LC0 to LC3 by source code, MAR at 20, MDR at 21; and the values that G14
may hold -/
structure UEnv where
  v : List (Option Nat) := List.replicate 22 none
  next : List (Option Nat) := []
deriving DecidableEq, Repr

def UEnv.get (e : UEnv) (k : Nat) : Option Nat := ((e.v)[k]?).getD none
def UEnv.put (e : UEnv) (k : Nat) (x : Option Nat) : UEnv :=
  { e with v := e.v.set k x, next := if k = 14 then [x] else e.next }

/-- R316 | paths that join: a register with different values is unfixed -/
def UEnv.join (a b : UEnv) : UEnv :=
  { v := a.v.zipWith (fun x y => if x = y then x else none) b.v, next := a.next ++ b.next.filter (fun x => !a.next.contains x) }

/-- R300 | what the interpreter loads before the first customer step of a site -/
def siteEnv (i : Nat) (o : Op) : UEnv :=
  (((({} : UEnv).put 11 (some o.flag)).put 12 (some o.b)).put 13 (some o.a)).put 14 (some (i + 1))

/-- R316 | the value of a source, where it is fixed -/
def UEnv.src (e : UEnv) (x : UWord) (n : NWord) (code : Nat) : Option Nat :=
  if code ≤ 19 then e.get code
  else if code = 20 then some x.arg
  else if code = 21 then e.get 21
  else if code = 27 then some n.k16
  else none

/-- R316 | the value an ALU operation gives, where it is fixed; ADC and SBC use a flag, which is not -/
def UEnv.alu (e : UEnv) (x : UWord) (n : NWord) : Option Nat :=
  match aluOf n.aluop with
  | none | some .nop | some .adc | some .sbc => none
  | some op =>
    let a := e.src x n n.asel
    let b := if op = .pass ∨ op = .clz ∨ op = .popc then some 0 else e.src x n n.bsel
    match a, b with
    | some a, some b => some (Sys2Proof.Machine.alu op (BitVec.ofNat 32 a) (BitVec.ofNat 32 b) false).val.toNat
    | _, _ => none

/-- R294, R316 | the values fixed after a word's port action and ALU part -/
def UEnv.step (e : UEnv) (x : UWord) (n : NWord) : UEnv :=
  let e1 := if n.pclass = 1 then e.put 21 none else e
  match n.dest with
  | none => e1
  | some k =>
    let r := e.alu x n
    if k < 16 then e1.put k r
    else if k < 20 then e1.put k (r.map (fun v => v % 2 ^ 24))
    else if k = 21 then e1.put 20 r
    else if k = 22 then e1.put 21 (if n.pclass = 1 then none else r)
    else e1

/-! ### Which words follow (R288, R289) -/

/-- A word at an address, with the return addresses of customer calls, newest first. -/
abbrev UNode := Nat × List Nat

/-- R288, R293 | the words that may follow a word, those it branches to first; an empty list where the custom op ends -/
def uNexts (a : Nat) (st : List Nat) (x : UWord) : List UNode :=
  let seq := (a + 1) % 2 ^ 14
  let tg := x.targets a
  match x.mode with
  | 0 | 7 => [(seq, st)]
  | 2 => tg.map (fun t => (t, seq :: st))
  | 3 => match st with | [] => [] | r :: st' => [(r, st')]
  | 4 | 6 => tg.map (fun t => (t, st)) ++ [(seq, st)]
  | _ => tg.map (fun t => (t, st))

/-! ### What a site reaches -/

/-- What the analyzer knows of a word that a site reaches. -/
structure UInfo where
  node : UNode
  env : UEnv
deriving DecidableEq, Repr

/-- A site: the deckle, its grants, its furnish, the op loop depth, the op index and the op. -/
structure Site where
  d : Nat
  g : Grant
  f : Furnish
  depth : Nat
  i : Nat
  op : Op

/-- R299 | the dispatch entry of a site -/
def Site.entry (t : Site) : Nat := tget t.f.ctab (t.op.code - 0xE0) 0
/-- R299 | the first customer word -/
def Site.first (t : Site) : Nat := sliceU t.d + t.entry % 1024

/-- R298 | the fence context of a word of a site -/
def Site.ctx (t : Site) (u : UInfo) (x : UWord) : FenceCtx :=
  { d := t.d, g := t.g, f := t.f, depth := t.depth, reg := u.env.get, mar := u.env.get 20, targets := x.targets u.node.1 }

/-- R298 | the nanoword of a word as the analyzer reads it: a customer word reads none outside the deckle's slice -/
def Site.nano (t : Site) (s : State) (u : UNode) : NWord :=
  let x := readU s u.1
  if inSliceN t.d x.nano || vendorWord u.1 then readN s x.nano else {}

/-- R298, R315 | the cause that a word of a site fails, if any -/
def Site.fence (t : Site) (s : State) (u : UInfo) : Option String :=
  let x := readU s u.node.1
  if vendorWord u.node.1 then none else Sys2Proof.Machine.fence (t.ctx u x) x (t.nano s u.node)

/-- R293, R315 | whether a word makes a call that recurs -/
def uRecurses (a : Nat) (st : List Nat) (x : UWord) : Bool := x.mode = 2 && st.contains ((a + 1) % 2 ^ 14)

/-- R316 | the values that hold along an edge: a LOOP-mode word leaves LCk unfixed, unless its ALU part loads it and it does not count -/
def uAlong (e : UEnv) (x : UWord) (n : NWord) (back : Bool) : UEnv :=
  if x.mode = 6 ∧ (back ∨ n.dest ≠ some (16 + x.lk)) then e.put (16 + x.lk) none else e

/-- R315 | the edges out of a word along every outcome of its mode, with the values that hold along each; a target outside the slice and a
recursion are not followed -/
def Site.edges (t : Site) (s : State) (u : UInfo) : List UInfo :=
  let x := readU s u.node.1
  let n := t.nano s u.node
  if uRecurses u.node.1 u.node.2 x then []
  else
    let e := u.env.step x n
    let out := (x.targets u.node.1).filter (fun a => !vendorWord u.node.1 && !inSliceU t.d a)
    ((uNexts u.node.1 u.node.2 x).filter (fun v => !out.contains v.1 || v == ((u.node.1 + 1) % 2 ^ 14, u.node.2))).map (fun v =>
      { node := v, env := uAlong e x n ((x.targets u.node.1).contains v.1) })

/-- One fact added to what is known; true where it changes something. -/
def learnFact (l : List UInfo) (u : UInfo) : List UInfo × Option UInfo :=
  match l.find? (fun y => y.node == u.node) with
  | none => (l ++ [u], some u)
  | some y =>
    let j := y.env.join u.env
    if j = y.env then (l, none) else (l.map (fun z => if z.node == u.node then ⟨u.node, j⟩ else z), some ⟨u.node, j⟩)

/-- R315 | the words reachable from a site, each with the values fixed on every path to it -/
def Site.flow (t : Site) (s : State) : Nat → List UInfo → List UInfo → List UInfo
  | 0, known, _ => known
  | _ + 1, known, [] => known
  | n + 1, known, u :: todo =>
    let r := (t.edges s u).foldl (fun (p : List UInfo × List UInfo) e =>
      match learnFact p.1 e with
      | (k, some y) => (k, p.2 ++ [y])
      | (k, none) => (k, p.2)) (known, todo)
    t.flow s n r.1 r.2

/-- The words that a site reaches. -/
def Site.reach (t : Site) (s : State) : List UInfo :=
  let u : UInfo := ⟨(t.first, []), siteEnv t.i t.op⟩
  t.flow s (2 ^ 40) [u] [u]

/-- R318 | the values that G14 may hold where the site's routine ends -/
def Site.exits (t : Site) (s : State) : List Nat :=
  sortNat ((t.reach s).flatMap (fun u =>
    let x := readU s u.node.1
    if x.mode = 3 ∧ u.node.2 = [] then ((u.env.step x (t.nano s u.node)).next).filterMap id else []))

/-! ### Cycles without a dispatch (R319) -/

/-- Whether a word dispatches. -/
def Site.disp (t : Site) (s : State) (u : UNode) : Bool := (t.nano s u).pclass = 3

/-- The nodes that a node leads to directly. -/
def Site.next (t : Site) (s : State) (u : UInfo) : List UNode := (t.edges s u).map (fun e => e.node)

/-- The nodes from which some of `acc` is reached, over given edges, passing only through nodes that a test lets pass. -/
def backReach [BEq α] (es : List (α × α)) (pass : α → Bool) : Nat → List α → List α
  | 0, acc => acc
  | n + 1, acc =>
    let more := (es.filter (fun e => acc.contains e.2 && pass e.2 && !acc.contains e.1)).map (fun e => e.1)
    if more.isEmpty then acc else backReach es pass n (acc ++ more.eraseDups)

/-- R319 | a back edge of a bounded cycle: the LOOP-mode word, its target, the words of its body, and how often it is taken -/
structure ULoop where
  src : UNode
  dst : UNode
  body : List UNode
  times : Option Nat
deriving DecidableEq, Repr

/-- The edges between words that do not dispatch. -/
def Site.quiet (t : Site) (s : State) (r : List UInfo) : List (UNode × UNode) :=
  (r.filter (fun u => !t.disp s u.node)).flatMap (fun u => ((t.next s u).filter (fun v => !t.disp s v)).map (fun v => (u.node, v)))

/-- R319 | the LOOP-mode back edges among words that do not dispatch, each with the words of its cycle, wherever that is entered; a body
that writes LCk otherwise bounds nothing -/
def Site.loops (t : Site) (s : State) (r : List UInfo) : List ULoop :=
  let es := t.quiet s r
  let rev := es.map (fun e => (e.2, e.1))
  r.filterMap (fun u =>
    let x := readU s u.node.1
    let dst : UNode := (blockBase u.node.1 + x.target, u.node.2)
    if x.mode = 6 ∧ es.contains (u.node, dst) then
      let ahead := backReach rev (fun v => v != u.node) (2 ^ 20) [dst]
      let body := (backReach es (fun v => v != dst) (2 ^ 20) [u.node]).filter ahead.contains
      if body.contains dst then
        let ins := (r.filter (fun v => !body.contains v.node)).flatMap (fun v => (t.edges s v).filter (fun e => body.contains e.node))
        let start := (if body.contains (t.first, []) then [none] else []) ++ ins.map (fun e => e.env.get (16 + x.lk))
        let writes := body.any (fun b => (t.nano s b).dest = some (16 + x.lk))
        let c := match start with | some c :: rest => if rest.all (fun v => v == some c) then some c else none | _ => none
        some { src := u.node, dst := dst, body := body, times := if writes then none else c }
      else none
    else none)

/-- Nodes in an order in which every edge leads forward; the nodes of cycles are left out. -/
def topo [BEq α] (es : List (α × α)) : Nat → List α → List α → List α
  | 0, _, done => done
  | n + 1, left, done =>
    let (ready, rest) := left.partition (fun v => es.all (fun e => e.2 != v || !left.contains e.1))
    if ready.isEmpty then done else topo es n rest (done ++ ready)

/-- Whether a node lies on a cycle. -/
def onCycle [BEq α] (es : List (α × α)) (v : α) : Bool :=
  let back := backReach es (fun _ => true) (2 ^ 20) [v]
  (es.filter (fun e => e.1 == v)).any (fun e => back.contains e.2)

/-- R319 | words on a cycle without DISP that nothing bounds -/
def Site.unbounded (t : Site) (s : State) (r : List UInfo) : List UNode :=
  let ls := t.loops s r
  let es := (t.quiet s r).filter (fun e => !ls.any (fun l => l.src == e.1 && l.dst == e.2))
  let nodes := (r.map (fun u => u.node)).filter (fun v => !t.disp s v)
  let done := topo es (nodes.length + 1) nodes []
  let cyc := nodes.filter (fun v => !done.contains v)
  cyc.filter (onCycle es) ++
    ls.flatMap (fun l => if l.times.isNone then l.body else [])

/-! ### Checks (R315) -/

/-- R298 | the causes in table order -/
def causes : List String :=
  ["FENCE-NANO", "FENCE-ADDR", "FENCE-BANK", "FENCE-MEM", "FENCE-QUEUE", "FENCE-UNIT", "FENCE-EVENT", "FENCE-PIN", "FENCE-PA",
   "FENCE-REG", "DISP", "SHEET", "ILLEGAL"]

/-- R322 | whether a word is a result read: it reads C4 or C5 under BR, MWAY or WAIT, or waits on C11 -/
def resultRead (x : UWord) : Bool := x.reads 4 || x.reads 5 || (x.mode = 7 && x.cond = 11)

/-- R315 | what each check after the fences finds in a word of a site -/
def Site.finds (t : Site) (s : State) (r : List UInfo) (item : String) (u : UInfo) : Bool :=
  let x := readU s u.node.1
  let n := t.nano s u.node
  let e := t.entry
  match item with
  | "FLAGS" => (n.pclass = 3 && (e / 2 ^ 30 % 2 = 0 || (n.p 91 91 = 0 && e / 2 ^ 28 % 2 = 0))) ||
      ((x.reads 4 || x.reads 5) && e / 2 ^ 29 % 2 = 0)
  | "WAIT" => x.mode = 7 && !([4, 5, 10, 11].contains x.cond)
  | "UBOUND" => (t.unbounded s r).contains u.node
  | "MSTACK" => x.mode = 2 && (7 ≤ u.node.2.length || uRecurses u.node.1 u.node.2 x)
  | "NEXTOP" => n.dest = some 14 && (u.env.alu x n).isNone
  | "SEGMENT" => n.pclass = 3 && n.p 91 91 = 0 && (match u.env.get (n.p 86 83) with | some k => decide (k < 3) | none => true)
  | _ => t.fence s u == some item

/-- R315 | the checks in table order -/
def microItems : List String := causes ++ ["FLAGS", "WAIT", "UBOUND", "MSTACK", "NEXTOP", "SEGMENT"]

/-- A micro address as 0xAAAA. -/
def uaddrAtom (a : Nat) : Atom := .hx a 4

/-- R169, R315 | the first check that fails: items in table order, sites ascending, words by address -/
def microFault (s : State) (sites : List (Site × List UInfo)) : Option Line :=
  (microItems.filterMap (fun item =>
    (sites.filterMap (fun p =>
      let bad := (p.2.filter (p.1.finds s p.2 item)).map (fun u => u.node.1)
      (sortNat bad)[0]?.map (fun a =>
        e427 "MICRO" item [kv "WHY" [.s "UADDR=", uaddrAtom a, .s ",OP=", .d p.1.i]])))[0]?))[0]?

/-! ### Costs (R319 to R322) -/

/-- The longest way from one word to another, in steps after the first, through words that do not dispatch: over all ways, and over those
that read a result. -/
abbrev Dist := List ((UNode × UNode) × (Nat × Option Nat))

def Dist.get (m : Dist) (x y : UNode) : Option (Nat × Option Nat) := (m.find? (fun e => e.1 == (x, y))).map (fun e => e.2)

def maxOpt (a b : Option Nat) : Option Nat :=
  match a, b with
  | some x, some y => some (max x y)
  | some x, none => some x
  | none, y => y

/-- Longest ways over edges that close no cycle; a way that begins at a result read reads it. -/
def dagDist (es : List (UNode × UNode)) (reads : UNode → Bool) (order : List UNode) : Dist :=
  order.flatMap (fun x =>
    let row := order.foldl (fun (row : List (UNode × (Nat × Option Nat))) v =>
      let here := fun (c : Nat) (r : Option Nat) => (v, (c, if reads v then some c else r))
      if v = x then row ++ [here 0 none]
      else
        let into := (es.filter (fun e => e.2 == v)).filterMap (fun e => (row.find? (fun p => p.1 == e.1)).map (fun p => p.2))
        match into with
        | [] => row
        | p :: l =>
          let best := l.foldl (fun (m : Nat × Option Nat) q => (max m.1 q.1, maxOpt m.2 q.2)) p
          row ++ [here (best.1 + 1) (best.2.map (fun c => c + 1))]) []
    row.map (fun p => ((x, p.1), p.2)))

/-- R319, R322 | a loop whose back edge is taken up to c times lengthens the ways through it; a result read on any part of such a way is a
read of the whole -/
def loopDist (nodes : List UNode) (m : Dist) (l : ULoop) : Dist :=
  let c := l.times.getD 0
  nodes.flatMap (fun x => nodes.filterMap (fun y =>
    let around : Option (Nat × Option Nat) := match m.get x l.src, m.get l.dst l.src, m.get l.dst y with
      | some a, some b, some z =>
        let total := fun (p q r : Nat) => p + (c - 1) * (b.1 + 1) + q - b.1 + 1 + r
        if c = 0 then none
        else some (total a.1 b.1 z.1, maxOpt (a.2.map (fun p => total p b.1 z.1))
          (maxOpt (if 1 < c then b.2.map (fun q => total a.1 q z.1) else none) (z.2.map (fun r => total a.1 b.1 r))))
      | _, _, _ => none
    match m.get x y, around with
    | some d, some e => some ((x, y), (max d.1 e.1, maxOpt d.2 e.2))
    | some d, none => some ((x, y), d)
    | none, some e => some ((x, y), e)
    | none, none => none))

/-- A way of a site from its start or a DISP word to a DISP word or an exit: from, to, cost, whether it reads a result. -/
structure UPath where
  src : Option UNode
  dst : Option UNode
  cost : Nat
  read : Bool
  /-- R321 | quires that the DISP word at the start dispatches; 0 at the site's start -/
  q : Nat
  /-- exits by G14 of the word that ends the routine -/
  exits : List Nat
deriving DecidableEq, Repr

/-- A longest way as the ways of a path: with a result read where there is one, and without. -/
def distWays (d : Nat × Option Nat) : List (Nat × Bool) := (d.1, false) :: (d.2.map (fun c => (c, true))).toList

/-- R321, R322 | the ways of a site, without the 2 steps of dispatch overhead -/
def Site.paths (t : Site) (s : State) (r : List UInfo) : List UPath :=
  let nodes := (r.map (fun u => u.node)).filter (fun v => !t.disp s v)
  let ls := (t.loops s r).mergeSort (fun a b => a.body.length ≤ b.body.length)
  let es := (t.quiet s r).filter (fun e => !ls.any (fun l => l.src == e.1 && l.dst == e.2))
  let m := ls.foldl (loopDist nodes) (dagDist es (fun v => resultRead (readU s v.1)) (topo es (nodes.length + 1) nodes []))
  let ends := r.filter (fun u => (readU s u.node.1).mode = 3 && u.node.2.isEmpty)
  let exitsOf := fun (u : UInfo) => (u.env.step (readU s u.node.1) (t.nano s u.node)).next.filterMap id
  let disps := r.filter (fun u => t.disp s u.node)
  let srcs : List (Option UNode × Nat × List UNode) :=
    (none, 0, [((t.first, []) : UNode)]) :: disps.map (fun u =>
      (some u.node, (match u.env.get ((t.nano s u.node).p 86 83) with | some k => k + 1 | none => 1), t.next s u))
  srcs.flatMap (fun src =>
    let starts := src.2.2.filter (fun a => !t.disp s a)
    -- straight to a DISP word
    (disps.filter (fun u => src.2.2.contains u.node)).map (fun u =>
      { src := src.1, dst := some u.node, cost := 1, read := resultRead (readU s u.node.1), q := src.2.1, exits := [] }) ++
    -- through words that do not dispatch, to a DISP word
    disps.flatMap (fun u =>
      let before := nodes.filter (fun p => (r.any (fun v => v.node == p && (t.next s v).contains u.node)))
      starts.flatMap (fun a => before.flatMap (fun p => ((m.get a p).map distWays |>.getD []).map (fun c =>
        { src := src.1, dst := some u.node, cost := c.1 + 2, read := c.2 || resultRead (readU s u.node.1), q := src.2.1, exits := [] })))) ++
    -- to a word that ends the routine
    (ends.filter (fun u => !t.disp s u.node)).flatMap (fun u =>
      starts.flatMap (fun a => ((m.get a u.node).map distWays |>.getD []).map (fun c =>
        { src := src.1, dst := none, cost := c.1 + 1, read := c.2, q := src.2.1, exits := exitsOf u }))) ++
    -- a DISP word that ends the routine itself
    (ends.filter (fun u => some u.node == src.1)).map (fun u =>
      { src := src.1, dst := none, cost := 0, read := false, q := src.2.1, exits := exitsOf u }))

/-- R259 | how a routine may dispatch first: for each DISP word that it may reach before any other, whether it starts a segment; and the
ops at which it may continue with nothing dispatched -/
def Site.opening (t : Site) (s : State) (r : List UInfo) : List Bool × List Nat :=
  let es := (r.filter (fun u => !t.disp s u.node)).flatMap (fun u => (t.next s u).map (fun v => (v, u.node)))
  let seen := backReach es (fun _ => true) (2 ^ 20) [((t.first, []) : UNode)]
  let here := r.filter (fun u => seen.contains u.node)
  ((here.filter (fun u => t.disp s u.node)).map (fun u => (t.nano s u.node).p 91 91 = 0),
   sortNat ((here.filter (fun u => !t.disp s u.node && (readU s u.node.1).mode = 3 && u.node.2.isEmpty)).flatMap (fun u =>
     (u.env.step (readU s u.node.1) (t.nano s u.node)).next.filterMap id)))

/-- R323 | a site's worst cost from dispatch to its first DISP or to its exit -/
def siteCost (ps : List UPath) : Nat := 2 + ((ps.filter (fun p => p.src.isNone)).map (fun p => p.cost)).foldl max 0

end Sys2Proof.Machine
end

