-- ==== Sys2Proof/Machine/Program.lean ====
section
/-! DEFINITION. The checks of a sequence program: selectable timing sets, stripe bandwidth, and the items of R278. -/

namespace Sys2Proof.Machine

/-! ### Selectable timing sets (R258) -/

/-- R258 | the TS values of the stripe banks' header masks; TS 0 where the stripe is empty -/
def maskSets (s : State) (f : Furnish) : List Nat :=
  let m := f.stripe.foldl (fun m b => m ||| (getBk s b).tsm) 0
  (List.range 32).filter (fun t => m / 2 ^ t % 2 = 1 || (f.stripe.isEmpty && t == 0))

/-- R258 | the TSEL offsets of a program, 0 included -/
def offsets (ops : List Op) : List Nat := sortNat (0 :: (ops.filter (fun o => o.code = 0x32)).map (fun o => o.b % 32))

/-- R327, R328 | a timing set of a furnish -/
def Furnish.tset (f : Furnish) (i : Nat) : TSet := tget f.tsets i {}

/-- R170 | banks that the stripe needs -/
def stripeNeed (width tmin : Nat) : Nat := (25 * width + 2 * tmin - 1) / (2 * tmin)

/-! ### The structure of a program (R264, R278) -/

/-- R264 | LOOP and ENDL in pairs: the target of an ENDL is the op after its own LOOP; the first ENDL of a LOOP is its own -/
def loopPairs (ops : List Op) : List (Nat × Nat) :=
  (numbered 0 ops).foldl (fun ps e =>
    let t := e.2.b % 2 ^ 17
    if e.2.code = 0x21 ∧ 0 < t ∧ t ≤ e.1 ∧ (ops[t - 1]?.map (fun x => x.code)) = some 0x20 ∧ !(ps.any (fun z => z.1 == t - 1))
      then ps ++ [(t - 1, e.1)] else ps) []

/-- Loops whose body holds an op; the ENDL belongs to the body. -/
def enclosing (ls : List (Nat × Nat)) (i : Nat) : List (Nat × Nat) := ls.filter (fun p => p.1 < i && i ≤ p.2)

/-- An op and the return indices of the calls it stands in, newest first. -/
abbrev PNode := Nat × List Nat

/-- R264 | op loop depth at an op along its call chain -/
def depthAt (ls : List (Nat × Nat)) (n : PNode) : Nat :=
  (enclosing ls n.1).length + ((n.2.map (fun r => (enclosing ls (r - 1)).length)).sum)

/-- What follows an op: the ops that may follow it, or what is wrong there. -/
inductive PNext where | go (l : List PNode) | endFail | callFail
deriving DecidableEq, Repr

/-- R262 to R277 | the ops that may follow an op; `exits` gives the ops at which a custom op may continue -/
def pNext (n : PNode) (o : Op) (exits : List Nat) : PNext :=
  let seq : PNode := (n.1 + 1, n.2)
  let tgt : PNode := (o.b % 2 ^ 17, n.2)
  match o.code with
  | 0x01 => .go []
  | 0x21 | 0x25 => .go [seq, tgt]
  | 0x22 => .go [tgt]
  | 0x23 => if 16 ≤ n.2.length ∨ n.2.contains (n.1 + 1) then .callFail else .go [(o.b % 2 ^ 17, (n.1 + 1) :: n.2)]
  | 0x24 => match n.2 with | [] => .endFail | r :: st => .go [(r, st)]
  | c => if 0xE0 ≤ c then .go (exits.map (fun e => (e, n.2))) else .go [seq]

/-- A program with the exits of its custom ops, and how their routines may dispatch first. -/
structure Prog where
  ops : List Op
  entry : Nat
  loops : List (Nat × Nat)
  exits : Tab (List Nat)
  opens : Tab (List Bool × List Nat)

/-- The op at an index; past the end none. -/
def Prog.op (p : Prog) (i : Nat) : Option Op := p.ops[i]?

/-- What follows a node of a program; a node past the last loaded op has nothing after it. -/
def Prog.next (p : Prog) (n : PNode) : PNext :=
  match p.op n.1 with | none => .go [] | some o => pNext n o (tget p.exits n.1 [n.1 + 1])

/-- The nodes that a node leads to. -/
def Prog.succ (p : Prog) (n : PNode) : List PNode := match p.next n with | .go l => l | _ => []

/-- The nodes reachable from some nodes. -/
def Prog.walk (p : Prog) : Nat → List PNode → List PNode → List PNode
  | 0, known, _ => known
  | _ + 1, known, [] => known
  | f + 1, known, n :: todo =>
    let more := ((p.succ n).filter (fun m => !known.contains m)).eraseDups
    p.walk f (known ++ more) (todo ++ more)

/-- The nodes reachable from the program entry. -/
def Prog.reach (p : Prog) : List PNode := p.walk (2 ^ 60) [(p.entry, [])] [(p.entry, [])]

/-! ### Sites -/

/-- Custom op sites of a program. -/
def siteOps (ops : List Op) : List (Nat × Op) := (numbered 0 ops).filter (fun e => 0xE0 ≤ e.2.code)

/-- R299 | whether the dispatch entry of a custom op is defined -/
def defined (f : Furnish) (o : Op) : Bool := tget f.ctab (o.code - 0xE0) 0 / 2 ^ 31 % 2 = 1

/-- The program of a deckle's furnish, with what the analyzer finds of its custom ops whose entries are defined: their exits (R318) and how
they may dispatch first. -/
def progOf (s : State) (d : Nat) (g : Grant) (f : Furnish) : Prog :=
  let ops := program s f
  let sites := ((siteOps ops).filter (fun e => defined f e.2)).map (fun e =>
    let t : Site := { d := d, g := g, f := f, depth := 0, i := e.1, op := e.2 }
    (e.1, t, t.reach s))
  { ops := ops, entry := f.entry, loops := loopPairs ops,
    exits := (siteOps ops).map (fun e => (e.1, ((tget? sites e.1).map (fun t => t.1.exits s)).getD [])),
    opens := sites.map (fun e => (e.1, e.2.1.opening s e.2.2)) }

/-- R258 | the timing sets that a program can select: with every TSEL offset of the program -/
def selectable (s : State) (f : Furnish) : List Nat :=
  sortNat ((offsets (program s f)).flatMap (fun o => (maskSets s f).map (fun t => (t + o) % 32)))

/-- R209 | the shortest period among the selectable sets, in fine steps -/
def tMin (s : State) (f : Furnish) : Nat :=
  match (selectable s f).map (fun t => (f.tset t).period) with
  | [] => 12800
  | x :: r => r.foldl min x

/-! ### The items of R278 -/

/-- R262, R278 | OPCODE: reserved opcodes, and custom ops whose entry is undefined -/
def badOpcode (f : Furnish) (o : Op) : Bool := if 0xE0 ≤ o.code then !defined f o else (opCost o.code).isNone

/-- The ops that an op may branch to. -/
def branchesOf (p : Prog) (i : Nat) (o : Op) : List Nat :=
  match o.code with
  | 0x22 | 0x23 | 0x25 => [o.b % 2 ^ 17]
  | c => if 0xE0 ≤ c then tget p.exits i [] else []

/-- R278 | LOOPNEST: an ENDL or a LOOP without the other, an ENDL inside a loop begun in its body, a branch into a body, a fifth
level -/
def badNest (p : Prog) (reach : List PNode) (i : Nat) (o : Op) : Bool :=
  (o.code = 0x21 && (match p.loops.find? (fun z => z.2 == i) with
    | none => true
    | some z => p.loops.any (fun y => z.1 < y.1 && y.1 < i && i < y.2))) ||
    (o.code = 0x20 && !(p.loops.any (fun z => z.1 == i))) ||
    (branchesOf p i o).any (fun t => (enclosing p.loops t).any (fun l => !(l.1 ≤ i && i ≤ l.2))) ||
    (o.code = 0x20 && (4 ≤ depthAt p.loops (i, []) || reach.any (fun n => n.1 = i && 4 ≤ depthAt p.loops n))) ||
    (i = p.entry && !(enclosing p.loops i).isEmpty)

/-- R262 | whether an op dispatches quires -/
def dispatches (f : Furnish) (o : Op) : Bool :=
  o.code = 0x10 || o.code = 0x11 || o.code = 0x12 || (0xE0 ≤ o.code && tget f.ctab (o.code - 0xE0) 0 / 2 ^ 30 % 2 = 1)

/-- R259 | the first ops that dispatch, on every path from the entry, each with whether it starts a segment there; a custom op dispatches at
the DISP words that it reaches first, and lets the path go on where it may end with none -/
def firstDisp (p : Prog) : Nat → List PNode → List PNode → List (Nat × Bool)
  | 0, _, _ => []
  | _ + 1, _, [] => []
  | k + 1, known, n :: todo =>
    match p.op n.1 with
    | none => firstDisp p k known todo
    | some o =>
      let own : List Bool := if o.code = 0x10 then [o.flag % 2 = 0] else if o.code = 0x11 ∨ o.code = 0x12 then [false]
        else if 0xE0 ≤ o.code then (tget p.opens n.1 ([], [])).1 else []
      let next := if 0xE0 ≤ o.code then (tget p.opens n.1 ([], [])).2.map (fun e => (e, n.2)) else if own.isEmpty then p.succ n else []
      let more := (next.filter (fun m => !known.contains m)).eraseDups
      own.map (fun b => (n.1, b)) ++ firstDisp p k (known ++ more) (todo ++ more)

/-- R263 | the pattern addresses that an op dispatches -/
def dispatched (o : Op) : List Nat :=
  match o.code with
  | 0x10 => (List.range (o.b % 2 ^ 16 + 1)).map (fun i => o.a + i)
  | 0x11 | 0x12 => [o.a]
  | _ => []

/-- R276 | a walk through a learn body: where it stands, the counts of the nested loops that it is in, quires of the body so far -/
structure LWalk where
  node : PNode
  /-- nested loops, innermost first: LOOP index, iterations, quires before it -/
  nest : List (Nat × Nat × Nat)
  n : Nat
deriving DecidableEq, Repr

/-- R276 | the counts of quires of an iteration of a learn body, along every path; none where R276 is broken -/
def learnWalk (p : Prog) (f : Furnish) (l e : Nat) : Nat → List LWalk → List (Option Nat)
  | 0, _ => [none]
  | _ + 1, [] => []
  | k + 1, x :: todo =>
    match p.op x.node.1 with
    | none => [none]
    | some o =>
      if x.node = (e, []) then some x.n :: learnWalk p f l e k todo
      else if o.code = 0x11 ∨ o.code = 0x12 ∨ o.code = 0x25 ∨ o.code = 0x01 ∨ (0xE0 ≤ o.code ∧ dispatches f o) then [none]
      else if x.node.2 = [] ∧ !(l < x.node.1 ∧ x.node.1 ≤ e) then [none]
      else
        let q := if o.code = 0x10 then o.b % 2 ^ 16 + 1 else 0
        let x := { x with n := x.n + q }
        if o.code = 0x20 then
          learnWalk p f l e k ({ x with node := (x.node.1 + 1, x.node.2), nest := (x.node.1, o.b % 2 ^ 24 + 1, x.n) :: x.nest, n := 0 } :: todo)
        else if o.code = 0x21 then
          match x.nest with
          | (_, c, b) :: r => learnWalk p f l e k ({ node := (x.node.1 + 1, x.node.2), nest := r, n := b + c * x.n } :: todo)
          | [] => [none]
        else
          -- a branch that leaves nested loops ends them in their first iteration
          let go := (p.succ x.node).map (fun m =>
            let gone := x.nest.filter (fun y => m.2 == x.node.2 && !((enclosing p.loops m.1).any (fun z => z.1 == y.1)))
            { node := m, nest := x.nest.drop gone.length, n := x.n + (gone.map (fun y => y.2.2)).sum : LWalk })
          if (p.succ x.node).isEmpty then [none] else learnWalk p f l e k (go ++ todo)

/-- R276 | quires of an iteration of the learn loop that follows a LEARN op; none where R276 is broken -/
def learnQuires (p : Prog) (f : Furnish) (i : Nat) : Option Nat :=
  match p.loops.find? (fun z => z.1 == i + 1) with
  | none => none
  | some (l, e) =>
    match learnWalk p f l e (2 ^ 40) [{ node := (l + 1, []), nest := [], n := 0 }] with
    | some c :: r => if r.all (fun x => x == some c) ∧ 4 ≤ c ∧ c ≤ 4096 then some c else none
    | _ => none

/-- R276, R278 | LEARN: directly before a LOOP, its channels granted, its body as R276 asks -/
def badLearn (p : Prog) (f : Furnish) (g : Grant) (i : Nat) (o : Op) : Bool :=
  o.code = 0x31 && (((p.op (i + 1)).map (fun x => x.code)) != some 0x20 ||
    (List.range 4).any (fun n => o.b / 2 ^ n % 2 = 1 && !g.dps.contains n) || (learnQuires p f i).isNone)

/-- R278 | the first op of a list that fails a test -/
def firstBad (ops : List (Nat × Op)) (t : Nat → Op → Bool) : Option Nat := (ops.find? (fun e => t e.1 e.2)).map (fun e => e.1)

/-- R278 | the items in order, each with the first op that fails it, among all loaded ops -/
def programFault (s : State) (g : Grant) (f : Furnish) (p : Prog) : Option Line :=
  let size := patternSize f (widthOf g.ch.length)
  let width := widthOf g.ch.length
  let reach := p.reach
  let first := firstDisp p (2 ^ 60) [(p.entry, [])] [(p.entry, [])]
  let ops := numbered 0 p.ops
  let items : List (String × Option Nat) :=
    [("OPCODE", firstBad ops (fun _ o => badOpcode f o)),
     ("OPFIELD", firstBad ops (fun _ o => !opFieldOk o)),
     ("END", if p.ops.length ≤ p.entry then some p.entry else
        firstBad ops (fun i _ => reach.any (fun n => n.1 = i && (p.next n = .endFail || (p.succ n).any (fun m => p.ops.length ≤ m.1))))),
     ("LOOPNEST", firstBad ops (badNest p reach)),
     ("CALLDEPTH", firstBad ops (fun i _ => reach.any (fun n => n.1 = i && p.next n = .callFail))),
     ("SEGMENT", firstBad ops (fun i o => (o.code = 0x10 && o.flag % 2 = 0 && o.b % 2 ^ 16 < 3) || first.contains (i, false))),
     ("RANGE", firstBad ops (fun _ o => (dispatched o).any (fun q => size ≤ q))),
     ("OVERLAP", firstBad ops (fun _ o => (dispatched o).any (fun q => progSlot f width q))),
     ("TSEL", if (maskSets s f).any (fun t => f.tcount ≤ t) then some p.entry else
        firstBad ops (fun _ o => o.code = 0x32 && (maskSets s f).any (fun t => f.tcount ≤ (t + o.b % 32) % 32))),
     ("LEARN", firstBad ops (badLearn p f g))]
  (items.filterMap (fun e => e.2.map (fun i => [w "E427", w "INVALID", kw "SECT" "PATTERN", kw "ITEM" e.1, kn "AT" i])))[0]?

/-! ### Sites with their depths (R315, R320) -/

/-- R315, R320 | the custom op sites of a program, each at the deepest op loop level at which it stands or is reached, with the words it reaches -/
def sitesOf (s : State) (d : Nat) (g : Grant) (f : Furnish) (p : Prog) : List (Site × List UInfo) :=
  let reach := p.reach
  ((siteOps p.ops).filter (fun e => defined f e.2)).map (fun e =>
    let depth := ((reach.filter (fun n => n.1 = e.1)).map (depthAt p.loops)).foldl max (depthAt p.loops (e.1, []))
    let t : Site := { d := d, g := g, f := f, depth := min depth 4, i := e.1, op := e.2 }
    (t, t.reach s))

end Sys2Proof.Machine
end

