-- ==== Sys2Proof/Machine/Admission.lean ====
section
/-! DEFINITION. Admission: the budget of R209, the dispatch paths of a program, and the conditions of R211. -/

namespace Sys2Proof.Machine

/-! ### Budget (R194, R196, R209) -/

/-- R194 | floor rates in steps per second -/
def Pace.floor : Pace → Nat | .eco => 280000000 | .nominal => 400000000 | .swift => 520000000

/-- The slower of two settings. -/
def slower (a b : Pace) : Pace := if b.floor < a.floor then b else a

/-- R196 | the pace that admission uses: the slower of the old and new settings while the voltage moves -/
def admitPace (s : State) : Pace := (s.pc.low.toList ++ s.pc.next.toList).foldl slower s.pc.now

/-- R209 | the budget in hundredths of a step per quire, for a share and a shortest period in fine steps -/
def budget (s : State) (share tmin : Nat) : Nat :=
  let q : Rat := (((admitPace s).floor * s.pc.d20 * share * 32 * tmin : Nat) : Rat) * 100 / (20 * 8 * 1280000000000)
  q.floor.toNat

/-- R211 | the steps allowed from the program entry to the first dispatch -/
def entryBudget (s : State) (share : Nat) : Nat := (admitPace s).floor * s.pc.d20 * share / 160000

/-! ### Dispatch paths (R211, R321) -/

/-- A point that dispatches: an op, or a DISP word of a custom op. -/
abbrev GNode := PNode × Option UNode

/-- A path from one point to the next: its cost, and whether it begins a run with a lead of 2. -/
structure GEdge where
  src : GNode
  dst : GNode
  cost : Nat
  rr : Bool
  q : Nat
deriving DecidableEq, Repr

/-- A point between dispatches: an op that comes next, the steps so far, and whether a result was read on the way. -/
structure Acc where
  node : PNode
  cost : Nat
  rr : Bool
deriving DecidableEq, Repr

/-- A program with the ways of its custom op sites. -/
structure Costed where
  p : Prog
  sites : Tab (List UPath)

/-- From an op: the dispatching points reached with their costs, and the ops that come next. -/
def Costed.from (x : Costed) (a : Acc) : List (GNode × Nat × Bool) × List Acc :=
  match x.p.op a.node.1 with
  | none => ([], [])
  | some o =>
    if 0xE0 ≤ o.code then
      let ps := (tget x.sites a.node.1 []).filter (fun p => p.src.isNone)
      (ps.filterMap (fun p => p.dst.map (fun u => ((a.node, some u), a.cost + 2 + p.cost, a.rr || p.read))),
       ps.flatMap (fun p => if p.dst.isSome then [] else
         p.exits.map (fun e => { node := (e, a.node.2), cost := a.cost + 2 + p.cost, rr := a.rr || p.read : Acc })))
    else
      let c := a.cost + (opCost o.code).getD 1
      if o.code = 0x10 ∨ o.code = 0x11 ∨ o.code = 0x12 then ([((a.node, none), c, a.rr)], [])
      else ([], (x.p.succ a.node).map (fun m => { node := m, cost := c, rr := a.rr || o.code = 0x25 : Acc }))

/-- The dispatching points reached along every route that passes no op twice. -/
def Costed.routes (x : Costed) : Nat → List PNode → Acc → List (GNode × Nat × Bool)
  | 0, _, _ => []
  | n + 1, seen, a =>
    let r := x.from a
    r.1 ++ (r.2.filter (fun b => !seen.contains b.node)).flatMap (fun b => x.routes n (b.node :: seen) b)

/-- The dispatching points that follow some ops, each with its costliest ways with and without a result read. -/
def Costed.reach (x : Costed) (start : List Acc) : List (GNode × Nat × Bool) :=
  let all := start.flatMap (fun a => x.routes (x.p.reach.length + 1) [a.node] a)
  all.filter (fun e => all.all (fun f => f.1 != e.1 || f.2.2 != e.2.2 || f.2.1 ≤ e.2.1)) |>.eraseDups

/-- R211, R263, R273 | the paths out of a dispatching point -/
def Costed.edges (x : Costed) (g : GNode) : List GEdge :=
  match g.2 with
  | some u =>
    let ps := (tget x.sites g.1.1 []).filter (fun p => p.src == some u)
    let q := ((ps[0]?).map (fun p => p.q)).getD 1
    (ps.filterMap (fun p => p.dst.map (fun v => { src := g, dst := (g.1, some v), cost := p.cost, rr := p.read, q := q : GEdge }))) ++
      (x.reach (ps.flatMap (fun p => if p.dst.isSome then [] else p.exits.map (fun e => { node := (e, g.1.2), cost := p.cost, rr := p.read : Acc })))).map
        (fun e => { src := g, dst := e.1, cost := e.2.1, rr := e.2.2, q := q })
  | none =>
    match x.p.op g.1.1 with
    | none => []
    | some o =>
      let isMatch := o.code = 0x11
      let q := if o.code = 0x10 then o.b % 2 ^ 16 + 1 else 1
      (if isMatch then [{ src := g, dst := g, cost := 2, rr := false, q := 1 }] else []) ++
        (x.reach [{ node := (g.1.1 + 1, g.1.2), cost := 0, rr := isMatch }]).map (fun e => { src := g, dst := e.1, cost := e.2.1, rr := e.2.2, q := q })

/-- All paths of a program. -/
def Costed.graph (x : Costed) : Nat → List GNode → List GNode → List GEdge
  | 0, _, _ => []
  | _ + 1, _, [] => []
  | n + 1, known, g :: todo =>
    let es := x.edges g
    let more := ((es.map (fun e => e.dst)).filter (fun v => !known.contains v)).eraseDups
    es ++ x.graph n (known ++ more) (todo ++ more)

/-- The paths of a program from its entry, and the ways to its first dispatches. -/
def Costed.all (x : Costed) : List (GNode × Nat × Bool) × List GEdge :=
  let f := x.reach [{ node := (x.p.entry, []), cost := 0, rr := false }]
  let g := (f.map (fun e => e.1)).eraseDups
  (f, x.graph (2 ^ 40) g g)

/-! ### Conditions -/

/-- R211 | ops of a cycle that dispatches no quire -/
def Costed.silent (x : Costed) : List Nat :=
  let ns := x.p.reach
  let es := ns.flatMap (fun n => ((x.from { node := n, cost := 0, rr := false }).2).map (fun a => (n, a.node)))
  sortNat ((ns.filter (onCycle es)).map (fun n => n.1))

/-- One round of longest walks: each node takes the best of what it has and of a path into it. -/
def walkRound (es : List GEdge) (b : Rat) (l : List (GNode × Rat × List GNode)) : List (GNode × Rat × List GNode) :=
  l.map (fun x =>
    (es.filter (fun e => e.dst == x.1)).foldl (fun best e =>
      match l.find? (fun y => y.1 == e.src) with
      | some y => let v := y.2.1 + e.cost - e.q * b
                  if best.2.1 < v then (x.1, v, x.1 :: y.2.2) else best
      | none => best) x)

/-- Rounds of longest walks. -/
def walkRounds (es : List GEdge) (b : Rat) : Nat → List (GNode × Rat × List GNode) → List (GNode × Rat × List GNode)
  | 0, l => l
  | n + 1, l => walkRounds es b n (walkRound es b l)

/-- The first cycle of a walk, newest node first. -/
def firstCycle : List GNode → List GNode → Option (List GNode)
  | [], _ => none
  | v :: r, seen => if seen.contains v then some (v :: seen.takeWhile (fun w => w != v) ++ [v]) else firstCycle r (v :: seen)

/-- The costliest path between two points. -/
def edgeBetween (es : List GEdge) (u v : GNode) : Option GEdge :=
  (es.filter (fun e => e.src == u && e.dst == v)).foldl (fun m e =>
    match m with | some f => if f.cost < e.cost then some e else some f | none => some e) none

/-- Cost and quires of a closed walk given in the order of its paths. -/
def cycleSum (es : List GEdge) : List GNode → Nat × Nat
  | u :: v :: r =>
    let p := cycleSum es (v :: r)
    match edgeBetween es u v with | some e => (p.1 + e.cost, p.2 + e.q) | none => p
  | _ => (0, 0)

/-- A cycle whose cost exceeds `b` per quire, as cost and quires. -/
def dearCycle (es : List GEdge) (b : Rat) : Option (Nat × Nat) :=
  let ns := ((es.map (fun e => e.src)) ++ (es.map (fun e => e.dst))).eraseDups
  let start := ns.map (fun v => (v, (0 : Rat), [v]))
  let a := walkRounds es b ns.length start
  let z := a.find? (fun x => ns.length < x.2.2.length)
  z.bind (fun x => (firstCycle x.2.2 []).map (fun c => cycleSum es c))

/-- R213 | the cycle with the greatest cost per quire -/
def worstCycle (es : List GEdge) : Nat → Rat → Option (Nat × Nat) → Option (Nat × Nat)
  | 0, _, best => best
  | n + 1, b, best =>
    match dearCycle es b with
    | some (c, q) => if q = 0 then some (c, q) else worstCycle es n ((c : Rat) / q) (some (c, q))
    | none => best

/-- R211 | the best sum of an acyclic run that goes on from a point, past points that it has not visited -/
def bestRun (es : List GEdge) (b : Rat) : Nat → List GNode → GNode → Rat
  | 0, _, _ => 0
  | n + 1, seen, v => (es.filter (fun e => e.src == v && !seen.contains e.dst)).foldl (fun m e =>
      max m (e.cost - e.q * b + bestRun es b n (e.dst :: seen) e.dst)) 0

/-- R211, R322 | excess and credit of the acyclic run that comes nearest to its credit, or passes it most -/
def worstRun (es : List GEdge) (b : Rat) : Rat × Rat :=
  let runs := (es.filter (fun e => e.src != e.dst)).map (fun e =>
    ((e.cost : Rat) - e.q * b + bestRun es b es.length [e.dst, e.src] e.dst, if e.rr then 0 else 10 * b))
  match runs with
  | [] => (0, 10 * b)
  | r :: l => l.foldl (fun m x => if m.1 - m.2 < x.1 - x.2 then x else m) r

/-- What admission computes for a furnish: budget, entry cost and its limit, dispatchless cycles, worst cycle, worst run. -/
structure Admit where
  /-- in hundredths of a step -/
  b : Nat
  entry : Nat
  limit : Nat
  silent : List Nat
  cycle : Option (Nat × Nat)
  excess : Rat
  credit : Rat
deriving DecidableEq, Repr

/-- R209 to R213, R321 | admission of a furnish under a grant -/
def admission (s : State) (d : Nat) (g : Grant) (f : Furnish) : Admit :=
  let p := progOf s d g f
  let sites := (sitesOf s d g f p).map (fun e => (e.1.i, e.1.paths s e.2))
  let x : Costed := { p := p, sites := sites }
  let b100 := budget s g.share (tMin s f)
  let b : Rat := (b100 : Rat) / 100
  let a := x.all
  let r := worstRun a.2 b
  { b := b100, entry := (a.1.map (fun e => e.2.1)).foldl max 0, limit := entryBudget s g.share, silent := x.silent,
    cycle := worstCycle a.2 (2 ^ 20) 0 none, excess := r.1, credit := r.2 }

/-- A number with two decimals. -/
def two2 (q : Rat) : Atom := .fx (q * 100).floor 2

/-- R211, R212 | the first condition that fails, in the section given -/
def admitFault (sect : String) (a : Admit) : Option Line :=
  let b : Rat := (a.b : Rat) / 100
  if a.limit < a.entry then some (e427 sect "ENTRY" [kv "WHY" [.s "NEED=", .d a.entry, .s ",HAVE=", .d a.limit]])
  else match a.silent with
    | i :: _ => some (e427 sect "NOQUIRE" [kv "WHY" [.s "AT=", .d i]])
    | [] =>
      match a.cycle with
      | some (c, q) =>
        if q * b < c then some (e427 sect "COST" [kv "WHY" [.s "NEED=", .d c, .s ",HAVE=", two2 (q * b)]])
        else if a.credit < a.excess then some (e427 sect "CREDIT" [kv "WHY" [.s "NEED=", two2 a.excess, .s ",HAVE=", two2 a.credit]])
        else none
      | none =>
        if a.credit < a.excess then some (e427 sect "CREDIT" [kv "WHY" [.s "NEED=", two2 a.excess, .s ",HAVE=", two2 a.credit]])
        else none

/-- R211 | admission in a section -/
def admitted (s : State) (d : Nat) (g : Grant) (f : Furnish) (sect : String) : Option Line := admitFault sect (admission s d g f)

/-- R213 | the reply of SEQ COST -/
def costLine (d : Nat) (a : Admit) : Line :=
  [w "OK", w "SEQ", w "COST", dTok d, kv "B" [two2 ((a.b : Rat) / 100)],
   kv "CYCLE" (match a.cycle with | some (c, q) => [.s "C", .d c, .s ",Q", .d q] | none => [.s "NONE"]),
   kv "EXCESS" [two2 a.excess], kv "CREDIT" [two2 a.credit], kn "ENTRY" a.entry]

end Sys2Proof.Machine
end

