-- ==== Sys2Proof/Machine/Float32.lean ====
section
/-! DEFINITION. Binary32 arithmetic of the control engine on bit patterns: round to nearest even, subnormals flushed to zero
with their sign kept (R419). -/

namespace Sys2Proof.Machine

def f32Neg (x : Nat) : Bool := x / 2 ^ 31 % 2 = 1
def f32Exp (x : Nat) : Nat := x / 2 ^ 23 % 256
def f32Man (x : Nat) : Nat := x % 2 ^ 23
def f32Nan (x : Nat) : Bool := f32Exp x = 255 && f32Man x != 0
def f32Inf (x : Nat) : Bool := f32Exp x = 255 && f32Man x = 0

/-- R169 | a finite binary32 value -/
def f32Finite (x : Nat) : Bool := f32Exp x < 255

/-- A power of two. -/
def pow2 (e : Int) : Rat := if 0 ≤ e then ((2 ^ e.toNat : Nat) : Rat) else 1 / ((2 ^ (-e).toNat : Nat) : Rat)

/-- R419 | the value of a finite pattern, a subnormal as zero -/
def f32Rat (x : Nat) : Rat :=
  if f32Exp x = 0 then 0
  else (if f32Neg x then -1 else 1) * ((2 ^ 23 + f32Man x : Nat) : Rat) * pow2 ((f32Exp x : Int) - 150)

/-- A pattern with a sign. -/
def f32Sign (neg : Bool) (x : Nat) : Nat := x % 2 ^ 31 + (if neg then 2 ^ 31 else 0)

/-- The not-a-number that an operation gives; its sign and payload are stated nowhere (log 5). -/
def f32NanOut : Nat := 0x7FC00000 ||| Config.nanBits.toNat

/-- The whole part of the binary logarithm of a positive number. -/
def log2Rat (q : Rat) : Int :=
  let e : Int := (Nat.log2 q.num.natAbs : Int) - Nat.log2 q.den
  if q < pow2 e then e - 1 else if pow2 (e + 1) ≤ q then e + 1 else e

/-- The nearest whole number, ties to even, of a number that is not negative. -/
def nearEven (q : Rat) : Nat :=
  let f := q.floor.toNat
  let d := q - f
  if d < 1 / 2 then f else if 1 / 2 < d then f + 1 else if f % 2 = 0 then f else f + 1

/-- R419 | a number that is not zero, rounded; a result below the smallest normal number is flushed to zero (log 23) -/
def f32Round (q : Rat) : Nat :=
  let neg : Bool := q < 0
  let a := if q < 0 then -q else q
  let e := log2Rat a
  let m := nearEven (a * pow2 (23 - e))
  let e := if m = 2 ^ 24 then e + 1 else e
  let m := if m = 2 ^ 24 then 2 ^ 23 else m
  if e < -126 then f32Sign neg 0
  else if 127 < e then f32Sign neg 0x7F800000
  else f32Sign neg ((e + 127).toNat * 2 ^ 23 + (m - 2 ^ 23))

/-- A decimal as binary32, +0 for zero. -/
def f32Of (q : Rat) : Nat := if q = 0 then 0 else f32Round q

/-- R419 | a flushed operand -/
def f32In (x : Nat) : Nat := if f32Exp x = 0 then f32Sign (f32Neg x) 0 else x

/-- R419 | sum -/
def f32Add (x y : Nat) : Nat :=
  let a := f32In x
  let b := f32In y
  if f32Nan a ∨ f32Nan b then f32NanOut
  else if f32Inf a then (if f32Inf b ∧ f32Neg a != f32Neg b then f32NanOut else a)
  else if f32Inf b then b
  else
    let q := f32Rat a + f32Rat b
    if q = 0 then (if f32Neg a && f32Neg b && a % 2 ^ 31 = 0 && b % 2 ^ 31 = 0 then 2 ^ 31 else 0) else f32Round q

/-- R419 | product -/
def f32Mul (x y : Nat) : Nat :=
  let a := f32In x
  let b := f32In y
  let neg := f32Neg a != f32Neg b
  if f32Nan a ∨ f32Nan b then f32NanOut
  else if (f32Inf a ∧ b % 2 ^ 31 = 0) ∨ (f32Inf b ∧ a % 2 ^ 31 = 0) then f32NanOut
  else if f32Inf a ∨ f32Inf b then f32Sign neg 0x7F800000
  else
    let q := f32Rat a * f32Rat b
    if q = 0 then f32Sign neg 0 else f32Round q

/-- A sign change. -/
def f32Minus (x : Nat) : Nat := f32Sign (!f32Neg x) x

/-- R419 | difference -/
def f32Sub (x y : Nat) : Nat := f32Add x (f32Minus y)

/-- R418, R419 | a row times a column, summed from the first product on -/
def f32Dot (l : List (Nat × Nat)) : Nat :=
  match l with
  | [] => 0
  | (a, b) :: r => r.foldl (fun s p => f32Add s (f32Mul p.1 p.2)) (f32Mul a b)

/-- A pattern as a decimal for a report; infinities and NaN as words. -/
def f32Atom (x : Nat) : List Atom :=
  if f32Nan x then [.s "NAN"] else if f32Inf x then [.s (if f32Neg x then "-INF" else "INF")] else [sig6 (f32Rat x)]

end Sys2Proof.Machine
end

