-- ==== Sys2Proof/Machine/TimeChecks.lean ====
section
/-! DEFINITION. Timing sets: the edges a sheet places on a pin in each format, and the checks of R339. -/

namespace Sys2Proof.Machine

/-- R327 | the edge names, drive edges first -/
inductive EdgeName where | d1 | d2 | d3 | d4 | c1 | c2
deriving DecidableEq, Repr

def EdgeName.name : EdgeName → String | .d1 => "D1" | .d2 => "D2" | .d3 => "D3" | .d4 => "D4" | .c1 => "C1" | .c2 => "C2"

/-- R328 | the offset of an edge of a pin; D3, C1 and C2 follow the period until they are written -/
def TPin.at (p : TPin) (period : Nat) : EdgeName → Nat
  | .d1 => p.d1 | .d2 => p.d2 | .d3 => p.d3.getD (period / 2) | .d4 => p.d4
  | .c1 => p.c1.getD (period / 2) | .c2 => p.c2.getD (3 * period / 4)

/-- A pin's fields in a set. -/
def TSet.of (t : TSet) (ch : Nat) : TPin := tget t.pin ch {}

/-- R333 | what an edge brings: the driver off, the data level, its complement, VIL or VIH -/
inductive EdgeLev where | off | data | comp | vil | vih
deriving DecidableEq, Repr

/-- R254 | a drive code as a sheet's edges see it; every other code is an off code -/
inductive DCode where | zero | one | tt | off
deriving DecidableEq, Repr

/-- R332, R333 | the drive edges that a sheet places on a pin, from its format, its code and whether its driver is on -/
def sheetEdges (f : Fmt) (c : DCode) (on : Bool) : List (EdgeName × EdgeLev) :=
  if c = .off then (if on then [(.d4, .off)] else [])
  else match f with
    | .zw => [(.d1, .data), (.d4, .off)]
    | .nrz => if on then [(.d2, .data)] else [(.d1, .data)]
    | .dnrz => if on then [(.d3, .data)] else [(.d1, .data)]
    | .rz => (if on then [] else [(.d1, .vil)]) ++ [(.d2, .data)] ++ (if c = .one then [(.d3, .vil)] else [])
    | .ro => (if on then [] else [(.d1, .vih)]) ++ [(.d2, .data)] ++ (if c = .zero then [(.d3, .vih)] else [])
    | .sbc => [(.d1, .comp), (.d2, .data), (.d3, .comp)]

/-- R332 | whether the driver is on after a sheet -/
def onAfter (f : Fmt) (c : DCode) (on : Bool) : Bool :=
  match (sheetEdges f c on).getLast? with | some e => e.2 != .off | none => on

/-- The sheets that checks try: codes and driver states. -/
def sheetCases : List (DCode × Bool) := [(.zero, true), (.zero, false), (.one, true), (.one, false), (.off, true), (.off, false)]

/-- Successive edges of one sheet, with their offsets. -/
def within (t : TSet) (ch : Nat) : List ((EdgeName × Nat) × (EdgeName × Nat)) :=
  let p := t.of ch
  sheetCases.flatMap (fun k =>
    let es := (sheetEdges p.fmt k.1 k.2).map (fun e => (e.1, p.at t.period e.1))
    es.zip (es.drop 1))

/-- R340 | last edges of a sheet, with the driver state after it; first edges, with the state before it -/
def lastEdges (t : TSet) (ch : Nat) : List (Bool × EdgeName × Nat) :=
  let p := t.of ch
  sheetCases.filterMap (fun k => ((sheetEdges p.fmt k.1 k.2).getLast?).map (fun e => (onAfter p.fmt k.1 k.2, e.1, p.at t.period e.1)))
def firstEdges (t : TSet) (ch : Nat) : List (Bool × EdgeName × Nat) :=
  let p := t.of ch
  sheetCases.filterMap (fun k => ((sheetEdges p.fmt k.1 k.2).head?).map (fun e => (k.2, e.1, p.at t.period e.1)))

/-- R339 | the compare edges that a pin's mode uses, first and last -/
def strobes (p : TPin) : List EdgeName := if p.win then [.c1, .c2] else [.c1]

/-- R339 | the edges that a pin's format and compare mode use -/
def usedEdges (p : TPin) : List EdgeName :=
  (match p.fmt with
    | .nrz => [.d1, .d2, .d4] | .dnrz => [.d1, .d3, .d4] | .zw => [.d1, .d4] | _ => [.d1, .d2, .d3, .d4]) ++ strobes p

/-- R339 | the WHY of a check within a sheet -/
def whySet (s ch : Nat) (l : List (EdgeName × Nat)) : Line :=
  [kv "WHY" ([.s "SET=", .d s, .s ",CH="] ++ unitName .ch ch ++ l.flatMap (fun e => [.s ",", .s e.1.name, .s "=", .d e.2]))]

/-- R339, R341 | the WHY of a check across sheets -/
def whyPair (a b ch : Nat) (x y : EdgeName × Nat) (press : Bool) : Line :=
  [kv "WHY" ([.s "SET=", .d a, .s ",CH="] ++ unitName .ch ch ++ [.s ",", .s x.1.name, .s "=", .d x.2, .s ",NEXT=", .d b,
    .s ",", .s y.1.name, .s "=", .d y.2] ++ (if press then [.s ",PRESS"] else []))]

/-- R340 | a last edge of one sheet and a first edge of the next that lie closer than a limit -/
def tooNear (a b : TSet) (ch limit : Nat) : Option ((EdgeName × Nat) × (EdgeName × Nat)) :=
  ((lastEdges a ch).flatMap (fun x => (firstEdges b ch).filterMap (fun y =>
    if x.1 = y.1 ∧ (y.2.2 : Int) - ((x.2.2 : Int) - a.period) < limit then some (x.2, y.2) else none)))[0]?

/-- What the checks of timing sets look at: the sets, their count, the selectable ones, channels, the channels whose levels
differ by more than 2 V, and in a press the active sets with theirs. -/
structure TimeView where
  f : Furnish
  sel : List Nat
  ch : List Nat
  wide : List Nat
  old : Option (Furnish × List Nat)

/-- The first of a list of findings. -/
def firstOf (l : List (Option Line)) : Option Line := (l.filterMap id)[0]?

/-- R339 | every set and channel, in order -/
def TimeView.each (v : TimeView) (t : Nat → TSet → Nat → TPin → Option Line) : Option Line :=
  firstOf ((List.range v.f.tcount).flatMap (fun s => v.ch.map (fun c => t s (v.f.tset s) c ((v.f.tset s).of c))))

/-- R339, R341 | every ordered pair of selectable sets, then in a press every pair across its boundary -/
def TimeView.pairs (v : TimeView) (cross : Bool) : List (Nat × TSet × Nat × TSet × Bool) :=
  (v.sel.flatMap (fun a => v.sel.map (fun b => (a, v.f.tset a, b, v.f.tset b, false)))) ++
    (if cross then match v.old with
      | some (f, sel) => sel.flatMap (fun a => v.sel.map (fun b => (a, f.tset a, b, v.f.tset b, true)))
      | none => []
    else [])

def TimeView.eachPair (v : TimeView) (cross : Bool) (t : TSet → TSet → Nat → Option ((EdgeName × Nat) × (EdgeName × Nat))) : Option Line :=
  firstOf ((v.pairs cross).flatMap (fun p => v.ch.map (fun c =>
    (t p.2.1 p.2.2.2.1 c).map (fun e => whyPair p.1 p.2.2.1 c e.1 e.2 p.2.2.2.2))))

/-- R339 | a check, and where it fails first -/
def tsetItems (v : TimeView) : List (String × Option Line) :=
  [("PERIOD", firstOf ((List.range v.f.tcount).map (fun s =>
      let p := (v.f.tset s).period
      if 1024 ≤ p ∧ p ≤ 2147483647 then none else some [kv "WHY" [.s "SET=", .d s, .s ",PERIOD=", .d p]]))),
   ("RANGE", v.each (fun s t c p =>
      ((usedEdges p).find? (fun e => (if e = .d3 ∧ p.fmt = .dnrz then 2 * t.period else t.period) < p.at t.period e)).map
        (fun e => whySet s c [(e, p.at t.period e)]))),
   ("ORDER", v.each (fun s t c _ => ((within t c).find? (fun e => e.2.2 < e.1.2)).map (fun e => whySet s c [e.1, e.2]))),
   ("PULSE", v.each (fun s t c p =>
      if (p.fmt = .rz ∨ p.fmt = .ro ∨ p.fmt = .sbc) ∧ p.at t.period .d3 < p.at t.period .d2 + 384 then
        some (whySet s c [(.d2, p.at t.period .d2), (.d3, p.at t.period .d3)]) else none)),
   ("SEP", (v.each (fun s t c p => ((within t c).find? (fun e => e.2.2 < e.1.2 + 512 &&
      !((p.fmt = .rz || p.fmt = .ro || p.fmt = .sbc) && e.1.1 = .d2 && e.2.1 = .d3))).map (fun e => whySet s c [e.1, e.2]))).orElse
      (fun _ => v.eachPair true (fun a b c => tooNear a b c 512))),
   ("WINDOW", v.each (fun s t c p =>
      if p.win ∧ p.at t.period .c2 < p.at t.period .c1 + 512 then
        some (whySet s c [(.c1, p.at t.period .c1), (.c2, p.at t.period .c2)]) else none)),
   ("CSEP", v.eachPair true (fun a b c =>
      let x := ((strobes (a.of c)).getLast?).getD .c1
      let e := (a.of c).at a.period x
      let g := (b.of c).at b.period .c1
      if (g : Int) - ((e : Int) - a.period) < 512 then some ((x, e), (.c1, g)) else none)),
   ("SWING", (v.each (fun s t c _ => if v.wide.contains c then
      ((within t c).find? (fun e => e.2.2 < e.1.2 + 1600)).map (fun e => whySet s c [e.1, e.2]) else none)).orElse
      (fun _ => v.eachPair false (fun a b c => if v.wide.contains c then tooNear a b c 1600 else none)))]

/-- R339 | the first check of the timing sets that fails -/
def tsetFault (v : TimeView) : Option Line := firstOf ((tsetItems v).map (fun e => e.2.map (fun y => e427 "TSET" e.1 y)))

/-- R258 | the union of the T masks of the stripe banks -/
def tMask (s : State) (f : Furnish) : Nat := f.stripe.foldl (fun m b => m ||| (getBk s b).tm) 0

/-- R339 | the channels that have two drive levels more than 2.0 V apart -/
def wideChans (s : State) (g : Grant) (f : Furnish) : List Nat :=
  ((numbered 0 g.ch).filter (fun e =>
    let l := tget f.lev e.2 {}
    let v := if (tget f.pins e.2 {}).rest = .term ∨ tMask s f / 2 ^ e.1 % 2 = 1 then [l.vih, l.vil, l.vtt] else [l.vih, l.vil]
    v.any (fun a => v.any (fun b => decide (2 < a - b))))).map (fun e => e.2)

end Sys2Proof.Machine
end

