-- ==== Sys2Proof/Machine/Validate.lean ====
section
/-! DEFINITION. Validation of a furnish in the order of R169: what SEAL, LOAD, restore and PRESS refuse. -/

namespace Sys2Proof.Machine

/-- A failure: its item and its WHY, the section still to be named. -/
abbrev Found := Option (String × Line)

def firstFound (l : List Found) : Found := (l.filterMap id)[0]?

/-- An item over objects in order: the first one for which a test gives a WHY. -/
def item (i : String) (l : List α) (t : α → Option Line) : Found := (firstOf (l.map t)).map (fun y => (i, y))

/-- WHY= and atoms. -/
def why (a : List Atom) : Line := [kv "WHY" a]

/-! ### GRANT, PIN -/

/-- R99 | whether a unit is withdrawn -/
def withdrawn (s : State) (k : UKind) (u : Nat) : Bool :=
  match k with
  | .ch => (getFe s (u / 8)).wd | .v => (getBk s u).wd | .dps => (getDps s u).wd | .aux => (getAux s u).wd
  | .adc => (getAdc s u).wd | .tmu => (getTmu s u).wd

def allKinds : List UKind := [.ch, .v, .dps, .aux, .adc, .tmu]

/-- R100 | the units of a grant that are withdrawn, by name -/
def withdrawnUnits (s : State) (g : Grant) : List (UKind × Nat) :=
  allKinds.flatMap (fun k => ((g.of k).filter (withdrawn s k)).map (fun u => (k, u)))

/-- R99, R100 | the names of withdrawn units: a channel is withdrawn with its die -/
def withdrawnNames (l : List (UKind × Nat)) : List (List Atom) :=
  (l.map (fun u => if u.1 = .ch then [Atom.s "FE", Atom.d ((u.2 / 8 : Nat) : Int)] else unitName u.1 u.2)).eraseDups

/-- R163 | the totals of shares and slots of deckles that are not CLOSED -/
def shareTotal (s : State) : Nat := (deckles.map (fun d => (getDk s d).grant.share)).sum
def slotTotal (s : State) : Nat := (deckles.map (fun d => (getDk s d).grant.slots)).sum

/-- R169 item 1 (item names: log 24) -/
def checkGrant (s : State) (d : Nat) (g : Grant) : Found :=
  firstFound
    [item "WITHDRAWN" (withdrawnNames (withdrawnUnits s g)) (fun u => some (why (.s "UNIT=" :: u))),
     item "MISSING" (g.banks.filter (fun b => (getBk s b).own != some d)) (fun b => some (why (.s "UNIT=" :: unitName .v b))),
     if 8 < shareTotal s then some ("SHARES", why [.s "TOTAL=", .d (shareTotal s)]) else none,
     if 16 < slotTotal s then some ("SLOTS", why [.s "TOTAL=", .d (slotTotal s)]) else none]

/-- R471 | the channel of which a source code is the pin, if any -/
def adcPin (c : Nat) : Option Nat := if c ≤ 0x2F then some c else if c ≤ 0x5F then some (c - 0x30) else none

/-- R494 | the channel that a TMU source names, if any -/
def tmuPin (t : Option TmuSrc) : Option Nat := match t with | some (.ch n _ _) => some n | _ => none

/-- The channels that a furnish names: in PIN, LEVEL, TSET, ADC entries and TMU sources. -/
def namedPins (g : Grant) (f : Furnish) : List Nat :=
  sortNat (tkeys f.pins ++ tkeys f.lev ++ tkeys f.dsk ++ f.tsets.flatMap (fun t => tkeys t.2.pin) ++
    g.adc.flatMap (fun n => let x := tget f.adc n {}; (List.range (min x.count 16)).filterMap (fun e => adcPin (tget x.ent e ({} : AdcEntry)).src)) ++
    g.tmu.flatMap (fun n => let x := tget f.tmu n {}; (tmuPin x.frm).toList ++ (tmuPin x.dst).toList))

/-- R169 item 2 (item name: log 24); rest states are legal by their type -/
def checkPin (g : Grant) (f : Furnish) : Found :=
  item "GRANT" ((namedPins g f).filter (fun c => !g.ch.contains c)) (fun c => some (why (.s "CH=" :: unitName .ch c)))

/-! ### LEVEL (R359) -/

/-- A WHY of a channel with a field and its value. -/
def whyCh (c : Nat) (x : String) (v : Rat) : Line := why ([.s "CH="] ++ unitName .ch c ++ [.s ",", .s x, .s "=", sig6 v])

/-- R357 | the values of a channel that have a range, with it -/
def levRanges (l : LevCfg) : List (String × Rat × Rat × Rat) :=
  [("VIH", l.vih, -1, 6), ("VIL", l.vil, -1, 6), ("VTT", l.vtt, -1, 6), ("VOH", l.voh, -3 / 2, 13 / 2), ("VOL", l.vol, -3 / 2, 13 / 2),
   ("IOH", l.ioh, 0, 24 / 1000), ("IOL", l.iol, 0, 24 / 1000), ("VCOM", l.vcom, -1, 6)] ++
  (if l.pmu = .fv then [("FORCE", l.force, -3 / 2, 13 / 2)] else []) ++
  [("ICLAMP", l.iclamp, 2, 100), ("VCLAMPLO", l.vclo, -3 / 2, 13 / 2), ("VCLAMPHI", l.vchi, -3 / 2, 13 / 2)]

/-- R358 | the comparator range, true for HI -/
def crangeHi (l : LevCfg) : Bool := 4 < l.voh

/-- R359 -/
def checkLevel (g : Grant) (f : Furnish) : Found :=
  let lev := fun c => tget f.lev c {}
  firstFound
    [item "RANGE" g.ch (fun c =>
       let l := lev c
       match (levRanges l).find? (fun e => e.2.1 < e.2.2.1 || e.2.2.2 < e.2.1) with
       | some e => some (whyCh c e.1 e.2.1)
       | none => if (l.pmu = .fv ∧ l.forceA = some true) ∨ (l.pmu = .fi ∧ l.forceA = some false) then some (whyCh c "FORCE" l.force) else none),
     item "DRIVE" g.ch (fun c => if (lev c).vih < (lev c).vil then some (whyCh c "VIH" (lev c).vih) else none),
     item "THRESH" g.ch (fun c => if (lev c).voh < (lev c).vol then some (whyCh c "VOH" (lev c).voh) else none),
     item "CRANGE" g.ch (fun c => if crangeHi (lev c) ∧ (lev c).vol < 1 / 2 then some (whyCh c "VOL" (lev c).vol) else none),
     item "PMUFORCE" g.ch (fun c =>
       let l := lev c
       if l.pmu = .fi ∧ (l.irange < l.force ∨ l.force < -l.irange) then some (whyCh c "FORCE" l.force)
       else if (l.pmu = .fi ∨ l.pmu = .fv) ∧ l.vchi ≤ l.vclo then some (whyCh c "VCLAMPLO" l.vclo) else none),
     item "PMUSPAN" g.ch (fun c =>
       let l := lev c
       if l.pmu = .fv ∧ (l.force < l.vclo ∨ l.vchi < l.force) then some (whyCh c "FORCE" l.force) else none)]

/-! ### INSTR -/

/-- R415 | source and sink clamp limits of a range -/
def dpsClamps (range : Rat) : (Rat × Rat) × (Rat × Rat) :=
  if range = 3 / 2 then ((15 / 1000, 3 / 2), (3 / 1000, 3 / 10)) else ((range / 100, range), (range / 100, range))

def whyDps (n : Nat) (a : List Atom) : Line := why ([.s "DPS="] ++ unitName .dps n ++ .s "," :: a)

/-- R422 | the matrices with their sizes -/
def dpsMatrices (x : DpsCfg) : List (String × List Nat × Nat) :=
  [("A", x.matA, x.nx * x.nx), ("B", x.matB, x.nx), ("C", x.matC, 2 * x.nx), ("L", x.matL, 2 * x.nx), ("K", x.matK, x.nx), ("N", x.matN, 1)]

/-- R422 | entry i of the feed-forward table -/
def fftEntry (x : DpsCfg) (i : Nat) : Nat := mnum x.fft (4 * i) 4

/-- R422 | a binary32 parameter inside a range -/
def f32In01 (v : Nat) (hi : Rat) : Bool := f32Finite v && 0 ≤ f32Rat v && f32Rat v ≤ hi

/-- R422 | values with their ranges -/
def dpsRanges (x : DpsCfg) : List (String × Rat × Rat × Rat) :=
  [("VMAX", x.vmax, (1 / 2 : Rat), (15 / 2 : Rat)), ("TARGET", x.target, 0, 7), ("SLEW", x.slew, (1 / 100 : Rat), 10)] ++
  (match x.bend with | some b => [("BEND", b, (1 / 1000 : Rat), (10 : Rat))] | none => []) ++
  [("SETTLE", x.settle, 0, 10000), ("SBDIV", x.sbdiv, 1 / 10, 2), ("NX", (x.nx : Rat), 1, 6), ("FFOFS", (x.ffofs : Rat), 0, 4095)]

/-- R423 -/
def checkDps (g : Grant) (f : Furnish) : Found :=
  let cfg := fun n => tget f.dps n {}
  firstFound
    [item "RANGE" g.dps (fun n =>
       let x := cfg n
       match (dpsRanges x).find? (fun e => e.2.1 < e.2.2.1 || e.2.2.2 < e.2.1) with
       | some e => some (whyDps n [.s e.1, .s "=", sig6 e.2.1])
       | none =>
         if !f32In01 x.gain 1 then some (whyDps n (.s "GAIN=" :: f32Atom x.gain))
         else if !f32In01 x.qa (1 / 4) then some (whyDps n (.s "QA=" :: f32Atom x.qa))
         else if !f32In01 x.qf 1 then some (whyDps n (.s "QF=" :: f32Atom x.qf)) else none),
     item "FINITE" g.dps (fun n =>
       let x := cfg n
       match (dpsMatrices x).find? (fun m => m.2.1.any (fun v => !f32Finite v)) with
       | some m => some (whyDps n [.s "MATRIX=", .s m.1])
       | none => match (List.range 4096).find? (fun i => !f32Finite (fftEntry x i)) with
         | some i => some (whyDps n [.s "FFTABLE=", .d i])
         | none => none),
     item "DIM" g.dps (fun n => ((dpsMatrices (cfg n)).find? (fun m => m.2.1.length != 0 && m.2.1.length != m.2.2)).map
       (fun m => whyDps n [.s "MATRIX=", .s m.1])),
     item "VMAX" g.dps (fun n => if (cfg n).vmax - 1 / 10 < (cfg n).target then some (whyDps n [.s "TARGET=", sig6 (cfg n).target]) else none),
     item "CLAMP" g.dps (fun n =>
       let x := cfg n
       let c := dpsClamps x.range
       if x.src < c.1.1 ∨ c.1.2 < x.src then some (whyDps n (.s "ISRC=" :: ampAtoms x.src))
       else if x.snk < c.2.1 ∨ c.2.2 < x.snk then some (whyDps n (.s "ISNK=" :: ampAtoms x.snk)) else none)]

/-- R461 | whether a program holds a MARK of m -/
def hasMark (ops : List Op) (m : Nat) : Bool := ops.any (fun o => o.code = 0x30 && o.flag % 8 = m)

/-- R461, R474, R494 | whether a start source is refused -/
def badStart (f : Furnish) (ops : List Op) (t : Trig) : Bool :=
  match t with | .chain => f.group.isNone | .mark m => !hasMark ops m | _ => false

/-- The entries of all granted channels or converters, in order. -/
def entriesOf (l : List Nat) (count : Nat → Nat) : List (Nat × Nat) := l.flatMap (fun n => (List.range (count n)).map (fun e => (n, e)))

def whyUnit (k : String) (u : UKind) (n : Nat) (a : List Atom) : Line := why ([.s k, .s "="] ++ unitName u n ++ a)
def entryAtoms (e : Nat) : List Atom := [.s ",ENTRY=", .d e]

/-- R461 -/
def checkAux (g : Grant) (f : Furnish) (ops : List Op) : Found :=
  let cfg := fun n => tget f.aux n {}
  let es := entriesOf g.aux (fun n => min (cfg n).count 8192)
  firstFound
    [item "RANGE" g.aux (fun n =>
       if (cfg n).count < 1 ∨ 8192 < (cfg n).count then some (whyUnit "AUX" .aux n [.s ",COUNT=", .d (cfg n).count])
       else firstOf ((List.range (cfg n).count).map (fun e =>
         let x := auxEntry (cfg n).list e
         if 0x666666666666 < x.ftw ∨ x.amp < 0 ∨ x.dur < 4 then some (whyUnit "AUX" .aux n (entryAtoms e)) else none))),
     item "CLIP" es (fun p =>
       let x := auxEntry (cfg p.1).list p.2
       if 32767 < (if x.ofs < 0 then -x.ofs else x.ofs) + x.amp then some (whyUnit "AUX" .aux p.1 (entryAtoms p.2)) else none),
     item "FIELD" es (fun p => if (auxEntry (cfg p.1).list p.2).rest ≠ 0 then some (whyUnit "AUX" .aux p.1 (entryAtoms p.2)) else none),
     item "START" g.aux (fun n => if badStart f ops (cfg n).start then some (whyUnit "AUX" .aux n []) else none)]

/-- R471 | whether a source code is selectable under a grant -/
def adcSelectable (g : Grant) (c : Nat) : Bool :=
  if c ≤ 0x2F then g.ch.contains c
  else if c ≤ 0x5F then g.ch.contains (c - 0x30)
  else if c ≤ 0x6F then g.dps.contains (c % 4)
  else if c ≤ 0x71 then g.aux.contains (c - 0x70)
  else if c ≤ 0x77 then (List.range 8).all (fun i => g.ch.contains (8 * (c - 0x72) + i))
  else 0x80 ≤ c && c ≤ 0x83

/-- R473 | entry i of a converter's sequence -/
def AdcCfg.entry (x : AdcCfg) (i : Nat) : AdcEntry := tget x.ent i {}

/-- R476 | scan duration in quarters of a microsecond -/
def scanQuarters (x : AdcCfg) : Nat := ((List.range x.count).map (fun i => (x.entry i).ts + 1)).sum

/-- R483 | the least sampling time of a burn-out entry, in quarters of a microsecond -/
def tMinBo (e : AdcEntry) : Nat := ((20 + e.cfix) * (98 / 100) * (8192 / 1000 / e.gain) / (95 / 100) * 4).ceil.toNat

/-- R474 | the least sampling time of a gain, in quarters of a microsecond -/
def tsLeast (gain : Nat) : Nat := if gain = 4 then 2 else if gain = 8 then 4 else if gain = 16 then 8 else 1

/-- R474 -/
def checkAdc (g : Grant) (f : Furnish) (ops : List Op) : Found :=
  let cfg := fun n => tget f.adc n {}
  let es := entriesOf g.adc (fun n => min (cfg n).count 16)
  let bad := fun (t : AdcCfg → Nat → AdcEntry → Bool) (p : Nat × Nat) =>
    if t (cfg p.1) p.2 ((cfg p.1).entry p.2) then some (whyUnit "ADC" .adc p.1 (entryAtoms p.2)) else none
  firstFound
    [item "RANGE" g.adc (fun n =>
       let x := cfg n
       if x.count < 1 ∨ 16 < x.count ∨ x.rpt < 1 ∨ 65535 < x.rpt ∨ (x.trig = .timer ∧ (x.period < 625 ∨ 12500000000 < x.period)) then
         some (whyUnit "ADC" .adc n [])
       else firstOf ((List.range x.count).map (fun e =>
         let y := x.entry e
         if y.ts < 1 ∨ 256 < y.ts ∨ !([1, 2, 4, 8, 16].contains y.gain) ∨ (y.pt ≠ 0 ∧ (y.pt < 1 / 1000 ∨ 4 < y.pt)) ∨ y.cfix < 0 ∨ 1000 < y.cfix then
           some (whyUnit "ADC" .adc n (entryAtoms e)) else none))),
     item "SOURCE" es (bad (fun _ _ y => !adcSelectable g y.src)),
     item "TSAMP" es (bad (fun _ _ y => y.ts < tsLeast y.gain)),
     item "BURNOUT" es (bad (fun _ _ y => y.bo && (0x2F < y.src || (tget f.lev y.src {}).pmu != .fn || (y.pt = 0 && y.ts < tMinBo y)))),
     item "PULSE" es (bad (fun x i y => y.pt ≠ 0 && (!y.bo || i = 0 ||
       (let z := x.entry (i - 1); z.bo || z.src != y.src || z.gain != y.gain)))),
     item "PERIOD" g.adc (fun n =>
       let x := cfg n
       if x.trig = .timer ∧ 2 * x.period < (if x.step then 1 else x.rpt) * scanQuarters x * 625 then some (whyUnit "ADC" .adc n []) else none),
     item "START" g.adc (fun n => if badStart f ops (cfg n).trig then some (whyUnit "ADC" .adc n []) else none)]

/-- R494 | a source that the grant does not let a TMU select -/
def badSrc (g : Grant) (t : Option TmuSrc) : Bool :=
  match t with
  | some (.ch n _ _) => !g.ch.contains n
  | some (.tmx _) => !g.tmu.contains 0
  | some (.tmy _) => !g.tmu.contains 1
  | none => false

/-- R494 -/
def checkTmu (g : Grant) (f : Furnish) (ops : List Op) : Found :=
  let cfg := fun n => tget f.tmu n {}
  let bad := fun (t : TmuCfg → Bool) (n : Nat) => if t (cfg n) then some (whyUnit "TMU" .tmu n []) else none
  firstFound
    [item "RANGE" g.tmu (bad (fun x => x.event < 1 || 65535 < x.event || 10 ^ 16 < x.holdoff || x.timeout < 10 ^ 9 || 10 ^ 16 < x.timeout ||
       x.n < 1 || 16777216 < x.n || x.gate < 1 || 10000000 < x.gate || 65535 < x.gates || x.prescale < 1 || 65536 < x.prescale ||
       x.xthr < -2 || 6 < x.xthr || x.ythr < -2 || 6 < x.ythr || x.xskew < -2048 || 2047 < x.xskew || x.yskew < -2048 || 2047 < x.yskew)),
     item "SOURCE" g.tmu (bad (fun x => badSrc g x.frm || badSrc g x.dst)),
     item "HOLDOFF" g.tmu (bad (fun x => x.timeout ≤ x.holdoff)),
     item "START" g.tmu (bad (fun x => badStart f ops x.trig))]

/-! ### PATTERN, OPTIONS -/

/-- R169 item 6, R170, R278 -/
def checkPattern (s : State) (d : Nat) (g : Grant) (f : Furnish) : Option Line :=
  let width := widthOf g.ch.length
  let need := stripeNeed width (tMin s f)
  if f.stripe.length < need then some (e427 "PATTERN" "STRIPE" [kv "WHY" [.s "NEED=", .d need, .s ",HAVE=", .d f.stripe.length]])
  else if !(match f.prog with | some b => g.banks.contains b && decide (f.entry < 131072) | none => false) then
    some (e427 "PATTERN" "ENTRY" [kv "WHY" [.s "OP=", .d f.entry]])
  else match f.stripe.find? (fun b => !g.banks.contains b) with
    | some b => some (e427 "PATTERN" "STRIPE" [kv "WHY" (.s "BANK=" :: unitName .v b)])
    | none => programFault s g f (progOf s d g f)

/-- R246 | a chain group is ON on this module -/
def groupOn (s : State) (g : Nat) : Bool := (tget? s.ch.groups g).isSome

/-- R169 item 9, R246, R378 -/
def checkOptions (s : State) (g : Grant) (f : Furnish) : Found :=
  firstFound
    [match f.group with
       | some n => if groupOn s n then none else some ("GROUP", why [.s "GROUP=", .d n])
       | none => if f.trig = .chain then some ("GROUP", why [.s "GROUP=NONE"]) else none,
     match f.bbank with
       | some b => if !g.banks.contains b || f.stripe.contains b || f.prog = some b || f.cbank = some b then
           some ("BROKE", why (.s "BANK=" :: unitName .v b)) else none
       | none => none,
     match f.cbank with
       | some b => if !g.banks.contains b || f.stripe.contains b || f.prog = some b then
           some ("CAPTURE", why (.s "BANK=" :: unitName .v b)) else none
       | none => none]

/-! ### The order of R169 -/

/-- A finding as a refusal in its section. -/
def refuse427 (sect : String) (x : Found) : Option Line := x.map (fun e => e427 sect e.1 e.2)

/-- R169 item 4 -/
def checkInstr (s : State) (g : Grant) (f : Furnish) : Option Line :=
  let ops := program s f
  refuse427 "INSTR" (firstFound [checkDps g f, checkAux g f ops, checkAdc g f ops, checkTmu g f ops])

/-- R169 item 5, with the sets of a press's active furnish (R341) -/
def checkTset (s : State) (g : Grant) (f : Furnish) (old : Option Furnish) : Option Line :=
  tsetFault { f := f, sel := selectable s f, ch := g.ch, wide := wideChans s g f, old := old.map (fun o => (o, selectable s o)) }

/-- R413 | a program bank that holds a double-bit error is not read by the steward -/
def programReadable (s : State) (f : Furnish) : Option Line :=
  match f.prog with
  | some b => match bankErr s (opAddr b 0) (8 * f.nops) with | some (b, a) => if f.nops = 0 then none else some (e437 b a) | none => none
  | none => none

/-- R36 | a furnish as its deckle may read it: a program bank that the grant does not hold is no program bank -/
def Furnish.within (f : Furnish) (g : Grant) : Furnish := { f with prog := f.prog.filter (fun b => g.banks.contains b) }

/-- R169 | the first check that a furnish fails -/
def validate (s : State) (d : Nat) (g : Grant) (f : Furnish) : Option Line :=
  let f := f.within g
  firstOf
    [programReadable s f,
     refuse427 "GRANT" (checkGrant s d g), refuse427 "PIN" (checkPin g f), refuse427 "LEVEL" (checkLevel g f), checkInstr s g f,
     checkTset s g f none, checkPattern s d g f,
     microFault s (sitesOf s d g f (progOf s d g f)),
     admitted s d g f "PATTERN", refuse427 "OPTIONS" (checkOptions s g f)]

/-- R183, R212, R341 | the checks of a press: the sections that PRESS may change, and admission -/
def validatePress (s : State) (d : Nat) (g : Grant) (f old : Furnish) : Option Line :=
  firstOf
    [refuse427 "PIN" (checkPin g f), refuse427 "LEVEL" (checkLevel g f), checkInstr s g f, checkTset s g f (some old),
     admitted s d g f "PATTERN"]

/-- The section and item of a refusal, as INVALID reports them (R173). -/
def sectItem (l : Line) : String × String :=
  let get := fun (k : String) => match l.find? (fun t => t.key == k) with
    | some t => match t.val with | (.s x) :: _ => x | _ => ""
    | none => ""
  (get "SECT", get "ITEM")

end Sys2Proof.Machine
end

