-- ==== Sys2Proof/Machine/Arm.lean ====
section
/-! DEFINITION. ARM: its checks, what it does when it begins and when its settings are in effect; the WARM flag and what
follows it; entry to READY. -/

namespace Sys2Proof.Machine

/-! ### Checks -/

/-- R240 | this module is a chain slave -/
def isSlave (s : State) : Bool := s.nv.chain = 2

/-- R371, R442 | a die or a power stage of the deckle is hot -/
def tooHot (s : State) (g : Grant) : Bool := g.ch.any (fun c => (getFe s (c / 8)).hot) || g.dps.any (fun n => (getDps s n).hot)

/-- The furnish that an ARM applies: the working one in OPEN, the active one in STOPPED. -/
def armFurnish (k : Deckle) : Furnish := if k.st = .opened then k.work else k.act

/-- R157, R172, R193, R371, R442 | the checks of an ARM that precede WARM -/
def armState (s : State) (d : Nat) : Res Unit := do
  let k := getDk s d
  need (!k.rearm) (e420reason "REARM")
  need (k.arming.isNone && (k.st = .opened || k.st = .stopped)) (e420 k)
  need (!tooHot s k.grant) (e420reason "HOT")
  need (k.st = .stopped || k.sealN.isSome) e430

/-- R228 | an ARM needs the loop locked, and no switch of it under way -/
def armLock (s : State) : Res Unit := need (s.rf.lock = .locked && s.rf.moving.isNone) (e433in s.rf.cls.name)

/-- R228, R345, R504, R247, R160 | the checks of an ARM that follow WARM -/
def armChecks (s : State) (d : Nat) : Res Unit := do
  let k := getDk s d
  let f := armFurnish k
  armLock s
  match k.grant.ch.find? (fun c => !(getPin s c).dll) with | some c => .error (e436ch c) | none => pure ⟨⟩
  match k.grant.tmu.find? (fun n => !(getTmu s n).lock) with | some n => .error (e436tmu n) | none => pure ⟨⟩
  need (f.group.isNone || (s.ch.cal && (!isSlave s || s.ch.hb))) e434
  match admitted s d k.grant f "SEQ" with | some e => .error e | none => pure ⟨⟩

/-! ### Settling times (R362, R429, R465) -/

/-- R362 | settling of a PMU after its connection, in ticks -/
def pmuTicks (l : LevCfg) : Nat :=
  let fv := if l.irange ≤ 2 / 1000000 then 250000 else if l.irange ≤ 20 / 1000000 then 62500
    else if l.irange ≤ 200 / 1000000 then 37500 else 25000
  match l.pmu with | .off => 0 | .fn => 2500 | .fv => fv | .fi => 2 * fv

/-- R429 | ticks until a profile of some pieces has arrived and settled -/
def arriveTicks (l : List Piece) (c : DpsCfg) : Nat := usTicks (profTime l + c.settle)

/-- R363 | the two level ticks of an ARM that begins now -/
def armTicks (s : State) : Nat × Nat := let t := ceilTo (now s + 250) 1250; (t, t + 18750)

/-- R160, R362, R438, R465 | the timebase value by which the settings of an ARM have settled -/
def armSettled (s : State) (k : Deckle) (f : Furnish) : Nat :=
  let (t1, t2) := armTicks s
  let pm := k.grant.ch.map (fun c => t2 + pmuTicks (tget f.lev c {}))
  let dp := k.grant.dps.map (fun n =>
    let c := tget f.dps n {}
    if c.enable then t2 + arriveTicks (planProfile 0 0 c.target c.slew c.bend) c else t2)
  let ax := k.grant.aux.map (fun n => if (tget f.aux n {}).relay then now s + 4375000 else now s)
  (pm ++ dp ++ ax).foldl max (t1 + 25000)

/-! ### What ARM does -/

/-- R530 | HOLD lines mapped to a deckle are released when it arms -/
def releaseHold (s : State) (d : Nat) : State :=
  { s with ph := { s.ph with evt := tmap s.ph.evt (fun e =>
      if e.src = some (.deckle d) && e.hold then e.letGo else e) } }

/-- R361, R363 | a pin at the start of an ARM: off, its levels queued for the level tick -/
def armPin (t1 : Nat) (l : LevCfg) (p : Pin) : Pin :=
  { pinOff p with lq := [(t1, { l with pmu := .off, load := false })], dead := false, px := l.pmu != .off, lim := false }

/-- R160, R283, R377, R379, R386, R407 | an ARM begins: the furnish becomes active, banks wake, logs, results and counters
are emptied, the thread stands at the program entry, and levels are queued -/
def armBegin (s : State) (d : Nat) : State :=
  let k := getDk s d
  let fresh := k.st = .opened
  let f := armFurnish k
  let settled := armSettled s k f
  let t1 := (armTicks s).1
  let s := releaseHold s d
  let s := forEach k.grant.banks s wakeBank
  let s := forEach (f.bbank.toList ++ f.cbank.toList) s zeroBank
  let s := forEach k.grant.ch s (fun s c => modPin s c (armPin t1 (tget f.lev c {})))
  modDk s d (fun k =>
    { k with act := f, shad := if fresh then f else k.shad, dirty := if fresh then false else k.dirty,
             need := if fresh then [] else k.need, staged := if fresh then [] else k.staged,
             stagedN := if fresh then 0 else k.stagedN,
             waitWarm := false, cause := none, why := none, mchk := false, lastQ := none, lastTb := 0, cnt := [],
             thr := { ip := f.entry, active := true, depth := depthAt (loopPairs (program s f)) (f.entry, []) }, seq := {}, res := {}, arming := some settled,
             trace := { k.trace with lastTime := none } })

/-- R421, R438 | a DPS channel at ARM -/
def armDps (t : Nat) (c : DpsCfg) (x : Dps) : Dps :=
  let y := { x with cfg := c, nextT := none, ffNext := none, ffCmd := none, ffofs := c.ffofs, xh := List.replicate c.nx 0, div := 0, fb := false,
                    f0 := false, late := none, ramp := false, dwell := none, clamp := .none, lim := false }
  if c.enable then retarget { y with on := true, dis100 := false, pt := t, r := 0, sl := 0, segs := [], tgt := 0 } c.target
  else dpsOff y.wd y

/-- R431 | the feed-forward table of a channel in its window of the control-engine pad -/
def loadFft (s : State) (n : Nat) (c : DpsCfg) : State := { s with cep := mcopy s.cep c.fft 0 16384 (n * 2 ^ 15 + 16384) }

/-- R516 | the measurement-pad window of a TMU emptied -/
def clearTmuPad (s : State) (n : Nat) : State := { s with mpad := mzero s.mpad (n * 2 ^ 13) (2 ^ 13) }

/-- R160, R360, R363 | the settings of an ARM are in effect: pins at rest with their loads set and, as in every rest state, off, PMUs, supplies, generators, converters and TMUs -/
def armUnits (s : State) (d : Nat) : State :=
  let k := getDk s d
  let f := k.act
  let s := forEach k.grant.ch s (fun s c => modPin s c (fun p =>
    let l := tget f.lev c {}
    pinRest { p with cur := l, lq := [], dwell := none, cdwell := none, recon := none, last := none, px := l.pmu != .off }
      (tget f.pins c {}).rest))
  let s := forEach k.grant.dps s (fun s n => modDps (loadFft s n (tget f.dps n {})) n (armDps (now s) (tget f.dps n {})))
  let s := forEach k.grant.aux s (fun s n => modAux s n (fun a =>
    { wd := a.wd, cfg := tget f.aux n {}, st := .idle, relay := (tget f.aux n {}).relay : Aux }))
  let s := forEach k.grant.adc s (fun s n => modAdc s n (fun a => { wd := a.wd, cfg := tget f.adc n {} : Adc }))
  forEach k.grant.tmu s (fun s n => tmuWindow (modTmu (clearTmuPad s n) n (fun t =>
    { wd := t.wd, lock := t.lock, cfg := tget f.tmu n {}, dA := t.dA, dB := t.dB, dis := t.dis : Tmu })) n)

/-- R160, R103 | an ARM completes: ARMED, with its reply or, after a wait for WARM, its note -/
def armEnd (s : State) (d : Nat) : State :=
  match (getDk s d).arming with
  | none => s
  | some t =>
    let s := armUnits s d
    let s := keep (setSt (modDk s d (fun k => { k with arming := none })) d .armed)
    if hasJob s (fun j => j == .arm d) then finishJob s (fun j => j == .arm d) [] [w "OK", w "ARM", dTok d, kt "SETTLED" t]
    else event s d .note [w "WARM-ARMED", kt "SETTLED" t]

/-- R102 | an ARM that waits for WARM: the furnish demands it and the module is WARMING -/
def mustWait (s : State) (d : Nat) : Bool := (armFurnish (getDk s d)).warm && s.md.st = .warming

/-- The error word of a refusal. -/
def errWord (e : Line) : String := match e[1]? with | some t => (match t.val with | [.s x] => x | _ => "") | none => ""

/-- R103 | the fields of WARM-ARM-REFUSED -/
def warmRefused (e : Line) : Line :=
  if errWord e = "INVALID" then w "WARM-ARM-REFUSED" :: e.drop 2 else [w "WARM-ARM-REFUSED", kw "WHY" (errWord e)]

/-- R103 | a deckle that waited for WARM arms, or stays as it is with a note -/
def warmArm (s : State) (d : Nat) : State :=
  if (getDk s d).waitWarm then
    let s := modDk s d (fun k => { k with waitWarm := false })
    match (do armState s d; armChecks s d : Res Unit) with
    | .ok _ => armBegin s d
    | .error e => event s d .note (warmRefused e)
  else s

/-! ### Module state notes and WARM (R80, R92, R104, R223) -/

/-- R92 | entry to WARMING or READY -/
def enterState (s : State) (st : ModState) (fields : Line) : State :=
  let s := { s with md := { s.md with st := st, cause := "" } }
  evtRaise (sendAll s ([w "!NOTE", w "STATE", w st.name] ++ fields)) .modl .note

/-- R80, R103 | entry to READY: deckles that wait for WARM arm -/
def enterReady (s : State) (fields : Line) : State := deckles.foldl warmArm (enterState s .ready fields)

/-- R512 | WARM was clear between the first stamp and the last -/
def markNotWarm (x : Tmu) : Tmu := if x.busy && (x.startS.isSome || !x.stamps.isEmpty) then { x with notwarm := true } else x

/-- R80, R104, R223 | WARM takes a value, and the module state follows it; WARM-LOST goes out before the state line -/
def setWarm (s : State) (b : Bool) : State :=
  let s := { s with md := { s.md with warm := b }, tmu := if b then s.tmu else tmap s.tmu markNotWarm }
  if b && s.md.st = .warming then enterReady s []
  else if !b && s.md.st = .ready then enterState (sendQueued (noteAll s [w "WARM-LOST"])) .warming []
  else s

/-- R223, R4 | WARM when the loop is locked to a source -/
def warmAtLock (s : State) (src : RefSrc) : Bool :=
  match s.nv.variant with | .o => src != .int || s.md.oven | .x => true

end Sys2Proof.Machine
end

