-- ==== Sys2Proof/Machine/Timing.lean ====
section
/-! DEFINITION. Timing sets and deskew: the TSET commands, deskew by TDR, and the locks of the delay lines. -/

namespace Sys2Proof.Machine

def tenantForm (x : String) : Form := { word := x }
def readForm (x : String) : Form := { word := x, ro := true }

/-- R350 | the granted channels that a list names; an empty list stands for ALL, or for no list given -/
def chansOf (k : Deckle) (pos : Nat) (l : List URange) : Res (List Nat) :=
  if l.isEmpty then .ok k.grant.ch else unitsOf k pos .ch l

/-- R121, R329 | a time in fine steps: bare, or converted to the nearest step, halves up -/
def readFine (pos : Nat) (lo hi : Int) (v : Val) : Res Int := do
  need v.fits (e400 pos)
  let q ← if v.unit = .none then pure v.num
    else if v.unit.kind = .time then pure (v.num * v.unit.factor * 1280000000000) else .error (e400 pos)
  let n := (q + 1 / 2).floor
  need (lo ≤ n ∧ n ≤ hi) (e419 pos)
  pure n

/-- The number of a timing set of the furnish that an edit acts on. -/
def setArg (pos n : Nat) (f : Furnish) : Res Unit := need (n < f.tcount) (e419 pos)

/-- R328 | the set count changes; sets that fall away are no longer written -/
def putCount (n : Nat) (f : Furnish) : Furnish := { f with tcount := n, tsets := f.tsets.filter (fun e => e.1 < n) }

/-- The contents of a set changed. -/
def modSet (i : Nat) (g : TSet → TSet) (f : Furnish) : Furnish := { f with tsets := tset f.tsets i (g (f.tset i)) }

/-- R350, R166 -/
def execTsetCount (h : Hdr) (n : Nat) (s : State) : Out :=
  noram s (.tsetCount h n) (tenantForm "TSET") h (fun s => do
    need (1 ≤ n ∧ n ≤ 32) (e419 2)
    let d := myDk s h
    let (s, t) ← edit s d (some "TSET-COUNT") (putCount n)
    ok s ([w "OK", w "TSET", dTok d, w "COUNT"] ++ t))

/-- R327, R350 -/
def execTsetPeriod (h : Hdr) (i : Nat) (v : Val) (s : State) : Out :=
  noram s (.tsetPeriod h i v) (tenantForm "TSET") h (fun s => do
    let d := myDk s h
    setArg 2 i (getDk s d).editing
    let p ← readFine 3 0 2147483647 v
    let (s, t) ← edit s d none (modSet i (fun x => { x with period := p.toNat }))
    ok s ([w "OK", w "TSET", dTok d, { val := [.d i] }] ++ t))

/-- R327 | one field of a pin in a set -/
def tpinField (pos : Nat) (g : TPin → TPin) (f : Fld) : Res (TPin → TPin) := do
  let time : Res Nat := do return (← readFine pos 0 4294967295 (← argNum pos f.val)).toNat
  match f.key with
  | "FMT" => do
    let x ← pick pos [("NRZ", Fmt.nrz), ("DNRZ", .dnrz), ("RZ", .rz), ("RO", .ro), ("SBC", .sbc), ("ZW", .zw)] (← argWord pos f.val)
    pure (fun p => { g p with fmt := x })
  | "CMP" => do
    let x ← pick pos [("EDGE", false), ("WINDOW", true)] (← argWord pos f.val)
    pure (fun p => { g p with win := x })
  | "D1" => do let x ← time; pure (fun p => { g p with d1 := x })
  | "D2" => do let x ← time; pure (fun p => { g p with d2 := x })
  | "D3" => do let x ← time; pure (fun p => { g p with d3 := some x })
  | "D4" => do let x ← time; pure (fun p => { g p with d4 := x })
  | "C1" => do let x ← time; pure (fun p => { g p with c1 := some x })
  | "C2" => do let x ← time; pure (fun p => { g p with c2 := some x })
  | _ => .error (e400 pos)

/-- R327, R350 -/
def execTsetPinFields (h : Hdr) (i : Nat) (l : List URange) (f : List Fld) (s : State) : Out :=
  noram s (.tsetPinFields h i l f) (tenantForm "TSET") h (fun s => do
    let d := myDk s h
    let k := getDk s d
    setArg 2 i k.editing
    let g ← foldFields tpinField 4 id f
    need (!f.isEmpty) (e400 4)
    let cs ← chansOf k 3 l
    let (s, t) ← edit s d none (modSet i (fun x => { x with pin := cs.foldl (fun p c => tset p c (g (tget p c {}))) x.pin }))
    ok s ([w "OK", w "TSET", dTok d, { val := [.d i] }] ++ t))

/-- R328, R350 -/
def execTsetCopy (h : Hdr) (i : Nat) (r : Nat) (s : State) : Out :=
  noram s (.tsetCopy h i r) (tenantForm "TSET") h (fun s => do
    let d := myDk s h
    setArg 2 i (getDk s d).editing
    setArg 4 r (getDk s d).editing
    let (s, t) ← edit s d none (fun f => modSet i (fun _ => f.tset r) f)
    ok s ([w "OK", w "TSET", dTok d, { val := [.d i] }] ++ t))

/-- A field in fine steps, starred while it follows PERIOD (R588). -/
def starTok (key : String) (v : Option Nat) (dflt : Nat) : Tok :=
  match v with | some n => kn key n | none => kv key [.d dflt, .s "*"]

/-- The words for the fields of a pin in a set. -/
def tpinLine (x : TSet) (c : Nat) (star : Bool) : Line :=
  let p := x.of c
  let follow := fun (k : String) (v : Option Nat) (e : EdgeName) =>
    if star then starTok k v (p.at x.period e) else kn k (p.at x.period e)
  [kw "FMT" p.fmt.name, kw "CMP" (if p.win then "WINDOW" else "EDGE"), kn "D1" p.d1, kn "D2" p.d2, follow "D3" p.d3 .d3, kn "D4" p.d4,
   follow "C1" p.c1 .c1, follow "C2" p.c2 .c2]

/-- R350, R588 -/
def execTsetShow (h : Hdr) (i : Nat) (l : Option (List URange)) (s : State) : Out :=
  noram s (.tsetShow h i l) (readForm "TSET") h (fun s => do
    let d := myDk s h
    let k := getDk s d
    setArg 2 i k.inForce
    let cs ← chansOf k 4 (l.getD [])
    let x := k.inForce.tset i
    okBody s ([w "TS", { val := [.d i] }, kn "PERIOD" x.period] ::
        (sortNat cs).map (fun c => [w "TP", { val := [.d i] }, uTok .ch c] ++ tpinLine x c true))
      [w "OK", w "TSET", w "SHOW", dTok d, { val := [.d i] }, kn "N" (sortNat cs).length])

/-- R347 | one deskew field -/
def deskewField (pos : Nat) (g : Deskew → Deskew) (f : Fld) : Res (Deskew → Deskew) := do
  let x ← readFine pos (-2048) 2047 (← argNum pos f.val)
  match f.key with
  | "DRV" => pure (fun p => { g p with drv := x })
  | "CMP" => pure (fun p => { g p with cmp := x })
  | _ => .error (e400 pos)

/-- R347, R350 -/
def execTsetDeskew (h : Hdr) (l : List URange) (f : List Fld) (s : State) : Out :=
  noram s (.tsetDeskew h l f) (tenantForm "TSET") h (fun s => do
    let d := myDk s h
    let g ← foldFields deskewField 4 id f
    need (!f.isEmpty) (e400 4)
    let cs ← unitsOf (getDk s d) 3 .ch l
    let (s, t) ← edit s d none (fun x => { x with dsk := cs.foldl (fun p c => tset p c (g (tget p c {}))) x.dsk })
    ok s ([w "OK", w "TSET", dTok d, w "DESKEW"] ++ t))

/-- R348 | the sweep begins: each pin stands at VIL until it ends -/
def execTsetDeskewMeasure (h : Hdr) (l : List URange) (s : State) : Out :=
  noram s (.tsetDeskewMeasure h l) (tenantForm "TSET") h (fun s => do
    let d := myDk s h
    let k := getDk s d
    let cs ← unitsOf k 4 .ch l
    inSt k [.stopped]
    let s := forEach cs s (fun s c => modPin s c (fun p => if p.dead || p.px then p else { p with drv := .vil, on := true }))
    .ok (keep s, .later (.deskew d cs)))

/-- R348 | the one-way delay of a round trip, in fine steps, rounded up -/
def halfTrip (rt : Int) : Int := (rt + 1) / 2

/-- R348 | the round trip found for a channel, none beyond 3,200 fine steps -/
def tripOf (res : List TdrRes) (c : Nat) : Option Int :=
  ((res.find? (fun r => r.ch = c)).bind (fun r => r.delay)).filter (fun rt => 0 ≤ rt ∧ rt ≤ 3200)

/-- R348, R351 | the sweep ends: levels and rest states restored, the deskew in the shadow, and the reply; a STOP OFF that waited goes on -/
def execDeskewMeasureComplete (dt : Nat) (d : Fin 8) (res : List TdrRes) (s : State) : Out :=
  let s := advance s dt
  match s.jobs.find? (fun j => match j.kind with | .deskew e _ => e == (d : Nat) | _ => false) with
  | some j =>
    match j.kind with
    | .deskew _ cs =>
      let k := getDk s d
      let s := if k.st = .stopped then forEach cs s (fun s c => modPin s c (fun p => pinRest p (restOf k c))) else s
      let found := cs.filterMap (fun c => (tripOf res c).map (fun rt => (c, rt)))
      let s := modDk s d (fun k => { k with dirty := true, shad := { k.shad with
        dsk := found.foldl (fun p e => tset p e.1 { drv := -halfTrip e.2, cmp := halfTrip e.2 }) k.shad.dsk } })
      let body := cs.map (fun c => [w "TD", uTok .ch c] ++ (match tripOf res c with
        | some rt => [kv "RT" [.d rt], kv "DRV" [.d (-halfTrip rt)], kv "CMP" [.d (halfTrip rt)]]
        | none => [w "NONE"]))
      let s := completeJob (keep s) j body [w "OK", w "TSET", w "DESKEW", w "MEASURE", dTok d, kn "N" cs.length, w "SHADOW"]
      .next (if hasJob s (fun j => j == .stopOff d) then beginOff s d else s)
    | _ => .next s
  | none => .next s

/-- R350, R588 -/
def execTsetDeskewShow (h : Hdr) (s : State) : Out :=
  noram s (.tsetDeskewShow h) (readForm "TSET") h (fun s =>
    let d := myDk s h
    let k := getDk s d
    okBody s (k.grant.ch.map (fun c => let x := tget k.inForce.dsk c {}
        [w "DS", uTok .ch c, kv "DRV" [.d x.drv], kv "CMP" [.d x.cmp]]))
      [w "OK", w "TSET", w "DESKEW", w "SHOW", dTok d, kn "N" k.grant.ch.length])

/-! ### Delay lines (R345) -/

/-- R345, R351, R534 | a line goes out of lock; while the loop is in holdover no fault is raised for it -/
def execFDll (dt : Nat) (ch : Fin 48) (s : State) : Out :=
  let s := advance s dt
  let held := !(getPin s ch).dll || s.rf.lock = .holdover
  let s := modPin s ch (fun p => { p with dll := false })
  let f := [kv "CH" (unitName .ch ch)]
  if held then .next s
  else match holder s .ch ch with
    | some d => .next (detect s d .dll f)
    | none => .next (if linesOpen s then ownerEvent s .note (w "F-DLL" :: f) else s)

/-- R345, R524 | a line relocks -/
def execDllLocked (dt : Nat) (ch : Fin 48) (s : State) : Out :=
  let s := advance s dt
  if (getPin s ch).dll then .next s
  else
    let t := [w "DLL-LOCKED", kv "CH" (unitName .ch ch)]
    let s := modPin s ch (fun p => { p with dll := true })
    let s := if linesOpen s then ownerEvent s .note t else s
    match holder s .ch ch with
    | some d => .next (queueEv s d false .note (w "!NOTE" :: t))
    | none => .next s

end Sys2Proof.Machine
end

