-- ==== Sys2Proof/Machine/FrontEnd.lean ====
section
/-! DEFINITION. The pin front end: PIN and LEVEL commands, level ticks, range and mode dwells, and the protection of pins. -/

namespace Sys2Proof.Machine

/-! ### PIN (R373) -/

/-- R373 | the characters of a pin name -/
def pinNameOk (n : String) : Bool :=
  1 ≤ n.length && n.length ≤ 12 && n.toList.all (fun c => c = '-' || alnum c.toNat)

/-- R373 -/
def execPinName (h : Hdr) (ch : Nat) (name : String) (s : State) : Out :=
  noram s (.pinName h ch name) (tenantForm "PIN") h (fun s => do
    need (pinNameOk name) (e400 3)
    readUnit 2 .ch ch
    let d := myDk s h
    holds (getDk s d) .ch [ch]
    let (s, t) ← edit s d none (fun f => { f with pins := tset f.pins ch { tget f.pins ch {} with name := name } })
    ok s ([w "OK", w "PIN", dTok d, kn "N" 1] ++ t))

/-- R166, R373 -/
def execPinRest (h : Hdr) (l : List URange) (r : String) (s : State) : Out :=
  noram s (.pinRest h l r) (tenantForm "PIN") h (fun s => do
    let x ← pick 3 [("HIZ", Rest.hiz), ("LOW", .low), ("HIGH", .high), ("TERM", .term)] r
    let d := myDk s h
    let cs ← unitsOf (getDk s d) 2 .ch l
    let (s, t) ← edit s d none (fun f => { f with pins := cs.foldl (fun p c => tset p c { tget p c {} with rest := x }) f.pins })
    ok s ([w "OK", w "PIN", dTok d, kn "N" (sortNat cs).length] ++ t))

/-- R251 | the pin index of a channel in a grant -/
def pinIndex (k : Deckle) (c : Nat) : Nat := (k.grant.ch.filter (fun x => x < c)).length

/-- R119, R588 | the name of a pin, in upper case as the module sends names -/
def nameTok (n : String) : Tok := kw "NAME" (if n = "" then "NONE" else String.ofList (n.toList.map Char.toUpper))

/-- R373, R588 -/
def execPinShow (h : Hdr) (l : Option (List URange)) (s : State) : Out :=
  noram s (.pinShow h l) (readForm "PIN") h (fun s => do
    let d := myDk s h
    let k := getDk s d
    let cs := sortNat (← chansOf k 3 (l.getD []))
    okBody s (cs.map (fun c => let p := tget k.inForce.pins c {}
        [w "PN", uTok .ch c, kn "P" (pinIndex k c), nameTok p.name, kw "REST" p.rest.name]))
      [w "OK", w "PIN", w "SHOW", dTok d, kn "N" cs.length])

/-! ### LEVEL (R357) -/

/-- A decimal in a DAC's span. -/
def readSpan (pos : Nat) (u : Dim) (scale lo hi : Rat) (f : Fld) : Res Rat := do
  return (← readRange pos u (lo / scale) (hi / scale) (← argNum pos f.val)) * scale

/-- R357 | one field of LEVEL; a value outside the DAC's span is out of range, the rest is judged by validation -/
def levelField (pos : Nat) (g : LevCfg → LevCfg) (f : Fld) : Res (LevCfg → LevCfg) := do
  let volt := readSpan pos .V 1 (-3 / 2) (13 / 2) f
  let amp := readSpan pos .mA (1 / 1000) 0 (24 / 1000) f
  match f.key with
  | "VIH" => do let x ← volt; pure (fun l => { g l with vih := x })
  | "VIL" => do let x ← volt; pure (fun l => { g l with vil := x })
  | "VTT" => do let x ← volt; pure (fun l => { g l with vtt := x })
  | "VOH" => do let x ← volt; pure (fun l => { g l with voh := x })
  | "VOL" => do let x ← volt; pure (fun l => { g l with vol := x })
  | "IOH" => do let x ← amp; pure (fun l => { g l with ioh := x })
  | "IOL" => do let x ← amp; pure (fun l => { g l with iol := x })
  | "VCOM" => do let x ← volt; pure (fun l => { g l with vcom := x })
  | "LOAD" => do let x ← pickOnOff pos f.val; pure (fun l => { g l with load := x })
  | _ => .error (e400 pos)

/-- R357 | the five current ranges -/
def iranges : List Rat := [2 / 1000000, 20 / 1000000, 200 / 1000000, 2 / 1000, 32 / 1000]

def pmuNames : List (String × PmuMode) := [("OFF", .off), ("FV", .fv), ("FI", .fi), ("FN", .fn)]

/-- R357 | one field of LEVEL PMU other than FORCE -/
def pmuField (pos : Nat) (g : LevCfg → LevCfg) (f : Fld) : Res (LevCfg → LevCfg) := do
  match f.key with
  | "PMU" => do let x ← pick pos pmuNames (← argWord pos f.val); pure (fun l => { g l with pmu := x })
  | "IRANGE" => do
    let v ← argNum pos f.val
    need (v.unit != .none) (e400 pos)
    let x ← readVal pos .A v
    need (iranges.contains x) (e419 pos)
    pure (fun l => { g l with irange := x })
  | "ICLAMP" => do let x ← readRange pos .pct 0 100 (← argNum pos f.val); pure (fun l => { g l with iclamp := x })
  | "VCLAMPLO" => do let x ← readSpan pos .V 1 (-3 / 2) (13 / 2) f; pure (fun l => { g l with vclo := x })
  | "VCLAMPHI" => do let x ← readSpan pos .V 1 (-3 / 2) (13 / 2) f; pure (fun l => { g l with vchi := x })
  | "FORCE" => do
    let v ← argNum pos f.val
    need (v.fits && (v.unit = .none || v.unit.kind = .volt || v.unit.kind = .amp)) (e400 pos)
    pure (fun l =>
      let l := g l
      let amps := if v.unit = .none then l.pmu = .fi else v.unit.kind = .amp
      { l with force := v.num * (if v.unit = .none then 1 else v.unit.factor), forceA := some amps })
  | _ => .error (e400 pos)

/-- Fields with FORCE last, so that it is read under the PMU mode as it stands after the command (R357). -/
def forceLast (l : List (Nat × Fld)) : List (Nat × Fld) :=
  l.filter (fun e => e.2.key != "FORCE") ++ l.filter (fun e => e.2.key == "FORCE")

/-- R357 | the fields of LEVEL PMU, in order, FORCE last -/
def pmuFields (f : List Fld) : Res (LevCfg → LevCfg) := do
  let _ ← foldFields pmuField 3 id f
  (forceLast (numbered 3 f)).foldlM (fun g e => pmuField e.1 g e.2) id

/-- A level edit over channels. -/
def putLevels (cs : List Nat) (g : LevCfg → LevCfg) (f : Furnish) : Furnish :=
  { f with lev := cs.foldl (fun p c => tset p c (g (tget p c {}))) f.lev }

/-- R357, R373 -/
def execLevel (h : Hdr) (l : List URange) (f : List Fld) (s : State) : Out :=
  noram s (.level h l f) (tenantForm "LEVEL") h (fun s => do
    let g ← foldFields levelField 3 id f
    need (!f.isEmpty) (e400 3)
    let d := myDk s h
    let cs ← unitsOf (getDk s d) 2 .ch l
    let (s, t) ← edit s d none (putLevels cs g)
    ok s ([w "OK", w "LEVEL", dTok d, { val := rangeList l }] ++ t))

/-- R357, R373 -/
def execLevelPmu (h : Hdr) (l : List URange) (f : List Fld) (s : State) : Out :=
  noram s (.levelPmu h l f) (tenantForm "LEVEL") h (fun s => do
    let g ← pmuFields f
    need (!f.isEmpty) (e400 3)
    let d := myDk s h
    let cs ← unitsOf (getDk s d) 2 .ch l
    let (s, t) ← edit s d none (putLevels cs g)
    ok s ([w "OK", w "LEVEL", dTok d, { val := rangeList l }] ++ t))

/-- R357 | the nearest code of a 16-bit DAC over a span -/
def dacCode (lo span v : Rat) : Nat := min 65535 (roundRat ((v - lo) * 65536 / span)).toNat

/-- R588 | value:code of a DAC, the value being the one the code stands for -/
def dacTok (key : String) (lo span v : Rat) (unit : Rat → List Atom) : Tok :=
  let c := dacCode lo span v
  kv key (unit (lo + c * span / 65536) ++ [.s ":", .hx c 4])

def volts (q : Rat) : List Atom := [sig6 q, .s "V"]

/-- R358 | span of the comparator range in which a channel works -/
def compSpan (l : LevCfg) : Rat × Rat := if crangeHi l then (1 / 2, 6) else (-3 / 2, 11 / 2)

/-- A current range as text. -/
def irangeAtoms (q : Rat) : List Atom := if q < 1 / 1000 then [sig6 (q * 1000000), .s "uA"] else [sig6 (q * 1000), .s "mA"]

def PmuMode.name : PmuMode → String | .off => "OFF" | .fv => "FV" | .fi => "FI" | .fn => "FN"

/-- FORCE with its unit. -/
def forceIsAmp (l : LevCfg) : Bool := match l.forceA with | some b => b | none => l.pmu = .fi

/-- R588 | the line of a channel -/
def levelLine (c : Nat) (l : LevCfg) : Line :=
  let v := fun (k : String) (x : Rat) => dacTok k (-3 / 2) 8 x volts
  let cs := compSpan l
  [w "LV", uTok .ch c, v "VIH" l.vih, v "VIL" l.vil, v "VTT" l.vtt, dacTok "VOH" cs.1 cs.2 l.voh volts, dacTok "VOL" cs.1 cs.2 l.vol volts,
   dacTok "IOH" 0 (24 / 1000) l.ioh ampAtoms, dacTok "IOL" 0 (24 / 1000) l.iol ampAtoms, v "VCOM" l.vcom, kw "LOAD" (onOff l.load),
   kw "CRANGE" (if crangeHi l then "HI" else "LO"), kw "PMU" l.pmu.name,
   if forceIsAmp l then dacTok "FORCE" (-l.irange) (2 * l.irange) l.force ampAtoms else v "FORCE" l.force,
   kv "IRANGE" (irangeAtoms l.irange), kv "ICLAMP" [sig6 l.iclamp, .s "%"], v "VCLAMPLO" l.vclo, v "VCLAMPHI" l.vchi]

/-- R373, R588 -/
def execLevelShow (h : Hdr) (l : Option (List URange)) (s : State) : Out :=
  noram s (.levelShow h l) (readForm "LEVEL") h (fun s => do
    let d := myDk s h
    let k := getDk s d
    let cs := sortNat (← chansOf k 3 (l.getD []))
    okBody s (cs.map (fun c => levelLine c (tget k.inForce.lev c {}))) [w "OK", w "LEVEL", w "SHOW", dTok d, kn "N" cs.length])

/-! ### Level ticks and dwells (R361 to R368) -/

/-- R354, R365 to R367 | a level entry takes effect at a tick; a load that it sets acts from the next instant of R335 -/
def applyLevel (t : Nat) (p : Pin) (l : LevCfg) : Pin :=
  let o := p.cur
  -- comparator range
  let comp := crangeHi o != crangeHi l
  let p := if comp then { p with cdwell := some (t + 6250, l.voh, l.vol) } else p
  let voh := if comp then 0 else l.voh
  let vol := if comp then 0 else l.vol
  let base : LevCfg := { l with voh := voh, vol := vol }
  let p :=
    if l.pmu = .off && (o.pmu != .off || (p.px && p.recon.isNone)) then { p with cur := base, recon := some t }
    else if o.pmu != .off && o.pmu != l.pmu then
      { p with cur := { base with pmu := .fn, force := 0 }, dwell := some (t + 12500, l) }
    else if o.pmu = l.pmu && o.irange != l.irange && o.pmu = .fv then
      { p with cur := { base with force := o.force, irange := min o.irange l.irange }, dwell := some (t + 25000, l) }
    else if o.pmu = l.pmu && o.irange != l.irange && o.pmu = .fi then
      { p with cur := { base with force := 0, irange := o.irange, vclo := o.vclo, vchi := o.vchi }, dwell := some (t + 25000, l) }
    else { p with cur := base }
  if p.dead then { p with cur := { p.cur with pmu := .off }, load := false, dwell := none }
  else { p with load := p.load && l.load && l.pmu = .off && !p.px }

/-- R361 | an entry that a later one reaches at the same level tick -/
def superseded (u : Nat) (r : List (Nat × LevCfg)) : Bool := match r with | [] => false | e :: _ => ceilTo e.1 1250 = ceilTo u 1250

/-- R361, R374 | the entries of a pin that are due at a level tick, in order, each acting at an instant: of those of one tick the last; those
behind a dwell wait -/
def dueLevels (tick t : Nat) : List (Nat × LevCfg) → Pin → Pin
  | [], p => { p with lq := [] }
  | (u, l) :: r, p =>
    if u ≤ tick && p.dwell.isNone && p.cdwell.isNone then dueLevels tick t r (if superseded u r then p else applyLevel t p l) else { p with lq := (u, l) :: r }

/-- R63, R219, R361 | what is due in the level queues at the latest level tick takes effect at an instant; a PMU that it connects or disconnects counts for KEEPER -/
def levelUpdate (s : State) (t : Nat) : State :=
  if s.rf.run then keep { s with pin := tmap s.pin (fun p => dueLevels (gridTick s) t p.lq p) } else s

/-- R219, R304, R361 | the level tick; one that falls due while the vendor region is reloaded takes effect when that ends -/
def execLevelTick (dt : Nat) (s : State) : Out :=
  let s := advance s dt
  .next (if s.md.reload then s else levelUpdate s (gridTick s))

/-- R367 | the dwell of a pin ends, and what waited for it takes effect -/
def endDwell (tick t : Nat) (p : Pin) : Pin :=
  let p := match p.cdwell with
    | some (u, voh, vol) => if u ≤ t then { p with cdwell := none, cur := { p.cur with voh := voh, vol := vol } } else p
    | none => p
  let p := match p.dwell with
    | some (u, l) => if u ≤ t then { p with dwell := none, cur := { l with voh := p.cur.voh, vol := p.cur.vol } } else p
    | none => p
  dueLevels tick t p.lq p

/-- R366, R367 -/
def execRangeDwellEnd (dt : Nat) (ch : Fin 48) (s : State) : Out :=
  let s := advance s dt
  .next (if (getPin s ch).dwell.isSome || (getPin s ch).cdwell.isSome then keep (modPin s ch (endDwell (gridTick s) (now s))) else s)

/-- R365 | 5 us after a PMU disconnects the codes act again -/
def execPmuReconnectEnd (dt : Nat) (ch : Fin 48) (s : State) : Out :=
  let s := advance s dt
  .next (modPin s ch (fun p => match p.recon with
    | some t => if t + 6250 ≤ now s then { p with recon := none, px := false } else p
    | none => p))

/-! ### Protection (R369 to R371) -/

/-- R369, R371 | a channel turns off, whatever dwell is in progress -/
def killPin (p : Pin) : Pin :=
  { p with drv := .off, on := false, load := false, dead := true, dwell := none, cdwell := none, lq := [], px := false, recon := none,
           cur := { p.cur with pmu := .off, load := false } }

/-- R369 -/
def execFPinDrvi (dt : Nat) (ch : Fin 48) (s : State) : Out :=
  let s := advance s dt
  if (getPin s ch).on then
    let s := modPin s ch killPin
    match holder s .ch ch with
    | some d => .next (keep (detect s d .pin [kw "CAUSE" "DRVI", kv "CH" (unitName .ch ch)]))
    | none => .next s
  else .next s

/-- R370 -/
def execPmuClampLimit (dt : Nat) (ch : Fin 48) (released : Bool) (s : State) : Out :=
  let s := advance s dt
  let p := getPin s ch
  if released then .next (modPin s ch (fun p => { p with lim := false }))
  else if p.lim || !(p.cur.pmu = .fv || p.cur.pmu = .fi) then .next s
  else match holder s .ch ch with
    | some d => .next (event (modPin s ch (fun p => { p with lim := true })) d .limit
        [w "PMU", kv "CH" (unitName .ch ch), kw "CLAMP" (if p.cur.pmu = .fv then "I" else "V")])
    | none => .next s

def feTok (n : Nat) : Tok := kv "FE" [.s "FE", .d n]

/-- R371 | a die rises through 110 degrees -/
def execFeWarm (dt : Nat) (fe : Fin 6) (s : State) : Out :=
  let s := advance s dt
  .next (if (getFe s fe).warm || !linesOpen s then s
    else ownerEvent (modFe s fe (fun f => { f with warm := true })) .note [w "FE-WARM", feTok fe])

/-- R371 | a die reaches 125 degrees -/
def execFPinHot (dt : Nat) (fe : Fin 6) (s : State) : Out :=
  let s := advance s dt
  let n : Nat := fe
  let cs := (List.range 8).map (fun i => 8 * n + i)
  let s := forEach cs (modFe s n (fun f => { f with hot := true })) (fun s c => modPin s c killPin)
  .next (keep ((deckles.filter (fun d => cs.any (fun c => (getDk s d).grant.ch.contains c))).foldl
    (fun s d => detect s d .pin [kw "CAUSE" "HOT", feTok n]) s))

end Sys2Proof.Machine
end

