-- ==== Sys2Proof/Machine/DpsCmd.lean ====
section
/-! DEFINITION. DUT power: the DPS and LEARN commands, the control period, run-time targets, clamps and channel faults. -/

namespace Sys2Proof.Machine

def dpsAtoms (n : Nat) : Tok := uTok .dps n

/-- R424 | a DPS channel of the tenant's deckle -/
def ownUnit (s : State) (h : Hdr) (u : UKind) (n : Nat) : Res Nat := do
  readUnit 2 u n
  let d := myDk s h
  holds (getDk s d) u [n]
  pure d

/-! ### Furnish forms -/

/-- R415 | the current ranges -/
def dpsRangesA : List Rat := [3 / 2, 150 / 1000, 15 / 1000, 15 / 10000]

/-- A decimal as the nearest binary32 value. -/
def readF32 (pos : Nat) (f : Fld) : Res Nat := do
  let v ← argNum pos f.val
  let q ← readVal pos .none v
  pure (if q = 0 ∧ v.neg then 2 ^ 31 else f32Of q)

/-- R422 | one field; ranges are judged by validation -/
def dpsField (pos : Nat) (g : DpsCfg → DpsCfg) (f : Fld) : Res (DpsCfg → DpsCfg) := do
  let num := fun (u : Dim) => do readVal pos u (← argNum pos f.val)
  match f.key with
  | "ENABLE" => do let x ← pickOnOff pos f.val; pure (fun c => { g c with enable := x })
  | "RANGE" => do
    let v ← argNum pos f.val
    need (v.unit != .none) (e400 pos)
    let x ← readVal pos .A v
    need (dpsRangesA.contains x) (e419 pos)
    pure (fun c => { g c with range := x })
  | "ISRC" => do let x ← num .A; pure (fun c => { g c with isrc := some x })
  | "ISNK" => do let x ← num .A; pure (fun c => { g c with isnk := some x })
  | "VMAX" => do let x ← num .V; pure (fun c => { g c with vmax := x })
  | "TARGET" => do let x ← num .V; pure (fun c => { g c with target := x })
  | "SLEW" => do let x ← num .Vus; pure (fun c => { g c with slew := x })
  | "BEND" =>
    match f.val with
    | .word "OFF" => pure (fun c => { g c with bend := none })
    | _ => do let x ← num .Vus2; pure (fun c => { g c with bend := some x })
  | "SETTLE" => do let x ← num .us; pure (fun c => { g c with settle := x })
  | "SENSE" => do let x ← pick pos [("REMOTE", true), ("LOCAL", false)] (← argWord pos f.val); pure (fun c => { g c with remote := x })
  | "SBDIV" => do let x ← num .V; pure (fun c => { g c with sbdiv := x })
  | "NX" => do let x ← readNat pos 1 6 (← argNum pos f.val); pure (fun c => { g c with nx := x })
  | "FF" => do let x ← pickOnOff pos f.val; pure (fun c => { g c with ff := x })
  | "FFOFS" => do let x ← readNat pos 0 4095 (← argNum pos f.val); pure (fun c => { g c with ffofs := x })
  | "GAIN" => do let x ← readF32 pos f; pure (fun c => { g c with gain := x })
  | "QA" => do let x ← readF32 pos f; pure (fun c => { g c with qa := x })
  | "QF" => do let x ← readF32 pos f; pure (fun c => { g c with qf := x })
  | _ => .error (e400 pos)

/-- The DPS section of a furnish edited for one channel. -/
def putDps (n : Nat) (g : DpsCfg → DpsCfg) (f : Furnish) : Furnish := { f with dps := tset f.dps n (g (tget f.dps n {})) }

/-- R422, R424 -/
def execDpsFields (h : Hdr) (n : Nat) (f : List Fld) (s : State) : Out :=
  noram s (.dpsFields h n f) (tenantForm "DPS") h (fun s => do
    let g ← foldFields dpsField 3 id f
    need (!f.isEmpty) (e400 3)
    let d ← ownUnit s h .dps n
    let (s, t) ← edit s d none (putDps n g)
    ok s ([w "OK", w "DPS", dTok d, dpsAtoms n] ++ t))

/-- R424 | a matrix entry: a decimal, or a binary32 bit pattern in hex -/
def readEntry (pos : Nat) : Arg → Res Nat
  | .hex x => do need (x.val < 2 ^ 32) (e419 pos); pure x.val
  | .num v => do
    let q ← readVal pos .none v
    pure (if q = 0 ∧ v.neg then 2 ^ 31 else f32Of q)
  | _ => .error (e400 pos)

/-- R422 | a matrix by name -/
def putMatrix (m : String) (v : List Nat) (c : DpsCfg) : DpsCfg :=
  match m with
  | "A" => { c with matA := v } | "B" => { c with matB := v } | "C" => { c with matC := v }
  | "L" => { c with matL := v } | "K" => { c with matK := v } | "N" => { c with matN := v } | _ => c

/-- R424 -/
def execDpsMatrix (h : Hdr) (n : Nat) (m : String) (v : List Arg) (s : State) : Out :=
  noram s (.dpsMatrix h n m v) (tenantForm "DPS") h (fun s => do
    need (["A", "B", "C", "L", "K", "N"].contains m) (e400 4)
    let x ← v.mapM (readEntry 5)
    need (!v.isEmpty) (e400 5)
    need (v.length ≤ 36) (e419 5)
    let d ← ownUnit s h .dps n
    let (s, t) ← edit s d none (putDps n (putMatrix m x))
    ok s ([w "OK", w "DPS", dTok d, dpsAtoms n, w "MATRIX", w m] ++ t))

/-- R424 | entries of the feed-forward table from a block -/
def execDpsFftable (h : Hdr) (n : Nat) (i : Nat) (blk : Blk) (s : State) : Out :=
  noramBlk s (.dpsFftable h n i blk) (tenantForm "DPS") h blk (fun _ => do readUnit 2 .dps n; need (i < 4096) (e419 4)) (fun p s => do
    need (i + p.length / 4 ≤ 4096) (e419 4)
    let d ← ownUnit s h .dps n
    need (p.length % 4 = 0) e415
    let (s, t) ← edit s d none (putDps n (fun c => { c with fft := mput c.fft (4 * i) (toBytes p) }))
    ok s ([w "OK", w "DPS", dTok d, dpsAtoms n, w "FFTABLE"] ++ t))

/-- The bytes of a table as numbers. -/
def memBytes (m : Mem) (a n : Nat) : List Nat := (mgets m a n).map (fun b => b.toNat)

def f32List (l : List Nat) : List Atom := commas (l.map (fun x => [Atom.hx x 8]))

/-- A range as it is written. -/
def rangeAtoms (q : Rat) : List Atom := if q = 3 / 2 then [.s "1.5A"] else [sig6 (q * 1000), .s "mA"]

/-- R424, R588 | the fields of a channel, in the form of its setting commands -/
def dpsText (n : Nat) (c : DpsCfg) : List Line :=
  let u := [w "DPS", dpsAtoms n]
  [u ++ [kw "ENABLE" (onOff c.enable), kv "RANGE" (rangeAtoms c.range), kv "ISRC" (ampAtoms c.src), kv "ISNK" (ampAtoms c.snk),
      kv "VMAX" (volts c.vmax), kv "TARGET" (volts c.target), kv "SLEW" [sig6 c.slew, .s "V/us"],
      kv "BEND" (match c.bend with | some b => [sig6 b, .s "V/us2"] | none => [.s "OFF"]), kv "SETTLE" [sig6 c.settle, .s "us"],
      kw "SENSE" (if c.remote then "REMOTE" else "LOCAL"), kv "SBDIV" (volts c.sbdiv), kn "NX" c.nx, kw "FF" (onOff c.ff), kn "FFOFS" c.ffofs]] ++
  [("A", c.matA, c.nx * c.nx), ("B", c.matB, c.nx), ("C", c.matC, 2 * c.nx), ("L", c.matL, 2 * c.nx), ("K", c.matK, c.nx), ("N", c.matN, 1)].map
    (fun m => u ++ [w "MATRIX", w m.1, { val := f32List (if m.2.1.isEmpty then List.replicate m.2.2 0 else m.2.1) }]) ++
  [u ++ [w "FFTABLE", kn "FROM" 0]] ++ blkLines (memBytes c.fft 0 16384) ++
  [[w "LEARN", dpsAtoms n, kv "GAIN" (f32Atom c.gain), kv "QA" (f32Atom c.qa), kv "QF" (f32Atom c.qf)]]

/-- R424 -/
def execDpsShow (h : Hdr) (n : Nat) (s : State) : Out :=
  noram s (.dpsShow h n) (readForm "DPS") h (fun s => do
    let d ← ownUnit s h .dps n
    okBody s (dpsText n (tget (getDk s d).inForce.dps n {})) [w "OK", w "DPS", w "SHOW", dTok d, dpsAtoms n])

/-- R422, R424 | GAIN, QA and QF -/
def execLearnParams (h : Hdr) (n : Nat) (f : List Fld) (s : State) : Out :=
  noram s (.learnParams h n f) (tenantForm "LEARN") h (fun s => do
    match (numbered 3 f).find? (fun e => !(["GAIN", "QA", "QF"].contains e.2.key)) with | some e => .error (e400 e.1) | none => pure ⟨⟩
    let g ← foldFields dpsField 3 id f
    need (!f.isEmpty) (e400 3)
    let d ← ownUnit s h .dps n
    let (s, t) ← edit s d none (putDps n g)
    ok s ([w "OK", w "LEARN", dTok d, dpsAtoms n] ++ t))

/-- R431 | the learning memory of a channel in the control-engine pad -/
def learnBase (n : Nat) : Nat := n * 2 ^ 15

/-- R424, R431 -/
def execLearnRead (h : Hdr) (n : Nat) (s : State) : Out :=
  noram s (.learnRead h n) (readForm "LEARN") h (fun s => do
    let d ← ownUnit s h .dps n
    okBody s (blkLines (memBytes s.cep (learnBase n) 16384)) [w "OK", w "LEARN", w "READ", dTok d, dpsAtoms n])

/-- R424 | the states in which the learning memory is written: E423 in ARMED and RUNNING -/
def learnState (k : Deckle) : Res Unit := do
  need (!(k.st = .armed || k.st = .running)) e423
  inSt k [.opened, .held, .stopped, .faulted]

/-- R424, R431 -/
def execLearnLoad (h : Hdr) (n : Nat) (blk : Blk) (s : State) : Out :=
  noramBlk s (.learnLoad h n blk) (tenantForm "LEARN") h blk (fun _ => readUnit 2 .dps n) (fun p s => do
    let d ← ownUnit s h .dps n
    need (p.length = 16384) e415
    learnState (getDk s d)
    ok { s with cep := mput s.cep (learnBase n) (toBytes p) } [w "OK", w "LEARN", dTok d, dpsAtoms n, w "LOAD"])

/-- R424, R431 -/
def execLearnClear (h : Hdr) (n : Nat) (s : State) : Out :=
  noram s (.learnClear h n) (tenantForm "LEARN") h (fun s => do
    let d ← ownUnit s h .dps n
    learnState (getDk s d)
    ok { s with cep := mzero s.cep (learnBase n) 16384 } [w "OK", w "LEARN", dTok d, dpsAtoms n, w "CLEAR"])

/-! ### Run-time targets (R425, R429) -/

/-- R417 | the start of the next control period -/
def nextPeriod (s : State) : Nat := ceilTo (now s + 1) 1250

/-- R429 | a target as its reply gives it: in volts, with three places or as many as were written (log 110) -/
def voltEcho (v : Val) : Atom :=
  let n : Int := if v.neg then -(v.digits : Int) else v.digits
  let p := if v.unit = .mV then v.scale + 3 else v.scale
  .fx (n * 10 ^ (3 - p)) (max p 3)

/-- R425, R429 | a run-time target: the channel, and the instants of arrival and settling -/
def targetNow (s : State) (n : Nat) (v : Rat) (t : Nat) : State × Nat × Nat :=
  let x := getDps s n
  let p := x.upto t
  let a := t + usTicks (profTime (planProfile p.r p.sl v p.cfg.slew p.cfg.bend))
  (setDps s n { x with nextT := some v }, a, a + usTicks x.cfg.settle)

/-- R425 | DPS TARGET by the deckle's state; `t` is the control period at which a run-time form acts -/
def runTarget (s : State) (d n : Nat) (v : Val) (t : Nat) : Res (State × Ans) := do
  let k := getDk s d
  let q ← readRange 3 .V 0 7 v
  holds k .dps [n]
  if k.st.live then
    need (q ≤ (getDps s n).cfg.vmax - 1 / 10) (e419 3)
    let (s, a, z) := targetNow s n q t
    ok s [w "OK", w "DPS", dTok d, dpsAtoms n, kv "TARGET" [voltEcho v], kt "ARRIVE" a, kt "SETTLED" z]
  else
    let (s, e) ← edit s d none (putDps n (fun c => { c with target := q }))
    ok s ([w "OK", w "DPS", dTok d, dpsAtoms n, kv "TARGET" [voltEcho v]] ++ e)

/-- R425 -/
def execDpsTarget (h : Hdr) (n : Nat) (v : Val) (s : State) : Out :=
  noram s (.dpsTarget h n v) (tenantForm "DPS") h (fun s => do
    readUnit 2 .dps n
    runTarget s (myDk s h) n v (nextPeriod s))

/-- R233, R425 | DPS FFOFS by the deckle's state; the run-time form acts at the next control period -/
def runFfofs (s : State) (d n : Nat) (v : Val) : Res (State × Ans) := do
  let k := getDk s d
  let q ← readNat 3 0 4095 v
  holds k .dps [n]
  if k.st.live then
    ok (modDps s n (fun x => { x with ffCmd := some q, ffNext := none })) [w "OK", w "DPS", dTok d, dpsAtoms n, kn "FFOFS" q]
  else
    let (s, e) ← edit s d none (putDps n (fun c => { c with ffofs := q }))
    ok s ([w "OK", w "DPS", dTok d, dpsAtoms n, kn "FFOFS" q] ++ e)

/-- R425 -/
def execDpsFfofs (h : Hdr) (n : Nat) (v : Val) (s : State) : Out :=
  noram s (.dpsFfofs h n v) (tenantForm "DPS") h (fun s => do
    readUnit 2 .dps n
    runFfofs s (myDk s h) n v)

/-! ### Telemetry (R435, R436) -/

/-- A binary32 value with a fixed number of places. -/
def f32Fix (x : Nat) (scale : Rat) (places : Nat) : Atom := .fx (roundRat (f32Rat x * scale * 10 ^ places)) places

/-- R435, R436 | the slope in mV/us and the state it shows -/
def slopeOf (x : Dps) : Int × String :=
  let q := f32Rat x.slope * 1000
  if -1 / 2 ≤ q ∧ q ≤ 1 / 2 then (0, if x.rest then "STILL" else "TURNING") else (roundRat (q * 10), "MOVING")

/-- R435 -/
def execDpsRead (h : Hdr) (n : Nat) (s : State) : Out :=
  noram s (.dpsRead h n) (readForm "DPS") h (fun s => do
    let d ← ownUnit s h .dps n
    let x := getDps s n
    let sl := slopeOf x
    let step := x.cfg.range / 10000
    ok s [w "OK", w "DPS", dTok d, dpsAtoms n, kv "V" [f32Fix x.vs 1 4], kv "I" [sig6 (roundRat (f32Rat x.io / step) * step * 1000), .s "mA"],
      kv "SLOPE" [.fx sl.1 1], kw "STATE" sl.2, kv "RANGE" (rangeAtoms x.cfg.range),
      kw "CLAMP" (match x.clamp with | .none => "NONE" | .isrc => "ISRC" | .isnk => "ISNK"),
      kw "LEARN" (if !x.learning then "OFF" else if x.frozen then "FROZEN" else "ON"),
      kw "SENSE" (if x.fb then "FALLBACK" else if x.cfg.remote then "REMOTE" else "LOCAL"), kt "TB" x.tb])

/-! ### The control period (R417 to R433, R440) -/

/-- An entry of a matrix kept row-major; an unwritten matrix is zero. -/
def ent (m : List Nat) (i : Nat) : Nat := f32In ((m[i]?).getD 0)

/-- A row of a matrix times a vector, each product and each sum rounded, in ascending order of the index. -/
def rowDot (m : List Nat) (row cols : Nat) (v : List Nat) : Nat :=
  f32Dot ((List.range cols).map (fun j => (ent m (row * cols + j), (v[j]?).getD 0)))

/-- Whether a value is neither a NaN nor an infinity. -/
def allFinite (l : List Nat) : Bool := l.all f32Finite

/-- R432 | the quire being placed at a tick -/
def placingAt (q : Seq) (t : Nat) : Option FQ :=
  if q.start ≤ t * 1024 ∧ q.cur.isSome then none
  else if q.curStart ≤ t * 1024 then q.cur else q.prevQ

/-- R417, R430 | since when the quire that is placed at a tick has been placed -/
def placedSince (q : Seq) (t : Nat) : Nat := if q.curStart ≤ t * 1024 then q.curStart else q.prevStart

/-- R430, R432, R433 | the feed-forward term and, in a learn loop, the learn position and the body's length -/
def feedForward (s : State) (d n : Nat) (x : Dps) (q : Option FQ) : Nat × Option (Nat × Nat) :=
  match q with
  | none => (0, none)
  | some q =>
    if x.f0 || x.fb || (getDk s d).st != .running then (0, none)
    else
      let lp := (q.learn.find? (fun l => l.1 / 2 ^ n % 2 = 1)).map (fun l => l.2)
      let rc := match lp with | some (p, _) => f32In (mnum s.cep (learnBase n + 4 * (p % 4096)) 4) | none => 0
      let i := (q.seg + tget q.ffofs n x.ffofs) % 4096
      let ff := if x.cfg.ff then f32In (mnum s.cep (learnBase n + 16384 + 4 * i) 4) else 0
      (f32Add rc ff, lp)

/-- R430 | the new value of the learning memory at a position -/
def learnValue (s : State) (n : Nat) (c : DpsCfg) (p len e : Nat) : Nat :=
  let m := fun (i : Nat) => f32In (mnum s.cep (learnBase n + 4 * (i % 4096)) 4)
  let two := f32Of 2
  let one := f32Of 1
  let mid := f32Mul (f32Sub one (f32Mul two c.qa)) (m p)
  let sum := f32Add (f32Add (f32Mul c.qa (m ((p + len - 1) % len))) mid) (f32Mul c.qa (m ((p + 1) % len)))
  f32Add (f32Mul c.qf sum) (f32Mul c.gain e)

/-- R418 | the demand, limited to 0 V, 7.5 V and VMAX -/
def limitU (c : DpsCfg) (u : Nat) : Nat :=
  if f32Nan u then u
  else if f32Neg u then 0
  else if f32Inf u || min (15 / 2) c.vmax < f32Rat u then f32Of (min (15 / 2) c.vmax) else u

/-- R416 | the clamp that acts at a measured current -/
def clampOf (c : DpsCfg) (io : Nat) : Clamp :=
  if !f32Finite io then .none else if c.src ≤ f32Rat io then .isrc else if f32Rat io ≤ -c.snk then .isnk else .none

/-- R425, R426, R428 | what a channel takes up at the start of a period: its profile, a change of SLEW and BEND that waited for
rest, and a run-time target -/
def periodStart (t : Nat) (x : Dps) : Dps :=
  let x := if x.fb && !x.ramp then { x with pt := t } else x.upto t
  let x := match x.late with
    | some (sl, b) => if x.rest then { x with cfg := { x.cfg with slew := sl, bend := b }, late := none } else x
    | none => x
  match x.nextT with
  | some v => if x.fb then { x with nextT := none } else { retarget x v with nextT := none }
  | none => x

/-- R440, R442 | a channel reverts to fallback regulation -/
def toFallback (x : Dps) : Dps := { x with fb := true, segs := [], tgt := x.r, sl := 0, nextT := none, late := none, learning := false }

/-- R233, R425 | the offset of a DPS FFOFS command acts: on the channel, and for the quires that are on their way -/
def cmdFfofs (s : State) (d n : Nat) : State :=
  match (getDps s n).ffCmd with
  | none => s
  | some v =>
    let put := fun (q : FQ) => { q with ffofs := tset q.ffofs n v }
    modSeq (modDps s n (fun x => { x with ffofs := v, ffCmd := none })) d (fun q =>
      { q with dreg := q.dreg.map (fun x => { x with ffofs := tset x.ffofs n v }), felts := q.felts.map put, cur := q.cur.map put,
               prevQ := q.prevQ.map put })

/-- R219, R417 to R440 | one control period of a channel that is on, at its multiple of 1,250 ticks; each is taken once -/
def execControlPeriod (dt : Nat) (n : Fin 4) (m : DpsMeas) (s : State) : Out :=
  let s := advance s dt
  let n : Nat := n
  let t := gridTick s
  if !(getDps s n).on || !s.rf.run || (0 < t && (getDps s n).tb = t) then .next s
  else
    let d := (holder s .dps n).getD 0
    let s := cmdFfofs s d n
    let x := periodStart t (getDps s n)
    let c := x.cfg
    let vs := f32In m.vs
    let io := if x.dwell.isSome then x.io else f32In m.io
    let q := placingAt (getDk s d).seq t
    let (f, lp) := feedForward s d n x q
    let clamp := clampOf c io
    let s := if clamp = .none then s else incr s d 34
    if x.fb then
      let (i, s) := draw s
      .next (setDps s n { x with vs := vs, io := io, tb := t, clamp := clamp, u := (Config.value i).toNat % 2 ^ 32, slope := 0, learning := false, frozen := false })
    else
      let xh := x.xh
      let u0 := f32Add (f32Add (f32Minus (rowDot c.matK 0 c.nx xh)) (f32Mul (ent c.matN 0) (f32Of x.r))) f
      let u := limitU c u0
      let e0 := f32Sub vs (rowDot c.matC 0 c.nx xh)
      let e1 := f32Sub io (rowDot c.matC 1 c.nx xh)
      let xn := (List.range c.nx).map (fun i =>
        f32Add (f32Add (rowDot c.matA i c.nx xh) (f32Mul (ent c.matB i) u)) (f32Dot [(ent c.matL (2 * i), e0), (ent c.matL (2 * i + 1), e1)]))
      if !allFinite (u :: xn) then
        let s := setDps s n (toFallback { x with vs := vs, io := io, tb := t, clamp := clamp })
        .next (detect s d .dps [kw "CAUSE" "NUMERIC", kv "DPS" (unitName .dps n)])
      else
        let frozen := !x.rest || t < x.arrived + usTicks c.settle || x.dwell.isSome || clamp != .none ||
          q.isNone || decide (t * 1024 < placedSince (getDk s d).seq t + 256000)
        let s := match lp with
          | some (p, len) => if frozen then s else
              { s with cep := mputNum s.cep (learnBase n + 4 * (p % 4096)) 4 (learnValue s n c p (max len 1) (f32Sub (f32Of x.r) vs)) }
          | none => s
        let slope := f32Sub (rowDot c.matC 0 c.nx xn) (rowDot c.matC 0 c.nx xh)
        let apart := c.remote && c.sbdiv < (let a := f32Rat m.vf - f32Rat m.vs; if a < 0 then -a else a)
        let div := if apart then x.div + 1 else 0
        let y := { x with vs := vs, io := io, u := u, xh := xn, slope := slope, tb := t, clamp := clamp, frozen := frozen, learning := lp.isSome, div := div }
        if 3 ≤ div then
          let s := setDps s n (toFallback y)
          .next (detect s d .sense [kv "DPS" (unitName .dps n), kv "V" [f32Fix vs 1 3]])
        else .next (setDps s n y)

/-! ### Faults, clamps and dwells (R434, R442, R443) -/

/-- R442 | the force switch opens -/
def dpsFault (s : State) (n : Nat) (hot : Bool) (cause : String) : State :=
  let s := modDps s n (fun x => { dpsRest s x with hot := x.hot || hot })
  match holder s .dps n with
  | some d => keep (detect s d .dps [kw "CAUSE" cause, kv "DPS" (unitName .dps n)])
  | none => s

/-- R442 -/
def execFDpsOv (dt : Nat) (n : Fin 4) (s : State) : Out :=
  let s := advance s dt
  .next (if (getDps s n).on then dpsFault s n false "OV" else s)

/-- R442 -/
def execFDpsHot (dt : Nat) (n : Fin 4) (s : State) : Out :=
  let s := advance s dt
  .next (if (getDps s n).on then dpsFault s n true "HOT" else modDps s n (fun x => { x with hot := true }))

/-- R443 -/
def execDpsClampLimit (dt : Nat) (n : Fin 4) (released : Bool) (s : State) : Out :=
  let s := advance s dt
  let x := getDps s n
  if released then .next (modDps s n (fun x => { x with lim := false }))
  else if x.lim || !x.on then .next s
  else match x.clamp, holder s .dps n with
    | .none, _ => .next s
    | c, some d => .next (event (modDps s n (fun x => { x with lim := true })) d .limit
        [dpsAtoms n, kw "CLAMP" (if c = .isrc then "ISRC" else "ISNK")])
    | _, none => .next s

/-- R434 | the range dwell ends: the new range's measurement and clamps act -/
def execDpsRangeDwellEnd (dt : Nat) (n : Fin 4) (s : State) : Out :=
  let s := advance s dt
  .next (modDps s n (fun x => match x.dwell with
    | some (t, c) => if t ≤ now s then { x with dwell := none, cfg := { x.cfg with range := c.range, isrc := some c.src, isnk := some c.snk } } else x
    | none => x))

end Sys2Proof.Machine
end

