-- ==== Sys2Proof/Machine/Starts.lean ====
section
/-! DEFINITION. Starts: of runs, and of lists, scans and series by commands, marks, edges, group starts and microcode; halts;
marker pulses and marks. -/

namespace Sys2Proof.Machine

/-! ### Sources (R236, R454, R475, R495) -/

/-- The keywords of the sources that a field takes. -/
def trigWords (marks timer : Bool) : List (String × Trig) :=
  [("CMD", Trig.cmd), ("TRIGIN", .trigin), ("TRIGIN-F", .triginF), ("CHAIN", .chain)] ++
    (if timer then [("TIMER", .timer)] else []) ++
    (if marks then [("M0", .mark 0), ("M1", .mark 1), ("M2", .mark 2), ("M3", .mark 3), ("M4", .mark 4), ("M5", .mark 5),
      ("M6", .mark 6), ("M7", .mark 7)] else [])

/-- A source as a field gives it. -/
def readTrig (marks timer : Bool) (pos : Nat) (a : Arg) : Res Trig := do pick pos (trigWords marks timer) (← argWord pos a)

/-- The first tick at or after an instant in fine steps plus 16 ticks. -/
def after16 (fine : Nat) : Nat := (fine + 1023) / 1024 + 16

/-- R234, R454, R475 | the first tick that a command's start may take -/
def cmdTick (s : State) : Nat := now s + 2500

/-! ### Generators (R454 to R458) -/

/-- R457 | a halt whose tick has come ends play; it stays known while a start of the same tick is still ahead (R469) -/
def auxSync (t : Nat) (a : Aux) : Aux :=
  match a.halt with
  | some h =>
    if h ≤ t then
      let b := if a.st = .playing then auxStop a (a.cfg.fin = .zero) h else a
      { b with halt := if a.starts.contains h then some h else none }
    else a
  | none => a

/-- R455 | a start event with its start tick: ignored and counted while PLAYING or FROZEN -/
def auxStartAt (s : State) (n t : Nat) : State :=
  modAux s n (fun a =>
    let a := auxSync (now s) a
    match a.st with
    | .off => a
    | .playing | .frozen => { a with missed := a.missed + 1 }
    | _ => if a.starts.contains t then a else { a with starts := a.starts ++ [t] })

/-- R457 | a halt with its sample tick; of several the earliest acts -/
def auxHaltAt (s : State) (n t : Nat) : State :=
  modAux s n (fun a =>
    let a := auxSync (now s) a
    match a.st with
    | .off | .frozen => a
    | _ => if a.st = .playing || !a.starts.isEmpty then { a with halt := some (match a.halt with | some h => min h t | none => t) } else a)

/-- R458 | MKn rises at the contact 6.4 ns after the sample, for 16 ticks, while it is mapped to the deckle that holds the channel -/
def mkRise (s : State) (n t : Nat) : State :=
  match holder s .aux n, tget? s.ph.mkm n with
  | some d, some m => if d = m then { s with ph := { s.ph with mkUp := tset s.ph.mkUp n (tget s.ph.mkUp n [] ++ [t + 8]) } } else s
  | _, _ => s

/-- R458 | the marker of the entry that has just begun -/
def auxMark (s : State) (n : Nat) : State :=
  let a := getAux s n
  if a.st = .playing && (auxEntry a.cfg.list a.ent).mark then mkRise s n a.t0 else s

/-! ### Converters (R475, R478) -/

/-- R478 | a start with its start tick: ignored and counted while a scan runs -/
def adcStartAt (s : State) (n t : Nat) : State :=
  modAdc s n (fun a =>
    if a.busy then { a with missed := a.missed + 1 }
    else if a.starts.contains t then a else { a with starts := a.starts ++ [t] })

/-! ### Time measurement (R495 to R497, R506) -/

/-- R495, R496 | a start event makes the TMU ready at its ready tick -/
def tmuBegin (c : TmuCfg) (t : Nat) (x : Tmu) : Tmu :=
  let series := x.cfg.each && !x.cfg.freq && 0 < x.ended
  let c := if series then x.cfg else c
  { x with busy := true, cfg := c, ready := t * 800000, startS := none, halting := false, gate := 0, stamps := [], stampT := none, prevNone := false,
           notwarm := false, held := false, ended := if series then x.ended else 0 }

/-- R495 | a start event with its ready tick: ignored and counted while a series or gate sequence runs -/
def tmuStartAt (s : State) (d n t : Nat) : State :=
  (tmuStateByte · n) <| modTmu s n (fun x =>
    if x.busy then (if x.ready = t * 800000 then x else { x with missed := x.missed + 1 })
    else tmuBegin (tget (getDk s d).act.tmu n {}) t x)

/-- R514 | a halt: the measurement or gate in progress is the last, and no DONE line follows -/
def tmuHaltNow (s : State) (n : Nat) : State := modTmu s n (fun x => if x.busy then { x with halting := true } else x)

/-! ### Units that start on one event -/

/-- The units of a deckle whose source is this one start at a tick. -/
def startUnits (s : State) (d : Nat) (src : Trig) (t : Nat) : State :=
  let k := getDk s d
  let s := forEach k.grant.aux s (fun s n => if (tget k.act.aux n {}).start = src then auxStartAt s n (ceilTo t 4) else s)
  if k.st.live then
    let s := forEach k.grant.adc s (fun s n => if (tget k.act.adc n {}).trig = src then adcStartAt s n t else s)
    forEach k.grant.tmu s (fun s n => if (tget k.act.tmu n {}).trig = src then tmuStartAt s d n t else s)
  else s

/-! ### Marks (R274, R531) -/

/-- R531 | a TRIG-OUT line mapped to the mark is high for 16 ticks -/
def trigOutRise (s : State) (d m fine : Nat) : State :=
  { s with ph := { s.ph with toUp := s.ph.tout.foldl (fun t e => if e.2 = (d, m) then tset t e.1 (tget t e.1 [] ++ [fine]) else t) s.ph.toUp } }

/-- R274, R549 | mark Mm is raised at an instant in fine steps -/
def raiseMark (s : State) (d m fine : Nat) : State :=
  let s := trigOutRise (incr s d (26 + m)) d m fine
  if (getDk s d).st = .running then startUnits s d (.mark m) (after16 fine) else s

/-! ### Runs (R234 to R237, R475) -/

/-- R475 | the first TIMER start of the converters of a deckle -/
def startTimers (s : State) (d start : Nat) : State :=
  let k := getDk s d
  forEach k.grant.adc s (fun s n =>
    if (tget k.act.adc n {}).trig = .timer then modAdc s n (fun a => { a with timer := some ((start + 1023) / 1024) }) else s)

/-- R160, R234 | a run starts: sheet 0 at an instant in fine steps; `trig` is the stamp of a TRIG that still lies ahead -/
def beginRun (s : State) (d start : Nat) (trig : Option Nat) : State :=
  let s := modSeq s d (fun q => { q with start := start, started := true, trigAt := trig })
  keep (startTimers (setSt s d .running) d start)

/-! ### Chain groups (R246, R248) -/

/-- R246, R248 | a deckle is a member of a chain group: its furnish names the group -/
def member (k : Deckle) (g : Nat) : Bool := k.st.isOpen && k.inForce.group = some g

/-- R248 | a group start on this module: every ARMED member begins sheet 0 at ARG with the stamp's fine part, every other
member misses it -/
def groupStart (s : State) (g arg fine : Nat) : State :=
  forEach deckles s (fun s d =>
    let k := getDk s d
    if !member k g then s
    else if k.st = .armed then startUnits (incr (beginRun s d (arg * 1024 + fine) none) d 25) d .chain (arg + 16)
    else event s d .note [w "GROUP-MISSED"])

/-- R248 | the master stamps a group's trigger: the frame that waits for its place on J4, and the start of its own members -/
def stampGroup (s : State) (g t fine : Nat) : State :=
  groupStart { s with ch := { s.ch with due := s.ch.due ++ [{ ty := 2, group := g, arg := t + 2500, fine := fine }] } } g (t + 2500) fine

/-- R248 | the group that a TRIG of a member deckle's tenant triggers on the master, whatever edge the group also follows -/
def cmdGroup (s : State) (k : Deckle) : Option Nat :=
  if s.nv.chain = 1 then k.act.group.filter (fun g => (tget? s.ch.groups g).isSome) else none

/-- R234 | the first multiple of 1,250 ticks at least 2,500 ticks ahead -/
def runTick (s : State) : Nat := ceilTo (cmdTick s) 1250

/-- R160, R234 | RUN by the deckle's state, sheet 0 at a tick -/
def runNow (s : State) (d t : Nat) : Res (State × Ans) := do
  inSt (getDk s d) [.armed]
  ok (beginRun s d (t * 1024) none) [w "OK", w "RUN", dTok d]

/-- R234, R236, R248 | TRIG by the deckle's state, stamped at a tick; sheet 0 follows 35 ticks later, or a group start follows -/
def trigNow (s : State) (d t : Nat) : Res (State × Ans) := do
  inSt (getDk s d) [.armed]
  match cmdGroup s (getDk s d) with
  | some g => ok (stampGroup s g t 0) [w "OK", w "TRIG", dTok d]
  | none =>
  ok (incr (beginRun s d ((t + 35) * 1024) (some (t * 1024))) d 25) [w "OK", w "TRIG", dTok d]

end Sys2Proof.Machine
end

