-- ==== Sys2Proof/Machine/AuxCmd.lean ====
section
/-! DEFINITION. Analogue stimulus: the AUX commands, list starts and ends, entry boundaries, markers and span dwells. -/

namespace Sys2Proof.Machine

/-! ### Furnish forms (R460, R463) -/

/-- R460 | the half-spans, in volts -/
def auxSpans : List Rat := [1 / 2, 2, 5, 10]

/-- R460 | one field -/
def auxField (pos : Nat) (g : AuxCfg → AuxCfg) (f : Fld) : Res (AuxCfg → AuxCfg) := do
  match f.key with
  | "SPAN" => do
    let x ← readVal pos .V (← argNum pos f.val)
    need (auxSpans.contains x) (e419 pos)
    pure (fun c => { g c with span := x })
  | "RELAY" => do let x ← pick pos [("OPEN", false), ("CLOSED", true)] (← argWord pos f.val); pure (fun c => { g c with relay := x })
  | "START" => do let x ← readTrig true false pos f.val; pure (fun c => { g c with start := x })
  | "END" => do
    let x ← pick pos [("HOLD", AuxEnd.hold), ("ZERO", .zero), ("REPEAT", .rpt)] (← argWord pos f.val)
    pure (fun c => { g c with fin := x })
  | "COUNT" => do let x ← readNat pos 1 8192 (← argNum pos f.val); pure (fun c => { g c with count := x })
  | _ => .error (e400 pos)

/-- The INSTR section of a furnish edited for one generator. -/
def putAux (n : Nat) (g : AuxCfg → AuxCfg) (f : Furnish) : Furnish := { f with aux := tset f.aux n (g (tget f.aux n {})) }

/-- R460, R463 -/
def execAuxFields (h : Hdr) (n : Nat) (f : List Fld) (s : State) : Out :=
  noram s (.auxFields h n f) (tenantForm "AUX") h (fun s => do
    let g ← foldFields auxField 3 id f
    need (!f.isEmpty) (e400 3)
    let d ← ownUnit s h .aux n
    let (s, t) ← if f.any (fun x => x.key = "COUNT") then editList s d (putAux n g) else edit s d none (putAux n g)
    ok s ([w "OK", w "AUX", dTok d, uTok .aux n] ++ t))

/-- R463 | a voltage as the nearest code at a half-span -/
def voltCode (span v : Rat) : Int := roundRat (v * 32768 / span)

/-- R449, R463 | one field of an entry; codes that fit their bytes are taken, validation judges the ranges of R449 -/
def auxEntryField (span : Rat) (pos : Nat) (x : AuxEntry) (f : Fld) : Res AuxEntry := do
  let num := fun (u : Dim) => do readVal pos u (← argNum pos f.val)
  match f.key with
  | "FREQ" => do
    let k := roundRat ((← num .Hz) * 2 ^ 48 / 312500000)
    need (0 ≤ k ∧ k < 2 ^ 48) (e419 pos)
    pure { x with ftw := k.toNat }
  | "PHASE" => do
    let q ← num .none
    need (0 ≤ q ∧ q < 360) (e419 pos)
    pure { x with phase := (roundRat (q * 65536 / 360)).toNat % 65536 }
  | "AMP" => do
    let k := voltCode span (← num .V)
    need (-32768 ≤ k ∧ k ≤ 32767) (e419 pos)
    pure { x with amp := k }
  | "OFS" => do
    let k := voltCode span (← num .V)
    need (-32768 ≤ k ∧ k ≤ 32767) (e419 pos)
    pure { x with ofs := k }
  | "WAVE" => do
    let k ← pick pos [("SINE", 0), ("TRI", 1), ("SAW", 2), ("NOISE", 3)] (← argWord pos f.val)
    pure { x with wave := k }
  | "DUR" => do let k ← readNat pos 0 16777215 (← argNum pos f.val); pure { x with dur := k }
  | "MK" => do let k ← readNat pos 0 1 (← argNum pos f.val); pure { x with mark := k = 1 }
  | _ => .error (e400 pos)

/-- R463 -/
def execAuxEntry (h : Hdr) (n : Nat) (i : Nat) (f : List Fld) (s : State) : Out :=
  noram s (.auxEntry h n i f) (tenantForm "AUX") h (fun s => do
    need (i < 8192) (e419 4)
    readUnit 2 .aux n
    let c := tget (getDk s (myDk s h)).editing.aux n {}
    let x ← foldFields (auxEntryField c.span) 5 (auxEntry c.list i) f
    let d ← ownUnit s h .aux n
    let (s, t) ← editList s d (putAux n (fun c => { c with list := mput c.list (16 * i) (auxBytes x) }))
    ok s ([w "OK", w "AUX", dTok d, uTok .aux n, w "ENTRY", { val := [.d i] }, kv "FTW" [.hx x.ftw 12], kv "PHASE" [.hx x.phase 4],
      kv "AMP" [.hx (unsigned 16 x.amp) 4], kv "OFS" [.hx (unsigned 16 x.ofs) 4]] ++ t))

/-- R449, R463 | entries from a block -/
def execAuxListWrite (h : Hdr) (n : Nat) (i : Nat) (blk : Blk) (s : State) : Out :=
  noramBlk s (.auxListWrite h n i blk) (tenantForm "AUX") h blk (fun _ => do readUnit 2 .aux n; need (i < 8192) (e419 4)) (fun p s => do
    need (i + p.length / 16 ≤ 8192) (e419 4)
    let d ← ownUnit s h .aux n
    need (p.length % 16 = 0) e415
    let (s, t) ← editList s d (putAux n (fun c => { c with list := mput c.list (16 * i) (toBytes p) }))
    ok s ([w "OK", w "AUX", dTok d, uTok .aux n, w "LIST", kn "N" (p.length / 16)] ++ t))

/-- R463 | entries as a block: from entry 0 and up to COUNT where the line does not say -/
def execAuxListRead (h : Hdr) (n : Nat) (i : Option Nat) (k : Option Nat) (s : State) : Out :=
  noram s (.auxListRead h n i k) (readForm "AUX") h (fun s => do
    readUnit 2 .aux n
    let c := tget (getDk s (myDk s h)).inForce.aux n {}
    let a := i.getD 0
    need (a < 8192) (e419 5)
    let m := k.getD (max 1 (c.count - a))
    need (1 ≤ m ∧ a + m ≤ 8192) (e419 (if i.isSome then 6 else 5))
    let d ← ownUnit s h .aux n
    okBody s (blkLines (memBytes c.list (16 * a) (16 * m))) [w "OK", w "AUX", w "LIST", w "READ", dTok d, uTok .aux n, kn "N" m])

def AuxEnd.name : AuxEnd → String | .hold => "HOLD" | .zero => "ZERO" | .rpt => "REPEAT"

/-- A half-span in volts. -/
def spanAtoms (q : Rat) : List Atom := [sig6 q]

/-- R463, R588 | the fields of a generator, in the form of its setting commands -/
def auxText (n : Nat) (c : AuxCfg) : List Line :=
  [[w "AUX", uTok .aux n, kv "SPAN" (spanAtoms c.span), kw "RELAY" (if c.relay then "CLOSED" else "OPEN"), kv "START" c.start.name,
     kw "END" c.fin.name, kn "COUNT" c.count], [w "AUX", uTok .aux n, w "LIST", kn "FROM" 0]] ++
  blkLines (memBytes c.list 0 (16 * c.count))

/-- R463 -/
def execAuxShow (h : Hdr) (n : Nat) (s : State) : Out :=
  noram s (.auxShow h n) (readForm "AUX") h (fun s => do
    let d ← ownUnit s h .aux n
    okBody s (auxText n (tget (getDk s d).inForce.aux n {})) [w "OK", w "AUX", w "SHOW", dTok d, uTok .aux n])

/-! ### PLAY, HALT and READ (R454 to R457, R462) -/

/-- R462 | a press that changes a channel's LIST or COUNT waits for its boundary -/
def pressList (s : State) (d n : Nat) : Bool :=
  let k := getDk s d
  match k.press with
  | some (_, f) => let a := tget k.act.aux n {}; let b := tget f.aux n {}; a.list != b.list || a.count != b.count
  | none => false

/-- R454, R462, R463 | PLAY by the state of deckle and channel; `t` is the sample tick of the start, and `due` the tick of a
scheduled one -/
def playNow (s : State) (d n t : Nat) (due : Option Nat) : Res (State × Ans) := do
  let k := getDk s d
  holds k .aux [n]
  inSt k [.armed, .running, .stopped]
  need ((getAux s n).st != .off && (tget k.act.aux n {}).start = .cmd) (e420 k)
  if pressList s d n then .ok (s, .later (.play d n due))
  else ok (auxStartAt s n t) [w "OK", w "AUX", dTok d, uTok .aux n]

/-- R457, R463 | HALT by the state of deckle and channel, at a sample tick -/
def haltNow (s : State) (d n t : Nat) : Res (State × Ans) := do
  let k := getDk s d
  holds k .aux [n]
  inSt k [.armed, .running, .stopped]
  need ((getAux s n).st != .off) (e420 k)
  ok (auxHaltAt s n t) [w "OK", w "AUX", dTok d, uTok .aux n]

/-- R454 -/
def execAuxPlay (h : Hdr) (n : Nat) (s : State) : Out :=
  noram s (.auxPlay h n) (tenantForm "AUX") h (fun s => do
    readUnit 2 .aux n
    playNow s (myDk s h) n (ceilTo (cmdTick s) 4) none)

/-- R457 -/
def execAuxHalt (h : Hdr) (n : Nat) (s : State) : Out :=
  noram s (.auxHalt h n) (tenantForm "AUX") h (fun s => do
    readUnit 2 .aux n
    haltNow s (myDk s h) n (ceilTo (cmdTick s) 4))

def AuxState.name : AuxState → String
  | .off => "OFF" | .idle => "IDLE" | .playing => "PLAYING" | .ended => "ENDED" | .frozen => "FROZEN"

/-- R463 -/
def execAuxRead (h : Hdr) (n : Nat) (s : State) : Out :=
  noram s (.auxRead h n) (readForm "AUX") h (fun s => do
    let d ← ownUnit s h .aux n
    let s := modAux s n (auxSync (now s))
    let a := getAux s n
    ok s [w "OK", w "AUX", dTok d, uTok .aux n, kw "STATE" a.st.name, kn "ENTRY" a.ent, kv "SPAN" (spanAtoms a.cfg.span),
      kw "RELAY" (if a.relay then "CLOSED" else "OPEN"), kn "MISSED" a.missed, kt "TB" (now s)])

/-! ### What the generator does at its ticks -/

/-- R454, R455, R469 | a start tick has come -/
def auxStartDue (s : State) (n t : Nat) : State :=
  let a := getAux s n
  let halted := a.halt = some t
  let a := auxSync t { a with starts := a.starts.filter (fun u => u != t) }
  match a.st with
  | .idle | .ended => if halted then setAux s n { a with missed := a.missed + 1 } else auxMark (setAux s n (auxBegin a t)) n
  | .playing | .frozen => setAux s n { a with missed := a.missed + 1 }
  | .off => setAux s n a

/-- R454 | the requested start ticks that have come take effect, earliest first; a halt that has come acts too -/
def execAuxStartTick (dt : Nat) (n : Fin 2) (s : State) : Out :=
  let s := advance s dt
  let due := sortNat ((getAux s n).starts.filter (fun t => t ≤ now s))
  .next (modAux (forEach due s (fun s t => auxStartDue s n t)) n (auxSync (now s)))

/-- The tick of the first sample after the entry that plays. -/
def auxEndTick (a : Aux) : Nat := a.t0 + 4 * auxLen (auxEntry a.cfg.list a.ent)

/-- R452, R458 | the next entry begins -/
def execAuxEntryBoundary (dt : Nat) (n : Fin 2) (s : State) : Out :=
  let s := advance s dt
  let s := modAux s n (auxSync (now s))
  let a := getAux s n
  .next (if a.st = .playing ∧ s.rf.run ∧ auxEndTick a ≤ now s ∧ a.ent + 1 < a.cfg.count then auxMark (setAux s n (auxNext a (a.ent + 1))) n else s)

/-- R456 | the last sample of the list has passed -/
def execAuxListEnd (dt : Nat) (n : Fin 2) (s : State) : Out :=
  let s := advance s dt
  let s := modAux s n (auxSync (now s))
  let a := getAux s n
  .next (if a.st = .playing ∧ s.rf.run ∧ auxEndTick a ≤ now s ∧ a.cfg.count ≤ a.ent + 1 then
      if a.cfg.fin = .rpt then auxMark (setAux s n (auxNext a 0)) n
      else
        let t := auxEndTick a
        let s := setAux s n (auxStop a (a.cfg.fin = .zero) t)
        match holder s .aux n with
        | some d => event s d .done [uTok .aux n, w "END", kt "TB" t]
        | none => s
    else s)

/-- R458 | MKn falls -/
def execMkFall (dt : Nat) (n : Fin 2) (s : State) : Out :=
  let s := advance s dt
  .next { s with ph := { s.ph with mkUp := lineLeft 16 (now s) s.ph.mkUp n } }

/-- R459 | the dwell of a span change ends: the new span is in effect, and the relay has settled -/
def execAuxSpanDwellEnd (dt : Nat) (n : Fin 2) (s : State) : Out :=
  let s := advance s dt
  .next (keep (modAux s n (fun a => match a.dwell with
    | some (t, c) => if t ≤ now s then
        { a with dwell := none, prev := 0, prevT := t, cfg := { a.cfg with span := c.span, relay := c.relay }, relay := c.relay && a.st != .off } else a
    | none => a)))

end Sys2Proof.Machine
end

