-- ==== Sys2Proof/Machine/AdcCmd.lean ====
section
/-! DEFINITION. Measurement conversion: the ADC commands, scans, conversions, result records and open inputs. -/

namespace Sys2Proof.Machine

/-! ### Sources (R471, R472) -/

/-- A name of the multiplexer map as text. -/
def srcText (p : String) (k : UKind) (n : Nat) : String := p ++ String.ofList ((unitName k n).flatMap Atom.bytes |>.map Char.ofNat)

/-- R471 | the name of a multiplexer code -/
def srcName (c : Nat) : Option String :=
  if c < 0x30 then some (srcText "PV." .ch c)
  else if c < 0x60 then some (srcText "PI." .ch (c - 0x30))
  else if c < 0x64 then some (srcText "DV." .dps (c - 0x60))
  else if c < 0x68 then some (srcText "DI." .dps (c - 0x64))
  else if c < 0x6C then some (srcText "DF." .dps (c - 0x68))
  else if c < 0x70 then some (srcText "DT." .dps (c - 0x6C))
  else if c < 0x72 then some (srcText "AM." .aux (c - 0x70))
  else match c with
    | 0x72 => some "FT.FE0" | 0x73 => some "FT.FE1" | 0x74 => some "FT.FE2" | 0x75 => some "FT.FE3" | 0x76 => some "FT.FE4"
    | 0x77 => some "FT.FE5" | 0x80 => some "REF0V" | 0x81 => some "REF1V" | 0x82 => some "REFM1V" | 0x83 => some "REF4V" | _ => none

/-- R471 | the code that a name stands for -/
def srcCode (x : String) : Option Nat := (List.range 256).find? (fun c => srcName c == some x)

/-- R471 | the full scale at gain 1, under the ranges of a channel and a supply -/
def srcScale (irange : Nat → Rat) (range : Nat → Rat) (c : Nat) : Rat :=
  if 0x30 ≤ c ∧ c < 0x60 then 5 / 4 * irange (c - 0x30)
  else if 0x64 ≤ c ∧ c < 0x68 then 5 / 4 * range (c - 0x64)
  else if (0x6C ≤ c ∧ c < 0x70) ∨ (0x72 ≤ c ∧ c < 0x78) then 4096 / 10
  else if c = 0x70 ∨ c = 0x71 then 16384 / 1000
  else 8192 / 1000

/-- R471 | the full scale of an entry now, with the ranges in effect -/
def entryScale (s : State) (e : AdcEntry) : Rat :=
  srcScale (fun c => (getPin s c).cur.irange) (fun n => (getDps s n).cfg.range) e.src / e.gain

/-! ### Furnish forms (R473, R486) -/

/-- R473 | one field -/
def adcField (pos : Nat) (g : AdcCfg → AdcCfg) (f : Fld) : Res (AdcCfg → AdcCfg) := do
  let num := fun (lo hi : Nat) => do readNat pos lo hi (← argNum pos f.val)
  match f.key with
  | "TRIG" => do let x ← readTrig true true pos f.val; pure (fun c => { g c with trig := x })
  | "MODE" => do let x ← pick pos [("SCAN", false), ("STEP", true)] (← argWord pos f.val); pure (fun c => { g c with step := x })
  | "COUNT" => do let x ← num 1 16; pure (fun c => { g c with count := x })
  | "REPEAT" => do let x ← num 1 65535; pure (fun c => { g c with rpt := x })
  | "PERIOD" => do
    let v ← argNum pos f.val
    need v.fits (e400 pos)
    let q ← if v.unit = .none then pure v.num
      else if v.unit.kind = .time then pure (v.num * v.unit.factor * 1250000000) else .error (e400 pos)
    let t := (q + 1 / 2).floor
    need (625 ≤ t ∧ t ≤ 12500000000) (e419 pos)
    pure (fun c => { g c with period := t.toNat })
  | _ => .error (e400 pos)

/-- The INSTR section of a furnish edited for one converter. -/
def putAdc (n : Nat) (g : AdcCfg → AdcCfg) (f : Furnish) : Furnish := { f with adc := tset f.adc n (g (tget f.adc n {})) }

/-- R473, R486 -/
def execAdcFields (h : Hdr) (n : Nat) (f : List Fld) (s : State) : Out :=
  noram s (.adcFields h n f) (tenantForm "ADC") h (fun s => do
    let g ← foldFields adcField 3 id f
    need (!f.isEmpty) (e400 3)
    let d ← ownUnit s h .adc n
    let (s, t) ← edit s d none (putAdc n g)
    ok s ([w "OK", w "ADC", dTok d, uTok .adc n] ++ t))

/-- R473 | one field of an entry -/
def adcEntryField (pos : Nat) (x : AdcEntry) (f : Fld) : Res AdcEntry := do
  match f.key with
  | "SRC" =>
    match f.val with
    | .word t => match srcCode t with | some c => pure { x with src := c } | none => .error (e400 pos)
    | .hex c => do need (c.val < 256) (e419 pos); pure { x with src := c.val }
    | .num v => do let c ← readNat pos 0 255 v; pure { x with src := c }
    | _ => .error (e400 pos)
  | "TS" => do
    let q := (← readVal pos .us (← argNum pos f.val)) * 4
    need (q.den = 1 ∧ 1 ≤ q ∧ q ≤ 256) (e419 pos)
    pure { x with ts := q.num.toNat }
  | "GAIN" => do
    let g ← readNat pos 0 65535 (← argNum pos f.val)
    need ([1, 2, 4, 8, 16].contains g) (e419 pos)
    pure { x with gain := g }
  | "BO" => do let b ← pickOnOff pos f.val; pure { x with bo := b }
  | "PT" => do let q ← readVal pos .V (← argNum pos f.val); pure { x with pt := q }
  | "CFIX" => do let q ← readVal pos .pF (← argNum pos f.val); pure { x with cfix := q }
  | _ => .error (e400 pos)

/-- R473, R486 | an entry; fields that the line does not name keep their values -/
def execAdcEntry (h : Hdr) (n : Nat) (i : Nat) (f : List Fld) (s : State) : Out :=
  noram s (.adcEntry h n i f) (tenantForm "ADC") h (fun s => do
    need (i < 16) (e419 4)
    readUnit 2 .adc n
    need (f.any (fun x => x.key == "SRC")) (e400missing "SRC")
    let c := tget (getDk s (myDk s h)).editing.adc n {}
    let x ← foldFields adcEntryField 5 (c.entry i) f
    let d ← ownUnit s h .adc n
    let (s, t) ← edit s d none (putAdc n (fun c => { c with ent := tset c.ent i x }))
    ok s ([w "OK", w "ADC", dTok d, uTok .adc n, w "ENTRY", { val := [.d i] }] ++ t))

/-- The unit of a source's value. -/
def srcUnit (c : Nat) : Atom :=
  if (0x30 ≤ c ∧ c < 0x60) ∨ (0x64 ≤ c ∧ c < 0x68) then .s "A"
  else if (0x6C ≤ c ∧ c < 0x70) ∨ (0x72 ≤ c ∧ c < 0x78) then .s "C" else .s "V"

/-- R486 | the sources the deckle may select, with their full scales at gain 1 -/
def execAdcSources (h : Hdr) (s : State) : Out :=
  noram s (.adcSources h) (readForm "ADC") h (fun s => do
    let d := myDk s h
    let k := getDk s d
    let f := k.inForce
    let l := (List.range 256).filter (adcSelectable k.grant)
    okBody s (l.map (fun c => [w "AS", w ((srcName c).getD ""), kv "CODE" [.hx c 2],
        kv "FS" [sig6 (srcScale (fun c => (tget f.lev c {}).irange) (fun n => (tget f.dps n {}).range) c), srcUnit c]]))
      [w "OK", w "ADC", w "SOURCES", dTok d, kn "N" l.length])

/-- R486, R588 | the fields of a converter, in the form of its setting commands -/
def adcText (n : Nat) (c : AdcCfg) : List Line :=
  [w "ADC", uTok .adc n, kv "TRIG" c.trig.name, kw "MODE" (if c.step then "STEP" else "SCAN"), kn "COUNT" c.count, kn "REPEAT" c.rpt,
    kn "PERIOD" c.period] ::
  (List.range 16).map (fun i =>
    let e := c.entry i
    [w "ADC", uTok .adc n, w "ENTRY", { val := [.d i] },
      (match srcName e.src with | some t => kw "SRC" t | none => kv "SRC" [.hx e.src 2]), kv "TS" [sig6 ((e.ts : Rat) / 4), .s "us"],
      kn "GAIN" e.gain, kw "BO" (onOff e.bo), kv "PT" [sig6 e.pt, .s "V"], kv "CFIX" [sig6 e.cfix, .s "pF"]])

/-- R486 -/
def execAdcShow (h : Hdr) (n : Nat) (s : State) : Out :=
  noram s (.adcShow h n) (readForm "ADC") h (fun s => do
    let d ← ownUnit s h .adc n
    okBody s (adcText n (tget (getDk s d).inForce.adc n {})) [w "OK", w "ADC", w "SHOW", dTok d, uTok .adc n])

/-! ### Starts and records -/

/-- R475, R478, R486 | START by the deckle's state, at a tick -/
def adcStartNow (s : State) (d n t : Nat) : Res (State × Ans) := do
  let k := getDk s d
  holds k .adc [n]
  inSt k [.armed, .running, .stopped]
  need ((tget k.act.adc n {}).trig = .cmd) (e420 k)
  ok (adcStartAt s n t) [w "OK", w "ADC", dTok d, uTok .adc n]

/-- R475 -/
def execAdcStart (h : Hdr) (n : Nat) (s : State) : Out :=
  noram s (.adcStart h n) (tenantForm "ADC") h (fun s => do
    readUnit 2 .adc n
    adcStartNow s (myDk s h) n (cmdTick s))

/-- A number to six significant digits, with its trailing zeros. -/
def sig6z (q : Rat) : Atom :=
  let a := if q < 0 then -q else q
  let p := if 1 ≤ a then 5 - log10 12 a.floor.natAbs else if a = 0 then 5
    else match (List.range 12).find? (fun k => 1 ≤ a * 10 ^ (k + 1)) with | some k => 6 + k | none => 18
  .fx (roundRat (q * 10 ^ p)) p

/-- R479 | the flags of a record, in the order of their bits -/
def adcFlags (f : Nat) : Line :=
  [("OPEN", 1), ("OVER", 2), ("LOST", 4), ("BO", 8), ("BOX", 16)].filterMap (fun e => if f / e.2 % 2 = 1 then some (w e.1) else none)

/-- R479, R486 | a record as a decoded line -/
def adcLine (n : Nat) (r : AdcRec) : Line :=
  [w "AR", uTok .adc n, kn "E" r.ent, kt "TB" r.tb, kn "F" r.fine, kv "CODE" [.d r.code], kv "V" [sig6z (r.code * r.fs / 131072)]] ++ adcFlags r.flags

/-- R479 | the sixteen bytes of a record -/
def AdcRec.bytes (r : AdcRec) : List (BitVec 8) :=
  leBytes 8 r.tb ++ leBytes 2 r.fine ++ leBytes 1 r.ent ++ leBytes 1 r.flags ++ leBytes 4 (unsigned 32 r.code)

/-- R486 | how many records a reading form takes: at most 256 for decoded lines, and what fits a block for raw ones -/
def takeCount (pos most : Nat) (k : Option Nat) (stored : Nat) : Res Nat := do
  match k with
  | some m => do need (1 ≤ m ∧ m ≤ most) (e419 pos); pure (min m stored)
  | none => pure (min most stored)

/-- R486 | records leave the store as decoded lines -/
def execAdcResults (h : Hdr) (n : Nat) (k : Option Nat) (s : State) : Out :=
  noram s (.adcResults h n k) (tenantForm "ADC") h (fun s => do
    readUnit 2 .adc n
    let l := (getAdc s n).store
    let m ← takeCount 4 256 k l.length
    let d ← ownUnit s h .adc n
    inSt (getDk s d) anySt
    okBody (modAdc s n (fun a => { a with store := a.store.drop m })) ((l.take m).map (adcLine n))
      [w "OK", w "ADC", w "RESULTS", dTok d, uTok .adc n, kn "N" m])

/-- The block of some bytes; none where there are none, since a block holds at least one byte (R141). -/
def blkOrNone (p : List Nat) : List Line := if p.isEmpty then [] else blkLines p

/-- R486 | records leave the store as a block -/
def execAdcRead (h : Hdr) (n : Nat) (k : Option Nat) (s : State) : Out :=
  noram s (.adcRead h n k) (tenantForm "ADC") h (fun s => do
    readUnit 2 .adc n
    let l := (getAdc s n).store
    let m ← takeCount 4 8192 k l.length
    let d ← ownUnit s h .adc n
    inSt (getDk s d) anySt
    okBody (modAdc s n (fun a => { a with store := a.store.drop m })) (blkOrNone ((l.take m).flatMap (fun r => r.bytes.map (fun b => b.toNat))))
      [w "OK", w "ADC", w "READ", dTok d, uTok .adc n, kn "N" m])

/-- R486 -/
def execAdcStatus (h : Hdr) (n : Nat) (s : State) : Out :=
  noram s (.adcStatus h n) (readForm "ADC") h (fun s => do
    let d ← ownUnit s h .adc n
    let a := getAdc s n
    ok s [w "OK", w "ADC", dTok d, uTok .adc n, kw "STATE" (if a.busy then "BUSY" else "IDLE"), kn "STORED" a.store.length, kn "LOST" a.lost,
      kn "MISSED" a.missed])

/-! ### Scans (R475 to R485) -/

/-- R475 | a TIMER start occurs while the deckle is RUNNING -/
def execAdcTimerTick (dt : Nat) (n : Fin 8) (s : State) : Out :=
  let s := advance s dt
  match (getAdc s n).timer, holder s .adc n with
  | some t, some d =>
    let k := getDk s d
    let c := tget k.act.adc n {}
    if k.st = .running ∧ c.trig = .timer ∧ t ≤ now s then
      .next (modAdc (adcStartAt s n t) n (fun a => { a with timer := some (t + c.period) }))
    else .next s
  | _, _ => .next s

/-- R476, R481 | a scan begins under the fields in force; in STEP mode the entry after that of the start before -/
def adcBegin (c : AdcCfg) (t : Nat) (a : Adc) : Adc :=
  { a with busy := true, cfg := c, ent := if c.step then a.ent % c.count else 0, scans := 0, t0 := t * 1024, box := false }

/-- R476, R478 | a start tick has come -/
def adcStartDue (s : State) (n t : Nat) : State :=
  let s := modAdc s n (fun a => { a with starts := a.starts.filter (fun u => u != t) })
  let a := getAdc s n
  if a.busy then setAdc s n { a with missed := a.missed + 1 }
  else
    let c := match holder s .adc n with | some d => tget (getDk s d).act.adc n {} | none => a.cfg
    setAdc s n (adcBegin c t a)

/-- R476 -/
def execAdcScanStart (dt : Nat) (n : Fin 8) (s : State) : Out :=
  let s := advance s dt
  .next (forEach (sortNat ((getAdc s n).starts.filter (fun t => t ≤ now s))) s (fun s t => adcStartDue s n t))

/-- R476 | the hold instant of the entry in progress, and the end of its conversion, in fine steps -/
def Adc.hold (a : Adc) : Nat := a.t0 + (a.cfg.entry a.ent).ts * 320000
def Adc.fin (a : Adc) : Nat := a.hold + 320000

/-- R471, R472, R434 | the value that the source gives: a PMU that is OFF reads 0, and DPS current holds its last value during a
range dwell -/
def adcInput (s : State) (src : Nat) (v : Rat) : Rat :=
  if 0x30 ≤ src ∧ src < 0x60 then (if (getPin s (src - 0x30)).cur.pmu = .off then 0 else v)
  else if 0x64 ≤ src ∧ src < 0x68 then
    let x := getDps s (src - 0x64)
    if x.dwell.isSome then f32Rat x.io else v
  else v

/-- R480 | the code of a value at a full scale, and whether the value lies beyond it -/
def adcCode (fs v : Rat) : Int × Bool :=
  let c := roundRat (v * 131072 / fs)
  if c < -131072 then (-131072, true) else if 131071 < c then (131071, true) else (c, false)

/-- R480 | a record enters the store, or is dropped when it is full; the second component tells of the first loss in a run -/
def adcStore (a : Adc) (r : AdcRec) : Adc × Bool :=
  if 8192 ≤ a.store.length then ({ a with lost := a.lost + 1, lostF := true, fullSent := true }, !a.fullSent)
  else ({ a with store := a.store ++ [if a.lostF then { r with flags := r.flags ||| 4 } else r], lostF := false }, false)

/-- R484 | the record of a hold instant gets its OPEN flag -/
def markOpen (a : Adc) (t : Nat) : Adc :=
  { a with store := a.store.map (fun r => if r.tb * 1024 + r.fine = t then { r with flags := r.flags ||| 1 } else r) }

/-- R476 | what follows an entry: the next one, the next scan, or the end -/
def adcAdvance (a : Adc) : Adc :=
  let t := a.fin
  let a := { a with t0 := t, box := false }
  if a.cfg.step then { a with busy := false, ent := (a.ent + 1) % a.cfg.count }
  else if a.ent + 1 < a.cfg.count then { a with ent := a.ent + 1 }
  else if a.scans + 1 < a.cfg.rpt then { a with ent := 0, scans := a.scans + 1 }
  else { a with busy := false, ent := 0 }

/-- R488 | converters of the deckle, other than one, whose entry in progress uses a source and has begun before an instant -/
def adcSharers (s : State) (g : Grant) (n src t : Nat) : List Nat :=
  g.adc.filter (fun m =>
    let b := getAdc s m
    m != n && b.busy && (b.cfg.entry b.ent).src = src && b.t0 < t)

/-- R479 to R485, R488 | a conversion ends -/
def execAdcConversionDone (dt : Nat) (n : Fin 8) (m : AdcMeas) (s : State) : Out :=
  let s := advance s dt
  let n : Nat := n
  let a := getAdc s n
  match holder s .adc n with
  | none => .next s
  | some d =>
    if !a.busy || !s.rf.run || now s * 1024 < a.fin then .next s
    else
      let e := a.cfg.entry a.ent
      let fs := entryScale s e
      let c := adcCode fs (adcInput s e.src m.v)
      let shared := adcSharers s (getDk s d).grant n e.src a.fin
      let box := a.box || shared.any (fun x => let b := getAdc s x; (b.cfg.entry b.ent).bo)
      let pulse := e.bo && 0 < e.pt && e.pt * 131072 < (c.1 - a.last : Int) * fs
      let open_ := pulse || (e.bo && e.pt = 0 && 128451 ≤ c.1)
      let r : AdcRec := { tb := a.hold / 1024, fine := a.hold % 1024, ent := a.ent, code := c.1, fs := fs,
                          flags := (if open_ then 1 else 0) + (if c.2 then 2 else 0) + (if e.bo then 8 else 0) + (if box then 16 else 0) }
      let a := if pulse then markOpen a a.lastT else a
      let p := adcStore a r
      let tell := open_ && !p.1.openSent.contains a.ent
      let b := adcAdvance { p.1 with last := c.1, lastT := a.hold, openSent := if tell then p.1.openSent ++ [a.ent] else p.1.openSent }
      let s := incr (setAdc s n b) d (40 + n)
      let s := if e.bo then forEach shared s (fun s x => modAdc s x (fun y => { y with box := true })) else s
      let s := if p.2 then event s d .limit [uTok .adc n, w "FULL"] else s
      .next (if tell then event s d .limit [uTok .adc n, w "OPEN", kn "ENTRY" a.ent] else s)

end Sys2Proof.Machine
end

