-- ==== Sys2Proof/Machine/Slots.lean ====
section
/-! DEFINITION. Seals and furnish slots: what SEAL sets, what SAVE writes, what LOAD and a start read back. -/

namespace Sys2Proof.Machine

/-- R171 | a deckle is sealed: the next seal number, and the CRC of an image whose layout the spec does not give (log 12) -/
def setSeal (s : State) (d : Nat) : State :=
  let (n, s) := draw s
  let s := modDk s d (fun k => { k with seals := k.seals + 1, sealN := some (k.seals + 1), crc := (Config.value n).toNat % 2 ^ 32,
                                        why := none })
  if (getDk s d).st = .opened then s else setSt s d .opened

/-- R171, R176, R180 | a furnish read from a slot is sealed under a number; its CRC is the slot's, its image being the same -/
def slotSeal (s : State) (d n : Nat) (x : FSlot) : State :=
  let s := modDk s d (fun k => { k with sealN := some n, crc := x.crc, why := none })
  if (getDk s d).st = .opened then s else setSt s d .opened

/-- R171, R176 | LOAD seals: the next seal number -/
def loadSeal (s : State) (d : Nat) (x : FSlot) : State :=
  let n := (getDk s d).seals + 1
  slotSeal (modDk s d (fun k => { k with seals := n })) d n x

/-- R176 | the slots that a deckle holds -/
def heldSlots (s : State) (d : Nat) : List Nat := tkeys (s.nv.slots.filter (fun e => e.2.own = d))

/-- R178 | whether the flash of a slot is still being erased -/
def slotErasing (s : State) (n : Nat) : Bool := (tget? s.nv.erasing n).isSome

/-- R178 | a slot is erased: unreadable at once, its flash written to zero later -/
def dropSlot (s : State) (n : Nat) : State :=
  { s with nv := { s.nv with slots := tdel s.nv.slots n, erasing := tset s.nv.erasing n s.wall } }

/-- R176 | the images of some banks, of all vat bytes -/
def bankImages (v : Mem) (banks : List Nat) : Mem := v.filter (fun c => banks.contains (c.1 / 2 ^ 20))

/-- R176, R177 | what SAVE writes; its CRC is written last, by `slotDone` -/
def slotOf (s : State) (d : Nat) : FSlot :=
  let k := getDk s d
  { own := d, f := k.work, img := bankImages s.vat k.grant.banks,
    mi := mslice s.ust (4 * sliceU d) 4096 0, na := mslice s.nst (16 * sliceN d) 4096 0,
    masks := k.grant.banks.map (fun b => let x := getBk s b; (b, x.tsm, x.tm)),
    sealN := k.sealN.getD 0, crc := k.crc, ok := false, mib := k.grant.banks.length }

/-- R177 | the slot's CRC is written -/
def slotDone (s : State) (n : Nat) : State :=
  { s with nv := { s.nv with slots := s.nv.slots.map (fun e => if e.1 = n then (e.1, { e.2 with ok := true }) else e) } }

/-- R176, R180, R258, R408 | the working furnish, the slices and the contents of the granted banks become those of a slot -/
def loadSlot (s : State) (d : Nat) (x : FSlot) : State :=
  let banks := (getDk s d).grant.banks
  let s := forEach banks s (fun s b =>
    let m := (x.masks.find? (fun e => e.1 = b)).map (fun e => e.2) |>.getD (1, 0)
    let s := wakeBank s b
    modBk { s with vat := mcopy s.vat x.img (b * 2 ^ 20) (2 ^ 20) (b * 2 ^ 20) } b (fun y => { y with tsm := y.tsm ||| m.1, tm := y.tm ||| m.2, dbe := [] }))
  modDk (storeN (storeU s (mcopy [] x.mi 0 4096 (4 * sliceU d)) (sliceU d) 1024) (mcopy [] x.na 0 4096 (16 * sliceN d)) (sliceN d) 256) d
    (fun k => { k with work := x.f, sealN := none })

/-- R180 | step 1 to 3 of a restore: HELD WITHDRAWN with what its slot holds (R100), RESTART, or RESTORING -/
def beginRestore (s : State) (d : Nat) : State :=
  let k := getDk s d
  match k.st with
  | .closed | .zeroing => s
  | _ =>
    let wd := withdrawnUnits s k.grant
    let slot := k.startSlot.bind (fun n => tget? s.nv.slots n)
    let s := modDk s d (fun k => { k with sealN := none })
    if wd.isEmpty then
      holdDeckle s d (if slot.isSome then .restoring else .restart)
    else
      let s := match slot with | some x => if x.ok then loadSlot s d x else s | none => s
      holdDeckle s d (.withdrawn ((withdrawnNames wd).map (fun u => String.ofList (u.flatMap Atom.bytes |>.map Char.ofNat))))

/-- R180 | step 3: the slot has been read and validated -/
def endRestore (s : State) (d : Nat) : State :=
  let k := getDk s d
  if k.st = .held ∧ k.why = some .restoring then
    match k.startSlot with
    | none => s
    | some n =>
      match tget? s.nv.slots n with
      | none => s
      | some x =>
        if !x.ok then holdDeckle s d (.slotcrc n)
        else
          let s := loadSlot s d x
          match validate s d k.grant x.f with
          | some e => let (a, b) := sectItem e; holdDeckle s d (.invalid a b)
          | none => slotSeal s d x.sealN x
  else s

end Sys2Proof.Machine
end

