-- ==== Sys2Proof/Machine/TmuCmd.lean ====
section
/-! DEFINITION. Time measurement: the TMU commands, intervals, timeouts, frequency gates, the check of the interpolators and
their locks. -/

namespace Sys2Proof.Machine

/-! ### Furnish forms (R490, R493, R514) -/

/-- R490 | the name of a source -/
def TmuSrc.name : TmuSrc → List Atom
  | .ch n hi r => unitName .ch n ++ [.s (if hi then ".HI." else ".LO."), .s (if r then "R" else "F")]
  | .tmx r => [.s (if r then "TMX.R" else "TMX.F")]
  | .tmy r => [.s (if r then "TMY.R" else "TMY.F")]

/-- R490 | every source -/
def tmuSrcs : List TmuSrc :=
  (List.range 48).flatMap (fun n => [.ch n true true, .ch n true false, .ch n false true, .ch n false false]) ++
    [.tmx true, .tmx false, .tmy true, .tmy false]

/-- A source as a field gives it. -/
def readSrc (pos : Nat) (a : Arg) : Res TmuSrc := do
  let x ← argWord pos a
  match tmuSrcs.find? (fun t => t.name.flatMap Atom.bytes == strBytes x) with | some t => .ok t | none => .error (e400 pos)

/-- A time in femtoseconds, inside a span; a bare number is in a given unit. -/
def readFs (pos : Nat) (u : Dim) (hi : Nat) (a : Arg) : Res Nat := do
  let q := (← readVal pos u (← argNum pos a)) * u.factor * 10 ^ 15
  let n := roundRat q
  need (0 ≤ n ∧ n ≤ hi) (e419 pos)
  pure n.toNat

/-- R493 | one field -/
def tmuField (pos : Nat) (g : TmuCfg → TmuCfg) (f : Fld) : Res (TmuCfg → TmuCfg) := do
  let num := fun (lo hi : Nat) => do readNat pos lo hi (← argNum pos f.val)
  let int := fun (lo hi : Int) => do readInt pos lo hi (← argNum pos f.val)
  match f.key with
  | "MODE" => do let x ← pick pos [("INTERVAL", false), ("FREQ", true)] (← argWord pos f.val); pure (fun c => { g c with freq := x })
  | "INTERP" => do let x ← pick pos [("VERNIER", false), ("RAMP", true)] (← argWord pos f.val); pure (fun c => { g c with ramp := x })
  | "FROM" => do let x ← readSrc pos f.val; pure (fun c => { g c with frm := some x })
  | "TO" => do let x ← readSrc pos f.val; pure (fun c => { g c with dst := some x })
  | "EVENT" => do let x ← num 1 65535; pure (fun c => { g c with event := x })
  | "HOLDOFF" => do let x ← readFs pos .s (10 ^ 16) f.val; pure (fun c => { g c with holdoff := x })
  | "TIMEOUT" => do let x ← readFs pos .s (10 ^ 16) f.val; need (10 ^ 9 ≤ x) (e419 pos); pure (fun c => { g c with timeout := x })
  | "N" => do let x ← num 1 16777216; pure (fun c => { g c with n := x })
  | "PER" => do let x ← pick pos [("SERIES", false), ("EACH", true)] (← argWord pos f.val); pure (fun c => { g c with each := x })
  | "GATE" => do
    let q ← readVal pos .us (← argNum pos f.val)
    need (q.den = 1 ∧ 1 ≤ q ∧ q ≤ 10000000) (e419 pos)
    pure (fun c => { g c with gate := q.num.toNat })
  | "GATES" => do let x ← num 0 65535; pure (fun c => { g c with gates := x })
  | "PRESCALE" => do let x ← num 1 65536; pure (fun c => { g c with prescale := x })
  | "TRIG" => do let x ← readTrig true false pos f.val; pure (fun c => { g c with trig := x })
  | "XTHR" => do let x ← readRange pos .V (-2) 6 (← argNum pos f.val); pure (fun c => { g c with xthr := x })
  | "YTHR" => do let x ← readRange pos .V (-2) 6 (← argNum pos f.val); pure (fun c => { g c with ythr := x })
  | "XSKEW" => do let x ← int (-2048) 2047; pure (fun c => { g c with xskew := x })
  | "YSKEW" => do let x ← int (-2048) 2047; pure (fun c => { g c with yskew := x })
  | _ => .error (e400 pos)

/-- The INSTR section of a furnish edited for one TMU. -/
def putTmu (n : Nat) (g : TmuCfg → TmuCfg) (f : Furnish) : Furnish := { f with tmu := tset f.tmu n (g (tget f.tmu n {})) }

/-- R493, R514 -/
def execTmuFields (h : Hdr) (n : Nat) (f : List Fld) (s : State) : Out :=
  noram s (.tmuFields h n f) (tenantForm "TMU") h (fun s => do
    let g ← foldFields tmuField 3 id f
    need (!f.isEmpty) (e400 3)
    let d ← ownUnit s h .tmu n
    let (s, t) ← edit s d none (putTmu n g)
    ok s ([w "OK", w "TMU", dTok d, uTok .tmu n] ++ t))

/-- A time in femtoseconds as it is written. -/
def fsAtoms (t : Nat) : List Atom := [sig6 ((t : Rat) / 1000000000), .s "us"]

/-- R514, R588 | the fields of a TMU, in the form of its setting command; a source that was never set has no field -/
def tmuText (n : Nat) (c : TmuCfg) : List Line :=
  let src := fun (k : String) (x : Option TmuSrc) => match x with | some t => [kv k t.name] | none => []
  [[w "TMU", uTok .tmu n, kw "MODE" (if c.freq then "FREQ" else "INTERVAL"), kw "INTERP" (if c.ramp then "RAMP" else "VERNIER")] ++
    src "FROM" c.frm ++ src "TO" c.dst ++
    [kn "EVENT" c.event, kv "HOLDOFF" (fsAtoms c.holdoff), kv "TIMEOUT" (fsAtoms c.timeout), kn "N" c.n,
     kw "PER" (if c.each then "EACH" else "SERIES"), kv "GATE" [.d c.gate, .s "us"], kn "GATES" c.gates, kn "PRESCALE" c.prescale,
     kv "TRIG" c.trig.name, kv "XTHR" (volts c.xthr), kv "YTHR" (volts c.ythr), kv "XSKEW" [.d c.xskew], kv "YSKEW" [.d c.yskew]]]

/-- R514 -/
def execTmuShow (h : Hdr) (n : Nat) (s : State) : Out :=
  noram s (.tmuShow h n) (readForm "TMU") h (fun s => do
    let d ← ownUnit s h .tmu n
    okBody s (tmuText n (tget (getDk s d).inForce.tmu n {})) [w "OK", w "TMU", w "SHOW", dTok d, uTok .tmu n])

/-! ### START, HALT, CLEAR and the reading forms (R495, R505, R514) -/

/-- R495, R514 | START by the deckle's state, with its ready tick -/
def tmuStartNow (s : State) (d n t : Nat) : Res (State × Ans) := do
  let k := getDk s d
  holds k .tmu [n]
  inSt k [.armed, .running, .stopped]
  need ((tget k.act.tmu n {}).trig = .cmd) (e420 k)
  ok (tmuStartAt s d n t) [w "OK", w "TMU", dTok d, uTok .tmu n]

/-- R514 | HALT by the deckle's state -/
def tmuHaltCmd (s : State) (d n : Nat) : Res (State × Ans) := do
  let k := getDk s d
  holds k .tmu [n]
  inSt k [.armed, .running, .stopped]
  ok (tmuHaltNow s n) [w "OK", w "TMU", dTok d, uTok .tmu n]

/-- R495 -/
def execTmuStart (h : Hdr) (n : Nat) (s : State) : Out :=
  noram s (.tmuStart h n) (tenantForm "TMU") h (fun s => do
    readUnit 2 .tmu n
    tmuStartNow s (myDk s h) n (cmdTick s))

/-- R514 -/
def execTmuHalt (h : Hdr) (n : Nat) (s : State) : Out :=
  noram s (.tmuHalt h n) (tenantForm "TMU") h (fun s => do
    readUnit 2 .tmu n
    tmuHaltCmd s (myDk s h) n)

/-- R496, R514 | statistics and records emptied -/
def tmuEmpty (x : Tmu) : Tmu :=
  { x with done := 0, tos := 0, sx := 0, sxx := 0, mn := none, mx := none, recs := [], wr := 0, lostF := false, lost := 0, ended := 0 }

/-- R514 -/
def execTmuClear (h : Hdr) (n : Nat) (s : State) : Out :=
  noram s (.tmuClear h n) (tenantForm "TMU") h (fun s => do
    let d ← ownUnit s h .tmu n
    inSt (getDk s d) anySt
    need (!(getTmu s n).busy) (e420 (getDk s d))
    ok (tmuWindow (modTmu (clearTmuPad s n) n tmuEmpty) n) [w "OK", w "TMU", dTok d, uTok .tmu n, w "CLEAR"])

/-- A time in picoseconds with three places, or NONE. -/
def psAtoms (t : Option Nat) : List Atom := match t with | some x => [.fx x 3] | none => [.s "NONE"]

/-- R505 -/
def execTmuStat (h : Hdr) (n : Nat) (s : State) : Out :=
  noram s (.tmuStat h n) (readForm "TMU") h (fun s => do
    let d ← ownUnit s h .tmu n
    let x := getTmu s n
    ok s [w "OK", w "TMU", dTok d, uTok .tmu n, kn "DONE" x.done, kn "TIMEOUTS" x.tos, kv "MEAN" (psAtoms (tmuMean x)), kv "SD" (psAtoms (tmuSd x)),
      kv "MIN" (psAtoms x.mn), kv "MAX" (psAtoms x.mx)])

/-- R509 | the flags of a record, in the order of their bits -/
def tmuFlags (r : TmuRec) : Line :=
  [(if r.kind = 2 then "NONE" else "TIMEOUT", 1), ("LOST", 2), ("NOTWARM", 4), ("HOLD", 8), ("PARTIAL", 16)].filterMap
    (fun e => if r.flags / e.2 % 2 = 1 then some (w e.1) else none)

/-- Thousandths or millionths as a number with one place, half to even. -/
def onePlace (q : Rat) : Atom := .fx (roundEven (q * 10)) 1

/-- R514 | a record as a decoded line -/
def tmuLine (n : Nat) (r : TmuRec) : Line :=
  (if r.kind = 2 then
    [w "TF", uTok .tmu n, kn "G" r.key, kn "M" r.m] ++
      (if r.flags % 2 = 1 then [kw "HZ" "NONE"] else [kv "HZ" [onePlace ((r.val : Rat) / 1000000)], kv "RMS" [onePlace ((r.rms : Rat) / 1000)]])
   else [w "TI", uTok .tmu n, kt "TB" r.key, (if r.flags % 2 = 1 then kw "PS" "NONE" else kv "PS" [.fx r.val 3])]) ++ tmuFlags r

/-- R514 -/
def execTmuResults (h : Hdr) (n : Nat) (k : Option Nat) (s : State) : Out :=
  noram s (.tmuResults h n k) (tenantForm "TMU") h (fun s => do
    readUnit 2 .tmu n
    let l := (getTmu s n).recs
    let m ← takeCount 4 256 k l.length
    let d ← ownUnit s h .tmu n
    inSt (getDk s d) anySt
    okBody (tmuTake s n m) ((l.take m).map (tmuLine n)) [w "OK", w "TMU", w "RESULTS", dTok d, uTok .tmu n, kn "N" m])

/-- R514 -/
def execTmuRead (h : Hdr) (n : Nat) (k : Option Nat) (s : State) : Out :=
  noram s (.tmuRead h n k) (tenantForm "TMU") h (fun s => do
    readUnit 2 .tmu n
    let l := (getTmu s n).recs
    let m ← takeCount 4 504 k l.length
    let d ← ownUnit s h .tmu n
    inSt (getDk s d) anySt
    okBody (tmuTake s n m) (blkOrNone ((l.take m).flatMap (fun r => r.bytes.map (fun b => b.toNat))))
      [w "OK", w "TMU", w "READ", dTok d, uTok .tmu n, kn "N" m])

/-- R514 -/
def execTmuStatus (h : Hdr) (n : Nat) (s : State) : Out :=
  noram s (.tmuStatus h n) (readForm "TMU") h (fun s => do
    let d ← ownUnit s h .tmu n
    let x := getTmu s n
    ok s [w "OK", w "TMU", dTok d, uTok .tmu n, kw "STATE" (if x.busy then "BUSY" else "IDLE"), kn "STORED" x.recs.length, kn "LOST" x.lost,
      kn "MISSED" x.missed])

/-! ### The check of the interpolators and their locks (R503, R504) -/

/-- R503 | d of a checked edge enters the history of a channel: consecutive large ones and the latest 4,096; whether it fails -/
def agree (cnt : Nat) (l : List Int) (di : Int) : Nat × List Int × Bool :=
  let c := if 40000 < di ∨ di < -40000 then cnt + 1 else 0
  let m := (l ++ [di]).drop (l.length + 1 - 4096)
  (c, m, decide (3 ≤ c) || (m.length = 4096 && (decide (5000 * 4096 < m.sum) || decide (m.sum < -5000 * 4096))))

/-- R504, R524 | a fault of a TMU: its series is abandoned, and its deckle faults or the owner is told -/
def tmuFault (s : State) (n : Nat) (cause : String) : State :=
  let s := abandonTmu (modTmu s n (fun x => { x with dis := (0, 0), dA := [], dB := [] })) n
  let u := kv "TMU" (unitName .tmu n)
  match holder s .tmu n with
  | some d => if s.rf.lock = .holdover then s else detect s d .tmu [kw "CAUSE" cause, u]
  | none => if linesOpen s then ownerEvent s .note [w "F-TMU", u] else s

/-- R503, R504 | a stamped edge of channel A or B; d where both interpolators have stamped it -/
def checkEdge (s : State) (n : Nat) (chB : Bool) (d? : Option Int) : State :=
  match d? with
  | none => s
  | some di =>
  let x := getTmu s n
  let r := agree (if chB then x.dis.2 else x.dis.1) (if chB then x.dB else x.dA) di
  let s := setTmu s n (if chB then { x with dis := (x.dis.1, r.1), dB := r.2.1 } else { x with dis := (r.1, x.dis.2), dA := r.2.1 })
  if r.2.2 then tmuFault s n "AGREE" else s

/-- R502, R504 -/
def execFTmuLock (dt : Nat) (n : Fin 4) (s : State) : Out :=
  let s := advance s dt
  .next (if (getTmu s n).lock then tmuFault (modTmu s n (fun x => { x with lock := false })) n "LOCK" else s)

/-- R504, R524 -/
def execTmuRelock (dt : Nat) (n : Fin 4) (s : State) : Out :=
  let s := advance s dt
  if (getTmu s n).lock then .next s
  else
    let t := [w "DLL-LOCKED", kv "TMU" (unitName .tmu n)]
    let s := modTmu s n (fun x => { x with lock := true })
    let s := if linesOpen s then ownerEvent s .note t else s
    match holder s .tmu n with
    | some d => .next (queueEv s d false .note (w "!NOTE" :: t))
    | none => .next s

/-! ### Intervals (R497, R498, R505, R511, R512) -/

/-- R512 | the flags of a record whose stamps lie since the first one -/
def stampFlags (x : Tmu) : Nat := (if x.notwarm then 4 else 0) + (if x.held then 8 else 0)

/-- R512 | WARM and holdover as they are at the first stamp of a record -/
def firstStamp (s : State) (x : Tmu) : Tmu := { x with notwarm := !s.md.warm, held := s.rf.lock = .holdover }

/-- A TMU that measures, with the deckle that holds it. -/
def measuring (s : State) (n : Nat) (freq : Bool) : Option Nat :=
  let x := getTmu s n
  if x.busy && x.cfg.freq = freq && s.rf.run then holder s .tmu n else none

/-- R497, R512 | channel A stamps the first FROM edge at or after the ready instant, within TIMEOUT -/
def execTmuStartEdge (dt : Nat) (n : Fin 4) (t : Nat) (di : Option Int) (s : State) : Out :=
  let s := advance s dt
  let n : Nat := n
  let x := getTmu s n
  match measuring s n false with
  | some _ =>
    if x.startS.isSome || t < x.ready || x.ready + x.cfg.timeout < t then .next s
    else .next (checkEdge (setTmu s n { firstStamp s x with startS := some t }) n false di)
  | none => .next s

/-- R496, R498, R511 | a measurement of a series has ended: the series goes on from an instant, or ends; `tb` is the tick that the
DONE line carries -/
def tmuEnded (s : State) (d n next tb : Nat) : State :=
  let x := getTmu s n
  let k := x.ended + 1
  if x.halting then tmuWindow (setTmu s n { x with busy := false, halting := false, startS := none, ended := 0 }) n
  else if x.cfg.n ≤ k then
    event (tmuWindow (setTmu s n { x with busy := false, startS := none, ended := 0 }) n) d .done [uTok .tmu n, w "END", kt "TB" tb]
  else if x.cfg.each then tmuWindow (setTmu s n { x with busy := false, startS := none, ended := k }) n
  else tmuWindow (setTmu s n { x with startS := none, ready := next, ended := k }) n

/-- R510 | a record is stored, with the LIMIT line of the first loss in a run -/
def tmuKeep (s : State) (d n : Nat) (r : TmuRec) : State :=
  let p := tmuStore s n r
  if p.2 then event p.1 d .limit [uTok .tmu n, w "FULL"] else p.1

/-- R505 | a completed measurement enters the statistics -/
def tmuAdd (x : Tmu) (v : Nat) : Tmu :=
  { x with done := x.done + 1, sx := x.sx + v, sxx := x.sxx + v * v,
           mn := some (match x.mn with | some m => min m v | none => v), mx := some (match x.mx with | some m => max m v | none => v) }

/-- R497, R499 | a stop edge that follows the start edge too soon: within HOLDOFF, or, of the same input, no later (log 112) -/
def tooSoon (c : TmuCfg) (a t : Nat) : Bool := t < a + c.holdoff || (t = a + c.holdoff && (0 < c.holdoff || c.frm = c.dst))

/-- R497, R505, R509 | channel B stamps the EVENT-th TO edge that follows the start by more than HOLDOFF, within TIMEOUT -/
def execTmuStopEdge (dt : Nat) (n : Fin 4) (t : Nat) (di : Option Int) (s : State) : Out :=
  let s := advance s dt
  let n : Nat := n
  let x := getTmu s n
  match measuring s n false, x.startS with
  | some d, some a =>
    if tooSoon x.cfg a t ∨ a + x.cfg.timeout < t then .next s
    else
      let v := t - a
      let s := setTmu s n (tmuAdd x v)
      let s := tmuKeep s d n { val := v, key := a / 800000 % 2 ^ 48, flags := stampFlags x, kind := 1 }
      let s := incr s d (36 + n)
      .next (checkEdge (tmuEnded s d n (t + deadTime x.cfg) (t / 800000)) n true di)
  | _, _ => .next s

/-- R498 | no stamp within TIMEOUT: a record flagged TIMEOUT, whose interval is a free value -/
def execTmuTimeout (dt : Nat) (n : Fin 4) (s : State) : Out :=
  let s := advance s dt
  let n : Nat := n
  let x := getTmu s n
  match measuring s n false with
  | some d =>
    let limit := x.startS.getD x.ready + x.cfg.timeout
    if now s * 800000 < limit then .next s
    else
      let (i, s) := draw s
      let s := setTmu s n { x with tos := x.tos + 1, toSent := true }
      let s := if x.toSent then s else event s d .limit [uTok .tmu n, w "TIMEOUT"]
      let s := tmuKeep s d n { val := (Config.value i).toNat, key := x.startS.getD x.ready / 800000 % 2 ^ 48,
                               flags := 1 + (if x.startS.isSome then stampFlags x else 0), kind := 1 }
      .next (tmuEnded s d n limit (limit / 800000))
  | none => .next s

/-! ### Frequency (R506 to R508) -/

/-- R506 | the opening and the close of the gate in progress, in fs -/
def gateSpan (x : Tmu) : Nat × Nat := let g := x.cfg.gate * 1000000000; (x.ready + x.gate * g, x.ready + (x.gate + 1) * g)

/-- R506 | a qualifying edge: a stamp is taken at a multiple of PRESCALE, past the dead time and the spacing of stamps -/
def execTmuFreqStamp (dt : Nat) (n : Fin 4) (k : Nat) (t : Nat) (di : Option Int) (s : State) : Out :=
  let s := advance s dt
  let n : Nat := n
  let x := getTmu s n
  match measuring s n true with
  | some _ =>
    let g := gateSpan x
    let spaced := x.stampT.all (fun u => u + deadTime x.cfg ≤ t && u * 1048576 + x.cfg.gate * 1000000000 ≤ t * 1048576) &&
      x.stamps.all (fun p => p.1 < k)
    if t < g.1 || g.2 ≤ t || k % x.cfg.prescale != 0 || !spaced then .next s
    else
      let y := if x.stamps.isEmpty then firstStamp s x else x
      .next (checkEdge (setTmu s n { y with stamps := y.stamps ++ [(k, t)], stampT := some t }) n false di)
  | none => .next s

/-- R508 | whether a gate with stamps is PARTIAL -/
def gatePartial (x : Tmu) (first last m : Nat) : Bool :=
  x.prevNone || (x.gate = 0 && decide (2 * (last - first) < (first - (gateSpan x).1) * (m - 1)))

/-- R507 to R511 | a gate closes -/
def execTmuGateClose (dt : Nat) (n : Fin 4) (s : State) : Out :=
  let s := advance s dt
  let n : Nat := n
  let x := getTmu s n
  match measuring s n true with
  | some d =>
    let close := (gateSpan x).2
    if now s * 800000 < close then .next s
    else
      let m := x.stamps.length
      let s := if m < 3 then
          let (i, s) := draw s
          tmuKeep s d n { val := (Config.value i).toNat, key := x.gate % 65536, m := m, flags := 1 + (if m = 0 then 0 else stampFlags x), kind := 2 }
        else
          let r := gateResult x.stamps
          let ts := x.stamps.map (fun p => p.2)
          let p := gatePartial x (ts.headD 0) (ts.getLastD 0) m
          incr (tmuKeep s d n { val := r.1, key := x.gate % 65536, m := m, rms := r.2, flags := (if p then 16 else 0) + stampFlags x, kind := 2 }) d (36 + n)
      let last := x.halting || (x.cfg.gates ≠ 0 && x.cfg.gates ≤ x.gate + 1)
      let s := tmuWindow (modTmu s n (fun y => { y with stamps := [], prevNone := m < 3, gate := x.gate + 1, busy := !last, halting := x.halting && !last })) n
      .next (if last && !x.halting then event s d .done [uTok .tmu n, w "END", kt "TB" (close / 800000)] else s)
  | none => .next s

end Sys2Proof.Machine
end

