-- ==== Sys2Proof/Machine/Run.lean ====
section
/-! DEFINITION. Running a deckle: ARM, RUN, TRIG, STOP, STOP OFF and PRESS, and what completes them. -/

namespace Sys2Proof.Machine

/-! ### ARM, RUN and TRIG -/

/-- R102, R160 | ARM by the state of deckle and module -/
def armNow (s : State) (d : Nat) : Res (State × Ans) := do
  armState s d
  armLock s
  if mustWait s d then ok (modDk s d (fun k => { k with waitWarm := true })) [w "OK", w "ARM", dTok d, w "WAITWARM"]
  else
    armChecks s d
    .ok (armBegin s d, .later (.arm d))

/-- R160 -/
def execArm (h : Hdr) (s : State) : Out := noram s (.arm h) (tenantForm "ARM") h (fun s => armNow s (myDk s h))

/-- R160 -/
def execArmComplete (dt : Nat) (d : Fin 8) (s : State) : Out := .next (armEnd (advance s dt) d)

/-- R234 -/
def execRun (h : Hdr) (s : State) : Out := noram s (.run h) (tenantForm "RUN") h (fun s => runNow s (myDk s h) (runTick s))

/-- R234 -/
def execTrig (h : Hdr) (s : State) : Out := noram s (.trig h) (tenantForm "TRIG") h (fun s => trigNow s (myDk s h) (runTick s))

/-! ### Staged writes and the merge (R188, R280) -/

/-- R280, R311 | a staged write reaches banks and slices -/
def applyStaged (s : State) (d : Nat) : Staged → State
  | .sheets l pa xs => writeSheets s d { stripe := l } pa xs
  | .ops b a xs => writeOps (wakeBank s b) b a xs
  | .micro nano a b =>
    writeStore s nano ((if nano then sliceN d else sliceU d) + a) (toBytes b)
  | .disp _ _ => s
  | .clear => storeN (storeU s [] (sliceU d) 1024) [] (sliceN d) 256

/-- R188 | a shadow that holds an edit becomes the working furnish, unsealed, and its staged writes are applied -/
def mergeShadow (s : State) (d : Nat) : State :=
  let k := getDk s d
  if k.dirty then
    let s := forEach k.staged s (fun s x => applyStaged s d x)
    modDk s d (fun k => { k with work := k.shad, sealN := none, dirty := false, need := [], staged := [], stagedN := 0 })
  else s

/-! ### PRESS (R183 to R187) -/

/-- R462 | a channel whose LIST or COUNT a press may not change now -/
def listBusy (s : State) (k : Deckle) (f : Furnish) : Bool :=
  k.grant.aux.any (fun n =>
    let a := tget k.act.aux n {}
    let b := tget f.aux n {}
    let x := auxSync (now s) (getAux s n)
    (a.list != b.list || a.count != b.count) && !(x.st = .ended || (x.st = .idle && a.start = .cmd)))

/-- R183, R184, R207 | the tick at which a press has been validated: at once, or, after the decision on a quire whose first sheet still lies
ahead, just after that sheet, whose placement nothing changes any more (log 101) -/
def validated (s : State) (k : Deckle) : Nat :=
  if k.st = .running && k.seq.cur.isSome then max (now s) (k.seq.curStart / 1024 + 1) else now s

/-- R183, R462 | PRESS by the deckle's state: refused for what it may not change, validated, and then waiting for its boundary -/
def pressNow (s : State) (d : Nat) : Res (State × Ans) := do
  let k := getDk s d
  inSt k [.armed, .running, .stopped]
  need (k.arming.isNone && k.press.isNone) (e420 k)
  match k.need.find? (fun i => i != auxList || listBusy s k k.shad) with | some i => .error (e423item i) | none => pure ⟨⟩
  match validatePress s d k.grant k.shad k.act with | some e => .error e | none => pure ⟨⟩
  .ok (modDk s d (fun k => { k with press := some (validated s k, k.shad) }), .later (.press d))

/-- R183 -/
def execPress (h : Hdr) (s : State) : Out := noram s (.press h) (tenantForm "PRESS") h (fun s => pressNow s (myDk s h))

/-- R361, R365 | a level change enters the queue of a pin at a boundary; a PMU that is to act makes its codes X from the boundary on -/
def queueLevel (b : Nat) (o l : LevCfg) (p : Pin) : Pin :=
  if o = l then p else { p with lq := p.lq ++ [(b + 250, l)], px := p.px || (o.pmu = .off && l.pmu != .off) }

/-- R361, R365 | the same where no sheet flows: the driver of a pin whose PMU is to act turns off at once -/
def pressPin (b : Nat) (o l : LevCfg) (p : Pin) : Pin :=
  if o = l then p
  else
    let p := queueLevel b o l p
    if o.pmu = .off && l.pmu != .off then { p with drv := .off, on := false, load := false } else p

/-- R362, R365 to R367 | ticks from the level tick until a level change has settled -/
def levelTicks (o l : LevCfg) : Nat :=
  let comp := if crangeHi o != crangeHi l then 6250 else 0
  let a := if o.vih != l.vih || o.vil != l.vil || o.vtt != l.vtt || o.vcom != l.vcom then 18750 else 0
  let c := if o.voh != l.voh || o.vol != l.vol || comp != 0 then comp + 12500 else 0
  let i := if o.ioh != l.ioh || o.iol != l.iol || o.load != l.load then 25000 else 0
  let m := if o.pmu = l.pmu then
      if o.irange != l.irange && (l.pmu = .fv || l.pmu = .fi) then 25000 + pmuTicks l
      else if (o.force != l.force || o.iclamp != l.iclamp || o.vclo != l.vclo || o.vchi != l.vchi) && (l.pmu = .fv || l.pmu = .fi) then pmuTicks l
      else 0
    else if l.pmu = .off then 6250
    else if o.pmu = .off then 2500 + (if l.pmu = .fn then 0 else pmuTicks l)
    else 12500 + (if l.pmu = .fn then 0 else pmuTicks l)
  [c, i, m].foldl max a

/-- R421, R428, R434, R438, R444 | a supply takes the settings of a press at a control period -/
def pressDps (t : Nat) (o c : DpsCfg) (x : Dps) : Dps :=
  if o = c then x
  else if !c.enable then dpsOff x.wd { x with cfg := c }
  else if !o.enable then armDps t c x
  else
    let x := x.upto t
    let moving := !x.rest
    let range := o.range != c.range
    let cfg := { c with slew := if moving then x.cfg.slew else c.slew, bend := if moving then x.cfg.bend else c.bend }
    let cfg := if range || x.dwell.isSome then
        { cfg with range := x.cfg.range, isrc := some (min x.cfg.src c.src), isnk := some (min x.cfg.snk c.snk) } else cfg
    { x with cfg := cfg,
             late := if !moving then none else if o.slew != c.slew || o.bend != c.bend then some (c.slew, c.bend) else x.late,
             nextT := if o.target != c.target && x.nextT.isNone then some c.target else x.nextT,
             xh := if o.nx != c.nx then List.replicate c.nx 0 else x.xh,
             ffofs := if o.ffofs != c.ffofs then c.ffofs else x.ffofs,
             dwell := if range then some (t + 25000, c) else x.dwell.map (fun e => (e.1, c)) }

/-- R186, R429, R434 | the tick at which a supply that a press changes has settled -/
def dpsSettled (t : Nat) (o c : DpsCfg) (x : Dps) : Nat :=
  let y := (if o.enable then x else { x with r := 0, sl := 0, segs := [] }).upto t
  let tgt := if !o.enable then c.target else y.nextT.getD (if o.target != c.target then c.target else y.tgt)
  let segs := if tgt = y.tgt && o.enable then y.segs else planProfile y.r y.sl tgt (if y.rest then c.slew else y.cfg.slew) (if y.rest then c.bend else y.cfg.bend)
  let a := t + arriveTicks segs c
  if o.range != c.range then max a (t + 62500) else a

/-- R459 | a generator takes the settings of a press at a sample tick: a span change passes through its dwell -/
def pressAux (t : Nat) (o c : AuxCfg) (x : Aux) : Aux :=
  if o = c then x
  else if x.st = .off || x.st = .frozen then x
  else if o.span = c.span then
    { x with cfg := { c with span := x.cfg.span }, relay := if x.dwell.isSome then x.relay else c.relay, dwell := x.dwell.map (fun e => (e.1, c)) }
  else
    { x with cfg := { c with span := x.cfg.span }, relay := false,
             dwell := some (t + (if x.relay then 11250000 else 125000), c), prev := auxCode x (t - 4), prevT := t }

/-- R186, R459 | the tick at which a generator that a press changes has settled -/
def auxSettled (b t : Nat) (o c : AuxCfg) (x : Aux) : Nat :=
  if o.span != c.span then t + (if x.relay then 11250000 else 125000)
  else if o.relay != c.relay then t + 4375000 else b

/-- R184 to R186 | the press is committed at a boundary: digital state, level queues (in RUNNING they have it since the decision on the
boundary quire, `pressAhead`), supplies, generators, converters and TMUs; the tick at which all of it has settled -/
def commitPress (s : State) (d b : Nat) (f : Furnish) : State × Nat :=
  let k := getDk s d
  let o := k.act
  let lev := fun (f : Furnish) c => tget f.lev c ({} : LevCfg)
  let dp := ceilTo b 1250
  let ax := ceilTo b 4
  let tick := ceilTo (b + 250) 1250
  let settle :=
    (k.grant.ch.filter (fun c => lev o c != lev f c)).map (fun c => max tick (getPin s c).dwellEnd + levelTicks (lev o c) (lev f c)) ++
    (k.grant.dps.filter (fun n => tget o.dps n {} != tget f.dps n {} && (tget f.dps n {}).enable)).map
      (fun n => dpsSettled dp (tget o.dps n {}) (tget f.dps n {}) (getDps s n)) ++
    (k.grant.aux.filter (fun n => tget o.aux n {} != tget f.aux n {})).map (fun n => auxSettled b ax (tget o.aux n {}) (tget f.aux n {}) (getAux s n))
  let s := modDk s d (fun k => { k with act := f, shad := f, dirty := false, need := [], press := none })
  let s := forEach k.grant.ch s (fun s c => modPin s c (fun p =>
    let p := if k.st = .running then p else pressPin b (lev o c) (lev f c) p
    if k.st = .running || (tget o.pins c {}).rest = (tget f.pins c {}).rest then p else pinRest p (tget f.pins c {}).rest))
  let s := forEach k.grant.dps s (fun s n =>
    let a := tget o.dps n {}
    let c := tget f.dps n {}
    modDps (if a.fft = c.fft then s else loadFft s n c) n (pressDps dp a c))
  let s := forEach k.grant.aux s (fun s n => modAux s n (fun x => pressAux ax (tget o.aux n {}) (tget f.aux n {}) (auxSync (now s) x)))
  let s := forEach k.grant.adc s (fun s n =>
    let c := tget f.adc n {}
    modAdc s n (fun a => { a with cfg := if a.busy then a.cfg else c,
                                  timer := if k.st = .running && c.trig = .timer && (tget o.adc n {}).trig != .timer then some b else a.timer }))
  let s := forEach k.grant.tmu s (fun s n => modTmu s n (fun x => { x with cfg := if x.busy then x.cfg else tget f.tmu n {} }))
  (keep (incr s d 24), settle.foldl max b)

/-- R149, R462 | lateness in whole nanoseconds, rounded up -/
def lateNs (s : State) (t : Nat) : Int := -((((t : Int) - (now s : Int)) * 4) / 5)

/-- R462 | the PLAY commands that waited for a press take effect -/
def endPlays (s : State) (d : Nat) : State :=
  (s.jobs.filter (fun j => match j.kind with | .play e _ _ => e == d | _ => false)).foldl (fun s j =>
    match j.kind with
    | .play _ n t =>
      let j' := match t with | some u => { j with late := some (lateNs s u) } | none => j
      let s := { s with jobs := s.jobs.map (fun x => if x = j then j' else x) }
      let at_ := match t with | some _ => ceilTo (now s + 1) 4 | none => ceilTo (cmdTick s) 4
      match playNow s d n at_ t with
      | .ok (s, .now b f) => completeJob s j' b f
      | .ok (s, _) => s
      | .error e => completeJob s j' [] e
    | _ => s) s

/-- R184 | the boundary of a waiting press that has been placed: the first sheet of a segment placed after validation -/
def pressReached (k : Deckle) : Option Nat :=
  match k.press, k.seq.cur with
  | some (t, _), some q => if q.seg = 0 ∧ t * 1024 ≤ k.seq.curStart then some (k.seq.curStart / 1024) else none
  | _, _ => none

/-- R184 to R186 | the press is applied at a boundary, and its reply sent -/
def applyPress (s : State) (d b : Nat) : State :=
  match (getDk s d).press with
  | some (_, f) =>
    let r := commitPress s d b f
    endPlays (finishJobs r.1 (fun j => j == .press d) [] [w "OK", w "PRESS", dTok d, kt "BOUNDARY" b, kt "SETTLED" r.2]) d
  | none => s

/-- R184 | a press of a RUNNING deckle whose boundary has come -/
def pressDue (s : State) (d : Nat) : State :=
  match pressReached (getDk s d) with
  | some b => if (getDk s d).st = .running ∧ b ≤ now s then applyPress s d b else s
  | none => s

/-- R184, R185 -/
def execPressBoundary (dt : Nat) (d : Fin 8) (s : State) : Out :=
  let s := advance s dt
  .next (match (getDk s d).st with
    | .armed | .stopped => applyPress s d (now s)
    | _ => pressDue s d)

/-- R187 | no boundary within 10 ms of validation -/
def execPressNoboundary (dt : Nat) (d : Fin 8) (s : State) : Out :=
  let s := pressDue (advance s dt) d
  let k := getDk s d
  match k.press with
  | some (t, _) =>
    if k.st = .running ∧ t + 12500000 ≤ now s ∧ pressReached k = none then
      .next (endPlays (finishJobs (modDk s d (fun k => { k with press := none })) (fun j => j == .press d) [] e424) d)
    else .next s
  | none => .next s

/-! ### STOP and STOP OFF (R158, R159, R188) -/

/-- R63, R158 | a deckle that is ARMED stops at once: no quire has been placed -/
def stopArmed (s : State) (d : Nat) : State :=
  let s := modDk s d (fun k => { haltThread k with lastQ := none, lastTb := now s })
  let s := setSt (traceFree (stopUnits s d) d 0x201) d .stopped
  let s := if s.ph.fo = some d then applyFailOut s else s
  keep (endPlays (pressFails s d "STOP") d)

/-- R102, R103, R158 | STOP by the deckle's state; one that waits for WARM has its wait cancelled (log 100) -/
def stopNow (s : State) (d : Nat) : Res (State × Ans) := do
  let k := getDk s d
  if k.waitWarm then
    ok (modDk s d (fun k => { k with waitWarm := false })) [w "OK", w "STOP", dTok d, kw "WAITWARM" "CANCELLED"]
  else
    inSt k [.armed, .running]
    if k.st = .armed then
      let s := stopArmed s d
      ok s (stopLine (getDk s d) d)
    else .ok (modSeq s d (fun q => { q with stops := q.stops ++ [.stop] }), .later (.stop d))

/-- R124, R158 -/
def execStop (h : Hdr) (s : State) : Out := noramFirst s (.stop h) (tenantForm "STOP") h (fun s => stopNow s (myDk s h))

/-- R159 | an ARM in progress from STOPPED is abandoned by STOP OFF, and refused with the state (log 102) -/
def stopArming (s : State) (d : Nat) : State :=
  if (getDk s d).arming.isSome then
    finishJob (modDk s d (fun k => { k with arming := none })) (fun j => j == .arm d) [] (e420 (getDk s d))
  else s

/-- R159, R351 | STOP OFF by the deckle's state; it waits for the end of a deskew measurement -/
def stopOffNow (s : State) (d : Nat) : Res (State × Ans) := do
  let k := getDk s d
  inSt k [.armed, .running, .stopped, .faulted]
  let s := stopArming s d
  match k.st with
  | .running => .ok (modSeq s d (fun q => { q with stops := q.stops ++ [.off] }), .later (.stopOff d))
  | .armed => .ok (beginOff (stopArmed s d) d, .later (.stopOff d))
  | _ =>
    let s := endPlays (pressFails (modDk s d (fun k => { k with press := none, waitWarm := false })) d "STOP") d
    .ok (if tdrBusy s d then s else beginOff s d, .later (.stopOff d))

/-- R124, R159 -/
def execStopOff (h : Hdr) (s : State) : Out := noramFirst s (.stopOff h) (tenantForm "STOP") h (fun s => stopOffNow s (myDk s h))

/-- R159, R469 | whether a supply of the deckle still ramps, or a span dwell of a generator goes on -/
def ramping (s : State) (d : Nat) : Bool :=
  (getDk s d).grant.dps.any (fun n => let x := (getDps s n).upto (now s); x.on && !x.rest) ||
    (getDk s d).grant.aux.any (fun n => (getAux s n).dwell.isSome)

/-- R155, R159, R188, R303 | every output of the deckle is off -/
def execStopOffComplete (dt : Nat) (d : Fin 8) (s : State) : Out :=
  let s := advance s dt
  let d : Nat := d
  let k := getDk s d
  if !hasJob s (fun j => j == .stopOff d) || k.st = .running || tdrBusy s d || ramping s d then .next s
  else
    let s := outputsOff s d
    let merged := k.dirty
    let s := mergeShadow s d
    let fin := stopLine k d ++ (if merged then [kw "SHADOW" "MERGED"] else [])
    let s := modDk s d (fun k => { k with cause := none, mchk := false })
    let s := if k.mchk then holdDeckle s d .mchk else setSt (modDk s d (fun k => { k with why := none })) d .opened
    .next (finishJobs s (fun j => j == .stopOff d) [] fin)

end Sys2Proof.Machine
end

