-- ==== Sys2Proof/Machine/Furnishes.lean ====
section
/-! DEFINITION. Furnishes: SEAL, the slot commands, FURNISH SET, REVERT and SHOW. -/

namespace Sys2Proof.Machine

/-! ### SEAL and slots (R169 to R179) -/

/-- R169, R171, R175 -/
def execFurnishSeal (h : Hdr) (s : State) : Out :=
  noram s (.furnishSeal h) (tenantForm "FURNISH") h (fun s => do
    let d := myDk s h
    let k := getDk s d
    inSt k [.opened, .held]
    need k.arming.isNone (e420 k)
    match validate s d k.grant k.work with | some e => .error e | none => pure ⟨⟩
    let s := setSeal s d
    let k := getDk s d
    ok s [w "OK", w "FURNISH", w "SEAL", dTok d, kn "SEAL" (k.sealN.getD 0), kv "CRC" [.hx k.crc 8]])

/-- R585 | a slot that the deckle holds -/
def ownSlot (s : State) (d pos n : Nat) : Res FSlot := do
  need (n < 16) (e419 pos)
  match tget? s.nv.slots n with
  | some x => if x.own = d then .ok x else .error e403
  | none => .error e403

/-- The words of a slot's seal and CRC. -/
def sealToks (n c : Nat) : Line := [kn "SEAL" n, kv "CRC" [.hx c 8]]

/-- R175, R176 | the furnish and bank contents of a slot become the working ones, are validated and sealed -/
def execFurnishLoad (h : Hdr) (n : Nat) (s : State) : Out :=
  noram s (.furnishLoad h n) (tenantForm "FURNISH") h (fun s => do
    let d := myDk s h
    let x ← ownSlot s d 3 n
    let k := getDk s d
    inSt k [.opened, .held]
    need k.arming.isNone (e420 k)
    need x.ok (e416slot n)
    let s' := cancelWarm (loadSlot s d x) d "EDIT"
    match validate s' d k.grant x.f with | some e => .error e | none => pure ⟨⟩
    let s := loadSeal s' d x
    let k := getDk s d
    ok s ([w "OK", w "FURNISH", w "LOAD", dTok d, kn "SLOT" n] ++ sealToks (k.sealN.getD 0) k.crc))

/-- R172, R176, R177, R178 | the slot is written, its CRC last -/
def execFurnishSave (h : Hdr) (n : Nat) (s : State) : Out :=
  noram s (.furnishSave h n) (tenantForm "FURNISH") h (fun s => do
    need (n < 16) (e419 3)
    let d := myDk s h
    let k := getDk s d
    let mine := (tget? s.nv.slots n).map (fun x => x.own)
    need (!slotErasing s n && (mine = none || mine = some d)) e403
    inSt k [.opened]
    need (k.sealN.isSome && k.arming.isNone) e430
    need (mine.isSome || (heldSlots s d).length < k.grant.slots) (e432 (k.grant.slots - (heldSlots s d).length))
    .ok ({ s with nv := { s.nv with slots := tset s.nv.slots n (slotOf s d) } }, .later (.save d n)))

/-- R177 | the slot write ends with its CRC -/
def execFurnishSaveComplete (dt : Nat) (d : Fin 8) (s : State) : Out :=
  let s := advance s dt
  let d : Nat := d
  match s.jobs.find? (fun j => match j.kind with | .save e _ => e == d | _ => false) with
  | some j =>
    match j.kind with
    | .save _ n =>
      let s := slotDone s n
      let x := tget s.nv.slots n {}
      .next (completeJob s j [] ([w "OK", w "FURNISH", w "SAVE", dTok d, kn "SLOT" n] ++ sealToks x.sealN x.crc))
    | _ => .next s
  | none => .next s

/-- R176 | the start slot is marked, or none -/
def execFurnishStart (h : Hdr) (n : Option Nat) (s : State) : Out :=
  noram s (.furnishStart h n) (tenantForm "FURNISH") h (fun s => do
    let d := myDk s h
    match n with | some m => do let _ ← ownSlot s d 3 m; pure () | none => pure ()
    inSt (getDk s d) [.opened]
    ok (modDk s d (fun k => { k with startSlot := n }))
      [w "OK", w "FURNISH", w "START", dTok d, match n with | some m => kn "SLOT" m | none => kw "SLOT" "NONE"])

/-- R176, R178 -/
def execFurnishDrop (h : Hdr) (n : Nat) (s : State) : Out :=
  noram s (.furnishDrop h n) (tenantForm "FURNISH") h (fun s => do
    let d := myDk s h
    let _ ← ownSlot s d 3 n
    inSt (getDk s d) [.opened]
    let s := modDk (dropSlot s n) d (fun k => { k with startSlot := if k.startSlot = some n then none else k.startSlot })
    ok s [w "OK", w "FURNISH", w "DROP", dTok d, kn "SLOT" n])

/-- R176, R588 -/
def execFurnishSlots (h : Hdr) (s : State) : Out :=
  noram s (.furnishSlots h) (readForm "FURNISH") h (fun s => do
    let d := myDk s h
    let k := getDk s d
    let l := s.nv.slots.filter (fun e => e.2.own = d)
    okBody s (l.map (fun e => [w "FS", { val := [.d e.1] }] ++ sealToks e.2.sealN e.2.crc ++ [kb "START" (k.startSlot = some e.1), kn "MIB" e.2.mib]))
      [w "OK", w "FURNISH", w "SLOTS", dTok d, kn "N" l.length, kn "FREE" (k.grant.slots - l.length)])

/-! ### OPTIONS (R166, R236, R378, R382, R383) -/

/-- A bank, or NONE. -/
def readBank (pos : Nat) (a : Arg) : Res (Option Nat) := do
  match a with
  | .word "NONE" => pure none
  | .list l =>
    let x ← expand pos .v l
    match x with | [b] => pure (some b) | _ => .error (e400 pos)
  | _ => .error (e400 pos)

/-- R166 | one field of the OPTIONS section -/
def optionField (pos : Nat) (g : Furnish → Furnish) (f : Fld) : Res (Furnish → Furnish) := do
  let mode : Res LogMode := do pick pos [("FIRST", LogMode.first), ("LAST", .last)] (← argWord pos f.val)
  match f.key with
  | "WARM" => do let x ← readNat pos 0 1 (← argNum pos f.val); pure (fun o => { g o with warm := x = 1 })
  | "GROUP" =>
    match f.val with
    | .word "NONE" => pure (fun o => { g o with group := none })
    | _ => do let x ← readNat pos 1 15 (← argNum pos f.val); pure (fun o => { g o with group := some x })
  | "TRIG" => do let x ← readTrig false false pos f.val; pure (fun o => { g o with trig := x })
  | "BROKE BANK" => do let x ← readBank pos f.val; pure (fun o => { g o with bbank := x })
  | "BROKE MODE" => do let x ← mode; pure (fun o => { g o with bmode := x })
  | "BROKE STOPAT" =>
    match f.val with
    | .word "NONE" => pure (fun o => { g o with stopat := none })
    | _ => do let x ← readNat pos 1 4294967295 (← argNum pos f.val); pure (fun o => { g o with stopat := some x })
  | "CAPTURE BANK" => do let x ← readBank pos f.val; pure (fun o => { g o with cbank := x })
  | "CAPTURE MODE" => do let x ← mode; pure (fun o => { g o with cmode := x })
  | _ => .error (e400 pos)

/-- The word that all the fields of a FURNISH SET stand behind: none, BROKE or CAPTURE. -/
def optionHead (key : String) : String :=
  if key.startsWith "BROKE " then "BROKE" else if key.startsWith "CAPTURE " then "CAPTURE" else ""

/-- The banks that a field names. -/
def fieldBanks (f : Fld) : List Nat := match f.val with | .list l => l.map (fun r => r.a) | _ => []

/-- R122, R166, R585 | all fields are read before the grant is asked -/
def execFurnishSet (h : Hdr) (f : List Fld) (s : State) : Out :=
  noram s (.furnishSet h f) (tenantForm "FURNISH") h (fun s => do
    let d := myDk s h
    let k := getDk s d
    let hd := match f with | x :: _ => optionHead x.key | [] => ""
    let pos := if hd = "" then 3 else 4
    need (!f.isEmpty) (e400 3)
    match (numbered pos f).find? (fun e => optionHead e.2.key != hd) with | some e => .error (e400 e.1) | none => pure ⟨⟩
    let g ← foldFields optionField pos id f
    holds k .v (f.flatMap fieldBanks)
    let (s, t) ← edit s d (some "OPTIONS") g
    ok s ([w "OK", w "FURNISH", w "SET", dTok d] ++ t))

/-- R168 -/
def execFurnishRevert (h : Hdr) (s : State) : Out :=
  noram s (.furnishRevert h) (tenantForm "FURNISH") h (fun s => do
    let d := myDk s h
    inSt (getDk s d) [.armed, .running, .stopped, .faulted]
    ok (modDk s d (fun k => { k with shad := k.act, dirty := false, need := [], staged := [], stagedN := 0 }))
      [w "OK", w "FURNISH", w "REVERT", dTok d])

/-! ### FURNISH SHOW (R168, R588) -/

def sections : List String := ["GRANT", "PIN", "LEVEL", "INSTR", "TSET", "PATTERN", "MICRO", "OPTIONS"]

/-- The words that set the level fields of a channel, from its SHOW line. -/
def levelSets (c : Nat) (l : LevCfg) : List Line :=
  let x := (levelLine c l).drop 2
  let pick := fun (ks : List String) => x.filter (fun t => ks.contains t.key)
  [[w "LEVEL", uTok .ch c] ++ pick ["VIH", "VIL", "VTT", "VOH", "VOL", "IOH", "IOL", "VCOM", "LOAD"],
   [w "LEVEL", uTok .ch c] ++ pick ["PMU", "FORCE", "IRANGE", "ICLAMP", "VCLAMPLO", "VCLAMPHI"]]

/-- A bank or NONE as a field. -/
def bankTok (key : String) (b : Option Nat) : Tok := match b with | some n => kv key (unitName .v n) | none => kw key "NONE"

def LogMode.name : LogMode → String | .first => "FIRST" | .last => "LAST"

/-- R166 | the quires of a stripe that hold a byte other than zero, without those of the program, of granted banks -/
def storedQuires (s : State) (k : Deckle) (f : Furnish) : List Nat :=
  let l := (numbered 0 f.stripe).filter (fun e => k.grant.banks.contains e.2)
  let q := l.flatMap (fun e => (s.vat.filter (fun c => c.1 / 2 ^ 20 = e.2)).map (fun c => c.1 % 2 ^ 20 / (4 * k.width) * f.stripe.length + e.1))
  (sortNat q).filter (fun pa => !progSlot f k.width pa)

/-- R166, R279 | the bank images of a furnish as commands that write them: quires at the zero of a couched bank are left out (log 103) -/
def imageText (s : State) (k : Deckle) (f : Furnish) : List Line :=
  (storedQuires s k f).flatMap (fun (pa : Nat) => [w "DATA", w "SHEETS", { val := [.d pa] }, { val := [.d 1] }] ::
    blkLines (memBytes s.vat (quireAddr f k.width pa) (4 * k.width))) ++
  (match f.prog with
    | some b => if f.nops = 0 then [] else [w "SEQ", w "LOAD", { val := [.d 0] }] :: blkLines (memBytes s.vat (opAddr b 0) (8 * f.nops))
    | none => [])

/-- R413 | the banks that hold a furnish's images are read without a double-bit error -/
def imageOk (s : State) (k : Deckle) (f : Furnish) : Res Unit := do
  (storedQuires s k f).forM (fun pa => readOk s (quireAddr f k.width pa) (4 * k.width))
  match programReadable s f with | some e => .error e | none => pure ⟨⟩

/-- R588 | the setting commands of a section -/
def sectionText (s : State) (d : Nat) (f : Furnish) (sect : String) : List Line :=
  let g := (getDk s d).grant
  match sect with
  | "GRANT" => [[w "DECKLE", { val := [.d d] }, w "OPEN", kv "CH" (unitList .ch g.ch), kv "BANKS" (unitList .v g.banks), kv "DPS" (unitList .dps g.dps),
      kv "AUX" (unitList .aux g.aux), kv "ADC" (unitList .adc g.adc), kv "TMU" (unitList .tmu g.tmu), kn "SHARE" g.share, kn "SLOTS" g.slots]]
  | "PIN" => g.ch.flatMap (fun c =>
      let p := tget f.pins c {}
      [[w "PIN", uTok .ch c, nameTok p.name], [w "PIN", uTok .ch c, kw "REST" p.rest.name]])
  | "LEVEL" => g.ch.flatMap (fun c => levelSets c (tget f.lev c {}))
  | "INSTR" => g.dps.flatMap (fun n => dpsText n (tget f.dps n {})) ++ g.aux.flatMap (fun n => auxText n (tget f.aux n {})) ++
      g.adc.flatMap (fun n => adcText n (tget f.adc n {})) ++ g.tmu.flatMap (fun n => tmuText n (tget f.tmu n {}))
  | "TSET" => [w "TSET", kn "COUNT" f.tcount] :: (List.range f.tcount).flatMap (fun (i : Nat) =>
        [w "TSET", { val := [.d i] }, kn "PERIOD" (f.tset i).period] ::
          g.ch.map (fun c => [w "TSET", { val := [.d i] }, uTok .ch c] ++ tpinLine (f.tset i) c false)) ++
      g.ch.map (fun c => let k := tget f.dsk c ({} : Deskew); [w "TSET", w "DESKEW", uTok .ch c, kv "DRV" [.d k.drv], kv "CMP" [.d k.cmp]])
  | "PATTERN" => [[w "BANK", w "STRIPE", { val := unitList .v f.stripe }],
      [w "SEQ", w "BANK", match f.prog with | some b => uTok .v b | none => w "NONE"], [w "SEQ", w "ENTRY", { val := [.d f.entry] }]] ++ imageText s (getDk s d) (f.within g)
  | "MICRO" => [[w "MICRO", w "LOAD", w "U", { val := [.d (sliceU d)] }]] ++ blkLines (memBytes s.ust (4 * sliceU d) 4096) ++
      [[w "MICRO", w "LOAD", w "N", { val := [.d (sliceN d)] }]] ++ blkLines (memBytes s.nst (16 * sliceN d) 4096) ++
      (List.range 32).map (fun (e : Nat) => [w "MICRO", w "DISPATCH", { val := [.d e] }, { val := [.hx (tget f.ctab e 0) 8] }])
  | "OPTIONS" => [[w "FURNISH", w "SET", kb "WARM" f.warm, kv "TRIG" f.trig.name,
        match f.group with | some n => kn "GROUP" n | none => kw "GROUP" "NONE"],
      [w "FURNISH", w "SET", w "BROKE", bankTok "BANK" f.bbank, kw "MODE" f.bmode.name,
        match f.stopat with | some n => kn "STOPAT" n | none => kw "STOPAT" "NONE"],
      [w "FURNISH", w "SET", w "CAPTURE", bankTok "BANK" f.cbank, kw "MODE" f.cmode.name]]
  | _ => []

/-- R168, R280 | banks and slices as a furnish holds them: for the shadow, with its staged writes -/
def shown (s : State) (d : Nat) (shadow : Bool) : State :=
  if shadow then forEach (getDk s d).staged s (fun s x => applyStaged s d x) else s

/-- R36, R168, R408, R413, R588 -/
def execFurnishShow (h : Hdr) (sect : Option String) (shadow : Bool) (s : State) : Out :=
  noram s (.furnishShow h sect shadow) (readForm "FURNISH") h (fun s => do
    need (match sect with | some x => sections.contains x | none => true) (e400 3)
    let d := myDk s h
    let k := getDk s d
    let idle : Bool := k.st = .opened ∨ k.st = .held
    let f := if shadow then k.editing else k.inForce
    let sects := match sect with | some x => [x] | none => sections
    let images := sects.contains "PATTERN"
    let s := if images then forEach ((f.stripe ++ f.prog.toList).filter k.grant.banks.contains) s wakeBank else s
    let v := shown s d shadow
    if images then imageOk v k (f.within k.grant) else pure ⟨⟩
    let l := sects.flatMap (fun x => (sectionText v d f x).map (fun t => [w "FU", w x] ++ t))
    okBody s l [w "OK", w "FURNISH", w "SHOW", dTok d, w (if shadow then "SHADOW" else if idle then "WORKING" else "ACTIVE"), kn "N" l.length])

end Sys2Proof.Machine
end

