-- ==== Sys2Proof/Machine/Placing.lean ====
section
/-! DEFINITION. A quire that is placed: its sheets in time, drive edges, compare results, fail counters, broke records, capture
entries, FAIL-OUT and marks. -/

namespace Sys2Proof.Machine

/-! ### Sheets in time (R275, R330) -/

/-- A placed sheet: its number in the quire, its word, its timing set after the offset, its start in fine steps, its period. -/
structure PSheet where
  i : Nat
  x : Nat
  ts : Nat
  t : Nat
  period : Nat
deriving DecidableEq, Repr

/-- R275, R330 | sheets in order from a start -/
def planSheets (f : Furnish) (tsel : Nat) : Nat → Nat → List Nat → List PSheet
  | _, _, [] => []
  | i, t, x :: r =>
    let ts := (sheetTs x + tsel) % 32
    let p := (f.tset ts).period
    { i := i, x := x, ts := ts, t := t, period := p } :: planSheets f tsel (i + 1) (t + p) r

/-- R273, R330 | the length of a quire in fine steps -/
def quireLen (f : Furnish) (tsel : Nat) (xs : List Nat) : Nat :=
  (xs.map (fun x => (f.tset ((sheetTs x + tsel) % 32)).period)).sum

/-! ### Drive edges (R256, R332 to R335) -/

/-- A pin as the calender sees it while it places sheets. -/
structure PDrive where
  on : Bool
  last : Option Nat
  lev : Drv
  load : Bool
  edges : List Edge
  loads : List LoadSw

/-- R361, R374 | the tick at which an entry of a level queue takes effect: a level tick, or the end of a dwell in progress -/
def Pin.entryTick (p : Pin) (u : Nat) : Nat := max (ceilTo u 1250) p.dwellEnd

/-- R365 | the tick at which a pin's PMU disconnects, past or ahead -/
def Pin.reconAt (p : Pin) : Option Nat :=
  p.recon.orElse (fun _ => ((p.lq.reverse.takeWhile (fun e => e.2.pmu = .off)).getLast?).map (fun e => p.entryTick e.1))

/-- R365 | whether the PMU makes a pin's codes X in a sheet -/
def xed (p : Pin) (t : Nat) : Bool :=
  p.px && !(match p.reconAt with | some r => decide ((r + 6250) * 1024 ≤ t) | none => false)

/-- R354, R361 | whether LOAD=ON is set for a pin at the start of a sheet -/
def Pin.loadSet (p : Pin) (t : Nat) : Bool :=
  match (p.lq.filter (fun e => p.entryTick e.1 * 1024 ≤ t)).getLast? with | some e => e.2.load | none => p.cur.load

/-- R367 | the comparator range dwells, first and end ticks, that the entries of a level queue bring -/
def Pin.dwellsOf (p : Pin) : Bool → List (Nat × LevCfg) → List (Nat × Nat)
  | _, [] => []
  | hi, (u, l) :: r => (if crangeHi l != hi then [(p.entryTick u, p.entryTick u + 6250)] else []) ++ p.dwellsOf (crangeHi l) r

/-- R367, R368 | the comparator range dwells of a pin, in progress and ahead -/
def Pin.compDwells (p : Pin) : List (Nat × Nat) :=
  match p.cdwell with
  | some (u, voh, _) => (u - 6250, u) :: p.dwellsOf (decide (4 < voh)) p.lq
  | none => p.dwellsOf (crangeHi p.cur) p.lq

/-- R256 | the code K stands for: the last drive code, or the rest state -/
def keepCode (last : Option Nat) (r : Rest) : Nat :=
  match last with | some c => c | none => match r with | .low => 0 | .high => 1 | .term => 8 | .hiz => 4

/-- R254, R256, R365 | the code that drives a pin in a sheet -/
def driveCode (p : Pin) (r : Rest) (last : Option Nat) (x : PSheet) (i : Nat) : Nat :=
  if xed p x.t then 4 else let c := sheetCode x.x i; if c = 9 then keepCode last r else c

/-- R332 | a code as drive edges see it -/
def dcode (c : Nat) : DCode := if c = 0 then .zero else if c = 1 then .one else if c = 8 then .tt else .off

/-- R333 | the driver state that an edge brings -/
def edgeDrv (c : DCode) : EdgeLev → Drv
  | .off => .off | .vil => .vil | .vih => .vih
  | .data => match c with | .zero => .vil | .one => .vih | .tt => .vtt | .off => .off
  | .comp => match c with | .zero => .vih | .one => .vil | .tt => .vtt | .off => .off

/-- R354 | the sheet codes under which an active load may act: L, H, X, M, V and C -/
def loadCode (c : Nat) : Bool := [2, 3, 4, 6, 7, 10].contains c

/-- R330, R332 to R335, R354 | what a sheet does to a pin's driver and load -/
def driveSheet (f : Furnish) (ch i : Nat) (p : Pin) (r : Rest) (a : PDrive) (x : PSheet) : PDrive :=
  let c := driveCode p r a.last x i
  let dc := dcode c
  let tp := (f.tset x.ts).of ch
  let es := (sheetEdges tp.fmt dc a.on).map (fun e =>
    ({ ch := ch, t := (x.t : Int) + tp.at x.period e.1 + (tget f.dsk ch ({} : Deskew)).drv, lev := edgeDrv dc e.2 } : Edge))
  let on := onAfter tp.fmt dc a.on
  let want := p.loadSet x.t && loadCode c && !p.px
  let at_ : Option Int := if a.on then (es.find? (fun e => e.lev = .off)).map Edge.t else some x.t
  let sw : List LoadSw := match at_ with | some t => if want = a.load then [] else [{ ch := ch, t := t, acts := want }] | none => []
  { on := on, last := if dc = .off then a.last else some c,
    lev := match es.getLast? with | some e => e.lev | none => a.lev,
    load := if at_.isSome then want else a.load, edges := a.edges ++ es, loads := a.loads ++ sw }

/-- R332, R335, R369 | a pin after the sheets of a quire, its edges and its load's switchings; a channel turned off by F-PIN has none -/
def drivePin (f : Furnish) (ch i : Nat) (p : Pin) (xs : List PSheet) : Pin × List Edge × List LoadSw :=
  if p.dead then (p, [], [])
  else
    let r := (tget f.pins ch {}).rest
    let a := xs.foldl (driveSheet f ch i p r) { on := p.on, last := p.last, lev := p.drv, load := p.load, edges := [], loads := [] }
    ({ p with on := a.on, last := a.last, drv := a.lev, load := a.load }, a.edges, a.loads)

/-- R63, R332, R335 | the drive edges and load switchings of a quire on every pin of a deckle, and KEEPER as the drivers leave it -/
def driveQuire (s : State) (d : Nat) (f : Furnish) (xs : List PSheet) : State :=
  let s := modSeq s d (fun q => { q with edges := [], loads := [] })
  keep ((numbered 0 (getDk s d).grant.ch).foldl (fun s e =>
    let r := drivePin f e.2 e.1 (getPin s e.2) xs
    modSeq (setPin s e.2 r.1) d (fun q => { q with edges := q.edges ++ r.2.1, loads := q.loads ++ r.2.2 })) s)

/-! ### Compares (R336, R353, R368, R375, R376) -/

/-- What a pin's comparators give in a sheet. -/
structure PRes where
  ch : Nat
  i : Nat
  code : Nat
  fail : Bool
  region : Region
  dwell : Bool
  win : Bool
  t : Int
  c1 : Region
deriving DecidableEq, Repr

/-- R254, R353 | whether a region passes a compare code; other codes pass in every region -/
def passes (code : Nat) (r : Region) : Bool :=
  match code with
  | 2 => r = .low
  | 3 => r = .high
  | 6 => r = .mid
  | 7 => r != .mid
  | _ => true

/-- R254 | the codes that produce pass or fail -/
def isCompare (code : Nat) : Bool := code = 2 || code = 3 || code = 6 || code = 7

/-- R336, R355, R365, R368, R376, R388 | the result of a pin in a sheet; codes that the PMU makes X compare and capture nothing; comparators that the command does not show read mid -/
def comparePin (f : Furnish) (p : Pin) (ch i : Nat) (obs : List PinObs) (x : PSheet) : PRes :=
  let o : PinObs := (obs.find? (fun o => o.ch == ch && o.sheet == x.i)).getD { ch := ch, sheet := x.i, at1 := .mid }
  let code := if xed p x.t then 4 else sheetCode x.x i
  let tp := (f.tset x.ts).of ch
  let dsk := (tget f.dsk ch ({} : Deskew)).cmp
  let t1 := (x.t : Int) + tp.at x.period .c1 + dsk
  let t2 := if tp.win then (x.t : Int) + tp.at x.period .c2 + dsk else t1
  let active := isCompare code
  let dwell := active && p.compDwells.any (fun w => decide (t1 < (w.2 : Int) * 1024 ∧ (w.1 : Int) * 1024 ≤ t2))
  let bad := (o.at1 :: if tp.win then o.win else []).find? (fun r => !passes code r)
  { ch := ch, i := i, code := code, fail := active && (dwell || bad.isSome),
    region := if active && tp.win then bad.getD o.at1 else o.at1, dwell := dwell, win := tp.win, t := t2, c1 := o.at1 }

/-- R375 | the entry of a result queue -/
def ringWord (q sheet : Nat) (r : PRes) : BitVec 32 :=
  BitVec.ofNat 32 (q % 2 ^ 16 * 2 ^ 16 + sheet * 2 ^ 11 + (if r.fail then 2 ^ 7 else 0) + (if r.region = .high then 2 ^ 6 else 0) +
    (if r.region = .low then 2 ^ 5 else 0) + (if r.code = 10 then 2 ^ 4 else 0) + r.code)

/-- R375 | an entry enters a ring of 512, over the oldest when full -/
def ringPut (l : List (BitVec 32)) (x : BitVec 32) : List (BitVec 32) := let m := l ++ [x]; m.drop (m.length - 512)

/-- The pins of some results as a mask by pin index. -/
def maskOf (l : List PRes) (p : PRes → Bool) : Nat := l.foldl (fun m r => if p r then m + 2 ^ r.i else m) 0

/-! ### Queues (R379 to R381, R384, R385) -/

/-- R379, R381, R549 | a broke record is generated: queued, dropped when the queue is full; stored nowhere without a bank -/
def pushBroke (s : State) (d : Nat) (r : BrokeRec) : State :=
  let s := incr s d 3
  let k := getDk s d
  let r := { r with index := k.res.bidx }
  let s := modRes s d (fun x => { x with bidx := x.bidx + 1 })
  if k.act.bbank.isNone then s
  else if 256 ≤ k.res.bq.length then incr (modRes s d (fun x => { x with blost := true })) d 4
  else modRes s d (fun x => { x with bq := x.bq ++ [{ r with flags := r.flags ||| (if x.blost then 8 else 0) }], blost := false })

/-- R384, R385, R549 | a capture entry is generated: queued, or lost when the queue is full or no bank is named -/
def pushCapture (s : State) (d : Nat) (r : CapRec) : State :=
  let s := incr s d 5
  let k := getDk s d
  if k.act.cbank.isNone then incr s d 6
  else if 256 ≤ k.res.cq.length then incr (modRes s d (fun x => { x with clost := true })) d 6
  else modRes s d (fun x => { x with cq := x.cq ++ [{ r with flags := r.flags ||| (if x.clost then 1 else 0) }], clost := false })

/-! ### A sheet's results (R270, R376, R377, R380, R383, R384, R388) -/

/-- R377 | fail counters of the pins that fail -/
def countPins (s : State) (d : Nat) (l : List PRes) : State :=
  modRes s d (fun x => { x with fc := l.foldl (fun t r => tset t r.ch (min (tget t r.ch 0 + 1) (2 ^ 32 - 1))) x.fc })

/-- R377, R383, R549 | a failing sheet is counted; at STOPAT the deckle will stop -/
def countSheet (s : State) (d : Nat) : State :=
  let s := incr (modRes s d (fun x => { x with sheets := min (x.sheets + 1) (2 ^ 48 - 1) })) d 2
  let k := getDk s d
  match k.act.stopat with
  | some n =>
    if n ≤ k.res.sheets ∧ !k.res.stopped then
      modSeq (modRes s d (fun x => { x with stopped := true })) d (fun q => { q with stops := q.stops ++ [.brokeStop] })
    else s
  | none => s

/-- R388 | FAIL-OUT rises 35 ticks after each fail and falls 16 ticks after the latest rise -/
def failOutRise (s : State) (d : Nat) (l : List PRes) : State :=
  if s.ph.fo = some d then
    { s with ph := { s.ph with foUp := s.ph.foUp ++ l.map (fun r => (r.t + 35 * 1024).toNat) } }
  else s

/-- R380 | the kind of a sheet's record -/
def recordKind (first book fails : Bool) : Option Nat :=
  if first then some 0xF
  else if book then some (if fails then 3 else 2)
  else if fails then some 1 else none

/-- R384 | the bits of HI and LO for pins outside CAPMASK, which are not valid: free values (log 5) -/
def openBits (cap n : Nat) : Nat := ((Config.value n).toNat % 2 ^ 48 ||| cap) ^^^ cap

/-- R270, R375 to R380, R384, R388 | the results of one placed sheet; the last component tells of a recorded fail and of any fail
that no mask covers -/
def sheetResults (s : State) (d : Nat) (f : Furnish) (q : FQ) (unrec : Bool) (obs : List PinObs) (x : PSheet) : State × Bool × Bool :=
  let rs := (numbered 0 (getDk s d).grant.ch).map (fun e => comparePin f (getPin s e.2) e.2 e.1 obs x)
  let s := modRes s d (fun r => { r with rings := rs.foldl (fun t y => tset t y.ch (ringPut (tget t y.ch []) (ringWord q.q x.i y))) r.rings })
  let fails := if sheetMask x.x then [] else rs.filter (fun r => r.fail)
  let caps := rs.filter (fun r => r.code = 10)
  let s := if caps.isEmpty then s else
    let cap := maskOf caps (fun _ => true)
    let (n, s) := draw s
    let (m, s) := draw s
    pushCapture s d { rqn := q.q, sheet := x.i, cap := cap, hi := maskOf caps (fun r => r.region = .high) + openBits cap n,
                      lo := maskOf caps (fun r => r.region = .low) + openBits cap m }
  if unrec then (s, false, !fails.isEmpty)
  else
    let s := if fails.isEmpty then s else countSheet (countPins s d fails) d
    let s := if sheetNofo x.x then s else failOutRise s d fails
    let s := match recordKind (q.q = 0 && x.i = 0) (sheetBook x.x) (!fails.isEmpty) with
      | some kind =>
        pushBroke s d { tb := x.t / 1024, fine := x.t % 1024, kind := kind,
                        flags := (if fails.any (fun r => r.dwell) then 1 else 0) + (if sheetNofo x.x then 2 else 0) +
                          (if fails.any (fun r => r.win) then 4 else 0),
                        ts := x.ts, sheet := x.i, rqn := q.q, seg := q.seg, fail := maskOf fails (fun _ => true),
                        hi := maskOf rs (fun r => r.c1 = .high), lo := maskOf rs (fun r => r.c1 = .low) }
      | none => s
    (s, !fails.isEmpty, !fails.isEmpty)

/-- The results of a quire's sheets in order; the flags are those of the whole quire. -/
def quireResults (s : State) (d : Nat) (f : Furnish) (q : FQ) (unrec : Bool) (obs : List PinObs) (xs : List PSheet) : State × Bool × Bool :=
  xs.foldl (fun a x => let r := sheetResults a.1 d f q unrec obs x; (r.1, a.2.1 || r.2.1, a.2.2 || r.2.2)) (s, false, false)

/-! ### A quire (R206, R260, R268 to R271, R274) -/

/-- R274 | the marks of a quire, each once per sheet -/
def quireMarks (s : State) (d : Nat) (q : FQ) (xs : List PSheet) : State :=
  q.marks.eraseDups.foldl (fun s m => match xs[m.2]? with | some x => raiseMark s d m.1 x.t | none => s) s

/-- R206, R267 | quires that count in the lead at a tick: those in the felts, and those whose last sheet has not been placed -/
def lead (q : Seq) (t : Nat) : Nat :=
  q.felts.length + (if q.cur.isSome && t * 1024 < q.curLast then 1 else 0) + (if q.prevQ.isSome && t * 1024 < q.prevLast then 1 else 0)

/-- R549 | the smallest lead at a decision point -/
def minLead (k : Deckle) (n : Nat) : Deckle :=
  let v := min n 15
  { k with cnt := tset k.cnt 13 (if k.seq.nextP = 0 then v else min v (tget k.cnt 13 v)) }

/-- R268, R271 | the results of the quire before the one before last reach the condition bits -/
def resultsUp (q : Seq) (n : Nat) : Seq :=
  { q with resUp := n - 1, sfail := q.sfail || (2 ≤ n && tget q.qf (n - 2) false) }

/-- R184, R206, R207, R260, R268 to R271, R330 | a whole quire is placed at its start, under a furnish -/
def placeQuire (s : State) (d : Nat) (f : Furnish) (q : FQ) (obs : List PinObs) : State :=
  let k := getDk s d
  let start := k.seq.start
  let xs := planSheets f q.tsel 0 start q.sheets
  let unrec := q.rep.isSome && k.seq.matched.isNone
  let s := modDk s d (fun k => minLead k (lead k.seq (now s)))
  let s := modSeq s d (fun z => { z with felts := z.felts.drop 1, prevQ := z.cur, prevStart := z.curStart, cur := some q, curStart := start, prevLast := z.curLast,
                                         curLast := ((xs.getLast?).map (fun x => x.t)).getD start, nextP := z.nextP + 1,
                                         start := start + quireLen f q.tsel q.sheets, trigAt := none })
  let s := incr (incr s d 0) d 1 32
  let s := driveQuire s d f xs
  let r := quireResults s d f q unrec obs xs
  let s := modSeq r.1 d (fun z =>
    let z := { z with qf := (tset z.qf q.q r.2.1).drop ((tset z.qf q.q r.2.1).length - 16),
                      matched := if unrec && !r.2.2 then some q.q else z.matched }
    resultsUp z q.q)
  quireMarks s d q xs

end Sys2Proof.Machine
end

