-- ==== Sys2Proof/Machine/Power.lean ====
section
/-! DEFINITION. From power to READY: starts, verification, self-test, SAFE, resets, power loss, WARM, and the module's own
faults and notes. -/

namespace Sys2Proof.Machine

/-! ### Restart -/

/-- R173, R180, R181, R193 | what a deckle keeps over a restart: HELD with RESTART or, where its start slot is still to be read back,
RESTORING; the refusal of ARM until DECKLE REARM -/
def keepDeckle (k : Deckle) : Deckle :=
  { st := match k.st with | .closed => .closed | .zeroing => .zeroing | _ => .held,
    why := match k.st with | .closed | .zeroing => none | _ => some (if k.startSlot.isSome then .restoring else .restart),
    grant := k.grant, seals := k.seals, rearm := k.rearm, tags := k.tags.filter (fun e => e.reply.isSome), atNext := k.atNext,
    startSlot := k.startSlot, evGrant := k.evGrant, trGrant := k.trGrant, obT := k.obT, obO := k.obO, trPort := k.trPort,
    obIv := (k.obT.filter k.obO.contains).map (fun n => (n, 0, none)),
    runT := k.runT, meterMs := k.meterMs }

/-- R77, R78, R181, R217, R528 | a restart: POWER-ON, volatile state at its reset values -/
def restart (s : State) : State :=
  { State.reset with
    wall := s.wall, pending := s.pending, free := s.free, nv := s.nv,
    md := { latch := s.md.latch, latchCause := s.md.latchCause, resetLow := s.md.resetLow, power := true, oven := s.md.oven, secFail := s.md.secFail },
    pc := { now := s.nv.pace },
    ch := {},
    ln := s.ln.map (fun e => (e.1, { tx := e.2.tx, nslot := e.2.nslot : LineSt })),
    ow := { tags := s.ow.tags.filter (fun e => e.reply.isSome) },
    dk := tmap s.dk keepDeckle,
    bk := tmap s.bk (fun b => { own := match b.couch with | some o => o | none => b.own : Bank }),
    ph := { evt := tmap s.ph.evt (fun e => { e with low := false, pulse := false, relT := none }), tout := s.ph.tout, fo := (applyFailOut s).ph.fo, mkm := s.ph.mkm } }

/-- R67, R70, R80, R223 | the safe-state actions of a reset or a power loss: sessions end, deckles stop at once, outputs off, WARM clear -/
def goDark (s : State) : State :=
  let s := dropSessions s
  let s := safeOutputs (deckles.foldl safeDeckle s)
  { s with jobs := [], md := { s.md with txd := false, usb := false, endT := none, clearWin := false, storing := [], warm := false },
           rf := { s.rf with lock := .unlocked, run := false, active := none, moving := none },
           ph := { s.ph with port := false, evt := tmap s.ph.evt (fun e => { e with low := false, pulse := false }) } }

/-! ### The end of a start -/

/-- R78, R409 | the vat banks have powered up, zeroed (log 99) -/
def banksUp (s : State) : State := forEach ((List.range 64).filter (fun b => !(getBk s b).wd)) s (fun s b => modBk s b (fun x => { x with pow := .on }))

/-- R21, R79, R586 | the lines open at the end of a start; the window of OWNER CLEAR stays shut where SECSTORE has failed -/
def openLines (s : State) : State :=
  let s := banksUp s
  { s with md := { s.md with txd := true, usb := true, endT := some s.wall, clearWin := !s.md.secFail }, ph := { s.ph with port := true },
           ln := tset s.ln 0 { getLn s 0 with up := true, rxT := s.wall } }

/-- R87 | the anti-rollback counter advances once per start -/
def advanceRollback (s : State) : State :=
  if s.md.advanced then s
  else
    let r := ((s.nv.patches.map (fun e => e.2.rbi)).foldl max (max s.md.runFw.rbi s.md.runMc.rbi))
    { s with nv := { s.nv with arb := min 64 (max s.nv.arb r) }, md := { s.md with advanced := true } }

/-- R80, R180 | WARMING or READY for the first time in a start: anti-rollback, then the deckles are restored -/
def enterUp (s : State) (fields : State → Line) : State :=
  let s := advanceRollback s
  let s := { s with dps := [0, 1, 2, 3].map (fun n => (n, { getDps s n with dis100 := (getDps s n).wd })) }
  let s := deckles.foldl beginRestore s
  if s.md.warm then enterReady s (fields s) else enterState s .warming (fields s)

/-! ### Self-test (R88 to R91) -/

/-- The name of a unit as text. -/
def unitText (k : UKind) (n : Nat) : String := String.ofList ((unitName k n).flatMap Atom.bytes |>.map Char.ofNat)

/-- R88 | the name of a front-end die -/
def feText (n : Nat) : String := "FE" ++ toString n

/-- R89 | units left untested when no converter passed -/
def untestable : List String := [feText 0, feText 1, feText 2, feText 3, feText 4, feText 5, "AUX0", "AUX1"]

/-- R88 | items whose failure can never be accepted -/
def neverItems : List String := ["SECSTORE", "STEWMEM", "CSTORE", "REFPATH"]

/-- R88 | the units that an item names for what it finds failing -/
def itemUnits (n : String) : TestFail → List String
  | .bank b => if n = "BANKS" then [unitText .v b] else []
  | .cePad => if n = "BANKS" then [0, 1, 2, 3].map (unitText .dps) else []
  | .mPad => if n = "BANKS" then [0, 1, 2, 3].map (unitText .tmu) else []
  | .chan c => if ["FELT", "DRVCMP", "LOOPBK"].contains n then [feText (c / 8)] else []
  | .adc i => if n = "LOOPBK" then [unitText .adc i] else []
  | .aux i => if n = "LOOPBK" then [unitText .aux i] else []
  | .dps i => if n = "DPSNL" then [unitText .dps i] else []
  | .tmu i => if n = "TMUAGR" then [unitText .tmu i] else []
  | .item => []

/-- R88, R89, R91 | the report of one item -/
def reportItem (obs : List ItemObs) (n : String) : StItem :=
  match obs.find? (fun o => o.name == n) with
  | none => { name := n, v := .pass }
  | some o =>
    if neverItems.contains n then { name := n, v := if o.failed.isEmpty then .pass else .fail }
    else
      let units := (o.failed.flatMap (itemUnits n)).eraseDups
      let none8 := n = "LOOPBK" ∧ (List.finRange 8).all (fun i => o.failed.contains (.adc i))
      let shown := if none8 then units.filter (fun u => !untestable.contains u) else units
      { name := n, v := if units.isEmpty then .pass else .fail, units := shown, unt := if none8 then untestable else [] }

/-- R45, R80, R81, R88 | what a report means for the module: a failed SECSTORE bars keys until power is cycled, a failure that can never be
accepted sets the latch -/
def takeReport (s : State) (rep : List StItem) : State :=
  let bad := rep.filter (fun r => r.v = .fail)
  let never := bad.any (fun r => neverItems.contains r.name) && !s.md.latch
  { s with md := { s.md with report := rep, secFail := s.md.secFail || bad.any (fun r => r.name == "SECSTORE"),
                             latch := s.md.latch || never, latchCause := if never then "F-SELFTEST" else s.md.latchCause } }

/-- R586 | the report of a start that a fault ends in SELF-TEST: some items have run, the others are NOTRUN; which have run and what they
found is free (log 39) -/
def partReport (s : State) : State :=
  let (n, s) := draw s
  takeReport s ((testItems.take (Config.selfTestRun n % testItems.length)).map (reportItem (Config.selfTestObs n)))

/-- R586, R520 | a module-scope fault -/
def moduleFault (s : State) (cause : String) (latch : Bool) : State :=
  let early := { s with md := { s.md with early := s.md.early.orElse (fun _ => some cause), latch := s.md.latch || latch,
                                          latchCause := if latch && !s.md.latch then cause else s.md.latchCause } }
  match s.md.st with
  | .off | .inReset => s
  | .powerOn => if cause = "F-PWR" then early else s
  | .boot => early
  | .verify | .load => let s := openLines s; enterSafe s cause latch (startFields s)
  | .selfTest => let s := openLines (partReport s); enterSafe s cause latch (startFields s)
  | .degraded | .warming | .ready => enterSafe s cause latch []
  | .safe => if latch && !s.md.latch then { s with md := { s.md with latch := true, latchCause := cause } } else s

/-! ### Power input and reset (R62, R67, R80) -/

/-- R62, R67 | the input rises above 19.5 V -/
def execPowerInputRise (dt : Nat) (s : State) : Out :=
  let s := advance s dt
  if s.md.power then .next s
  else
    let s := restart { s with md := { s.md with oven := false } }
    .next (if s.md.resetLow then { s with md := { s.md with st := .inReset } } else s)

/-- R80 | POWER-ON to BOOT; the start counts -/
def execRailsInTolerance (dt : Nat) (s : State) : Out :=
  let s := advance s dt
  .next (if s.md.st = .powerOn then { s with md := { s.md with st := .boot }, nv := { s.nv with starts := min (s.nv.starts + 1) (2 ^ 32 - 1) } } else s)

/-- R83 | an image that the boot ROM or the firmware accepts -/
def accepted (s : State) (x : Image) : Bool := x.good && s.nv.arb ≤ x.rbi

/-- R83 | the slot that is started: the higher index, A when equal -/
def bootSlot (s : State) : Option (Bool × Image) :=
  match s.nv.fwA.filter (accepted s), s.nv.fwB.filter (accepted s) with
  | some a, some b => if a.rbi < b.rbi then some (true, b) else some (false, a)
  | some a, none => some (false, a)
  | none, some b => some (true, b)
  | none, none => none

/-- R217, R226, R241 | the source that the loop moves to when the firmware starts: INT under INT, the lane on a slave, a usable REF-IN
under EXT on the HQ-48/X -/
def startRef (s : State) : State :=
  let m := match s.nv.sel with
    | .int => if s.nv.variant = .o then some RefSrc.int else none
    | .chain => some .chain
    | .ext => if s.nv.variant = .x && s.rf.usable then some .ext else none
  { s with rf := { s.rf with moving := m } }

/-- R80, R83, R586 | BOOT ends in VERIFY, in SAFE after an early fault, or stays with F-BOOT -/
def execFirmwareSlotVerify (dt : Nat) (s : State) : Out :=
  let s := advance s dt
  if s.md.st = .boot ∧ !s.md.fboot then
    match bootSlot s with
    | none => .next { s with md := { s.md with fboot := true } }
    | some (b, fw) =>
      let s := startRef { s with md := { s.md with slotB := b, runFw := fw, runMc := s.nv.uc, st := .verify } }
      match s.md.early with
      | some f => .next (moduleFault s f (f = "F-PWR"))
      | none => .next s
  else .next s

/-- R106 | the line of F-BOOT, on CON only -/
def execFBootRepeat (dt : Nat) (s : State) : Out :=
  let s := advance s dt
  .next (if s.md.st = .boot ∧ s.md.fboot then sendLine { s with md := { s.md with txd := true } } 0 [w "!FAULT", w "F-BOOT"] else s)

/-- R84, R307 | the microcode and every patch verify, each patch made for this microcode and all records in the vendor region -/
def imagesOk (s : State) : Bool :=
  accepted s s.nv.uc && s.nv.uc.recsOk && s.nv.patches.all (fun e => accepted s e.2 && e.2.ver = s.nv.uc.ver && e.2.recsOk)

/-- R84, R307 | the images verify, or F-VERIFY -/
def execVerifyComplete (dt : Nat) (s : State) : Out :=
  let s := advance s dt
  if s.md.st = .verify then
    if imagesOk s then .next { s with md := { s.md with st := .load } }
    else .next (moduleFault s "F-VERIFY" true)
  else .next s

/-- R85 | the patch level: the highest sequence number applied -/
def patchLevel (s : State) : Nat := (s.nv.patches.map (fun e => e.2.seq)).foldl max 0

/-- R80, R85, R86 | the control stores are written with the patched vendor image and read back; the retention copy is kept -/
def execLoadComplete (dt : Nat) (good : Bool) (s : State) : Out :=
  let s := advance s dt
  if s.md.st = .load then
    let s := writeVendor { s with md := { s.md with pl := patchLevel s } }
    if good then .next (banksUp (keepVendor { s with md := { s.md with st := .selfTest } })) else .next (moduleFault s "F-MCHK" true)
  else .next s

/-! ### The end of SELF-TEST -/

/-- R226 | EXT on an HQ-48/O at the end of SELF-TEST: REF-IN when usable, else INT -/
def endRef (s : State) : State :=
  if s.nv.variant = .o ∧ s.nv.sel = .ext ∧ s.rf.lock = .unlocked then
    { s with rf := { s.rf with moving := some (if s.rf.usable then .ext else .int), loss := !s.rf.usable } }
  else s

/-- R80, R88 | the end of SELF-TEST -/
def execSelfTestComplete (dt : Nat) (obs : List ItemObs) (s : State) : Out :=
  let s := advance s dt
  if s.md.st = .selfTest then
    let s := openLines (endRef (takeReport s (testItems.map (reportItem obs))))
    if s.md.latch then .next (enterSafe s s.md.latchCause true (startFields s))
    else if s.md.report.all (fun r => r.v = .pass) then .next (enterUp s startFields)
    else
      let s := { s with md := { s.md with st := .degraded, cause := "F-SELFTEST" } }
      .next (evtRaise (sendAll s ([w "!FAULT", w "STATE", w "DEGRADED-PENDING", w "F-SELFTEST"] ++ startFields s)) .modl .fault)
  else .next s

/-- R180 | a start slot has been read and validated -/
def execSlotRestoreComplete (dt : Nat) (d : Fin 8) (s : State) : Out :=
  let s := advance s dt
  .next (match s.md.st with | .warming | .ready => endRestore s d | _ => s)

/-- R21 -/
def execOwnerClearWindowEnd (dt : Nat) (s : State) : Out :=
  let s := advance s dt
  .next (match s.md.endT with
    | some t => if t + 30 * Config.sec ≤ s.wall then { s with md := { s.md with clearWin := false } } else s
    | none => s)

/-- R62, R70, R81 | a power loss: safe-state actions, sessions end, the SAFE latch clears -/
def execPowerLoss (dt : Nat) (s : State) : Out :=
  let s := advance s dt
  if s.md.power then
    let s := goDark s
    .next { s with md := { s.md with st := .off, power := false, holdUp := some s.wall, latch := false, latchCause := "", secFail := false, oven := false } }
  else .next s

/-- R68 | the hold-up ends: the 100 ohm discharge gives way to the permanent 10 kohm -/
def execHoldUpEnd (dt : Nat) (s : State) : Out :=
  let s := advance s dt
  .next (match s.md.holdUp with
    | some t =>
      if !s.md.power ∧ t + 2 * Config.ms ≤ s.wall then
        { s with md := { s.md with holdUp := none }, dps := [0, 1, 2, 3].map (fun n => (n, { getDps s n with dis100 := false })) }
      else s
    | none => s)

/-- R67 | RESET-N low for 1 us -/
def execResetNLow (dt : Nat) (s : State) : Out :=
  let s := advance s dt
  let s := { s with md := { s.md with resetLow := true } }
  if s.md.power ∧ s.md.st ≠ .inReset then
    let s := goDark s
    .next { s with md := { s.md with st := .inReset } }
  else .next s

/-- R67 | RESET-N high: the module restarts -/
def execResetNHigh (dt : Nat) (s : State) : Out :=
  let s := advance s dt
  let was := s.md.st
  let s := { s with md := { s.md with resetLow := false } }
  .next (if was = .inReset then restart s else s)

/-! ### Module-scope faults and notes (R520, R521, R570) -/

/-- R74 -/
def execFPwr (dt : Nat) (s : State) : Out := .next (moduleFault (advance s dt) "F-PWR" true)
/-- R520 -/
def execFHot (dt : Nat) (s : State) : Out := .next (moduleFault (advance s dt) "F-HOT" false)
/-- R520 -/
def execFSupply (dt : Nat) (s : State) : Out := .next (moduleFault (advance s dt) "F-SUPPLY" false)

/-- R521, R570 | owner notes are made once the lines are open -/
def ownerNote (s : State) (t : Line) : State := if linesOpen s then ownerEvent s .note t else s

/-- R521 | once per excursion: the event is the temperature reaching its threshold -/
def execCoreWarm (dt : Nat) (s : State) : Out :=
  let s := advance s dt
  .next (ownerNote s [w "CORE-WARM"])
/-- R521 -/
def execSupplyRailCore (dt : Nat) (s : State) : Out :=
  let s := advance s dt
  .next (ownerNote s [w "SUPPLY", kw "RAIL" "CORE"])
/-- R570 -/
def execSupplyRailInput (dt : Nat) (mv : Nat) (s : State) : Out :=
  let s := advance s dt
  .next (if 19800 ≤ mv ∧ mv ≤ 28200 then s else ownerNote s [w "SUPPLY", kw "RAIL" "INPUT", kv "V" [.fx mv 3]])
/-- R571 | the input limiter acts; the rails fall and F-SUPPLY follows -/
def execInputCurrentLimit (dt : Nat) (s : State) : Out := .next (moduleFault (advance s dt) "F-SUPPLY" false)

/-! ### WARM (R222, R223) -/

/-- R222, R223 | the oven reaches its 10 ppb point; WARM sets when the loop is locked -/
def execWarmSet (dt : Nat) (s : State) : Out :=
  let s := advance s dt
  if s.nv.variant = .o ∧ s.md.power then
    let s := { s with md := { s.md with oven := true } }
    .next (if s.rf.lock = .locked ∧ s.rf.active = some .int then setWarm s true else s)
  else .next s

/-- R104, R223 | the measured 10 ppb point is lost while INT is in use: WARM clears -/
def execWarmLost (dt : Nat) (s : State) : Out :=
  let s := advance s dt
  if s.nv.variant = .o then
    let s := { s with md := { s.md with oven := false } }
    .next (if s.rf.lock = .locked ∧ s.rf.active = some .int then setWarm s false else s)
  else .next s

/-! ### ACCEPT DEGRADED, KEEPER-LOAD -/

/-- R99 | a unit is withdrawn -/
def withdraw (s : State) (u : String) : State :=
  let hit := fun (k : UKind) (n : Nat) => unitText k n == u
  let idx := fun (k : UKind) => (List.range (k.max + 1)).filter (hit k)
  let fes := (List.range 6).filter (fun n => feText n == u)
  let s := forEach fes s (fun s n => modFe s n (fun f => { f with wd := true }))
  let s := forEach (idx .v) s (fun s n => modBk s n (fun b => { b with wd := true, pow := .off }))
  let s := forEach (idx .dps) s (fun s n => modDps s n (fun x => { dpsOff true x with wd := true }))
  let s := forEach (idx .aux) s (fun s n => modAux s n (fun x => { auxOff x with wd := true }))
  let s := forEach (idx .adc) s (fun s n => modAdc s n (fun x => { x with wd := true }))
  forEach (idx .tmu) s (fun s n => modTmu s n (fun x => { x with wd := true }))

/-- R97 | the failed units, each once and no other -/
def namesExactly (l failed : List String) : Bool :=
  l.length = failed.length && l.all (fun u => failed.contains u) && failed.all (fun u => l.contains u)

/-- R80, R96, R97 | the state line follows the reply -/
def execAcceptDegraded (h : Hdr) (units : List String) (s : State) : Out :=
  match noram s (.acceptDegraded h units) { word := "ACCEPT", roles := [.o] } h (fun s => do
      need (s.md.st = .degraded) e421
      need (namesExactly units (failedUnits s)) (e422 (nameList (failedUnits s)))
      let s := units.foldl withdraw s
      ok { s with md := { s.md with withdrawn := units } } ([w "OK", w "ACCEPT", w "DEGRADED"] ++ units.map w)) with
  | .next s => .next (if s.md.st = .degraded ∧ !s.md.withdrawn.isEmpty then enterUp s (fun _ => []) else s)
  | r => r

/-- R73 | the owner and every tenant of a deckle whose outputs are live or armed -/
def execKeeperLoad (dt : Nat) (s : State) : Out :=
  let s := advance s dt
  if s.md.keeper then
    let s1 := ownerEvent s .note [w "KEEPER-LOAD"]
    .next (deckles.foldl (fun a d => if liveOut s d then queueEv a d false .note [w "!NOTE", w "KEEPER-LOAD"] else a) s1)
  else .next s

end Sys2Proof.Machine
end

