-- ==== Sys2Proof/Machine/Sequencer.lean ====
section
/-! DEFINITION. The sequencer: headbox, decision points, quire boundaries, the stock ops, drains of results, FAIL-OUT and
TRIG-OUT. -/

namespace Sys2Proof.Machine

/-! ### Waits of the thread (R268, R272, R290, R291) -/

/-- R268, R285 C11 | the results of quire q - 3 are in, where q is the next quire to be dispatched -/
def resultsIn (q : Seq) : Bool := q.nextD ≤ q.resUp + 2

/-- R271, R285 C4 | QFAIL: quire q - 3 produced a recorded fail -/
def qfailOf (q : Seq) : Bool := 3 ≤ q.nextD && tget q.qf (q.nextD - 3) false

/-- R290, R291 | a wait begins -/
def beginWait (s : State) (d : Nat) (x : Wait) : State :=
  modThr s d (fun t => if t.wait.isSome then { t with wait := some x } else { t with wait := some x, waitT := now s })

/-- R549 | a wait ends, its ticks counted -/
def endWait (s : State) (d : Nat) : State :=
  let t := (getDk s d).thr
  if t.wait.isSome then incr (modThr s d (fun t => { t with wait := none, waited := t.cust })) d 10 (now s - t.waitT) else s

/-- R160, R283, R303, R304, R326 | the thread of a deckle may take a step: it executes, up to the boundary of a stop, and no vendor region
is being reloaded -/
def threadOk (s : State) (k : Deckle) : Bool :=
  k.thr.active && !s.md.reload && (k.arming.isSome || k.st = .armed || k.st = .running)

/-! ### The headbox (R206, R253, R267, R413) -/

/-- R206, R267 | the lead limit in effect -/
def leadLimit (q : Seq) : Nat := if q.lim2 then 2 else 12

/-- R263, R269, R273 | what stays of a dispatch when the headbox has taken its next quire -/
def DItem.rest (x : DItem) : Option DItem :=
  if x.left ≤ 1 then none
  else some { x with pa := if x.same then x.pa else x.pa + 1, left := x.left - 1, seg := false, pos := min 65535 (x.pos + 1), marks := [],
                     learn := x.learn.map (fun l => (l.1, l.2.1 + 1, l.2.2)) }

/-- R413, R524 | the owner's note of a double-bit error -/
def bankNote (s : State) (b : Nat) : State := ownerEvent s .note [w "F-BANK", kv "BANK" (unitName .v b)]

/-- R206 | the headbox writes the next quire of the dispatch register, whole, when the lead allows -/
def execHeadboxQuireWrite (dt : Nat) (d : Fin 8) (s : State) : Out :=
  let s := advance s dt
  let d : Nat := d
  let k := getDk s d
  match k.seq.dreg with
  | none => .next s
  | some x =>
    if leadLimit k.seq ≤ lead k.seq (now s) ∨ k.seq.bad.isSome ∨ !k.seq.stops.isEmpty ∨ !(k.arming.isSome || k.st = .armed || k.st = .running) then .next s
    else match bankErr s (quireAddr k.act k.width x.pa) (4 * k.width) with
      | some (b, _) => .next (bankNote (modSeq s d (fun q => { q with bad := some b })) b)
      | none =>
        let q : FQ := { pa := x.pa, q := k.seq.nextD - x.left, seg := x.pos, sheets := readQuire s k.act k.width x.pa, marks := x.marks,
                        tsel := x.tsel, learn := x.learn, rep := x.rep, ffofs := x.ffofs }
        let s := modSeq s d (fun z => { z with felts := z.felts ++ [q], dreg := x.rest })
        .next (match k.thr.wait with
          | some .dreg => if x.rest.isNone then endWait s d else s
          | some (.read _ _) => endWait s d
          | _ => s)

/-! ### Drains (R381, R382, R385) -/

/-- R379, R297 | the 64 bytes of a broke record; a user record carries MDR in bytes 24 to 27 -/
def BrokeRec.bytes (r : BrokeRec) : List (BitVec 8) :=
  leBytes 8 r.tb ++ leBytes 2 r.fine ++ leBytes 1 r.kind ++ leBytes 1 r.flags ++ leBytes 1 r.ts ++ leBytes 1 r.sheet ++ leBytes 2 0 ++
    leBytes 6 r.rqn ++ leBytes 2 r.seg ++ leBytes 6 r.fail ++ leBytes 2 0 ++ leBytes 6 r.hi ++ leBytes 2 0 ++ leBytes 6 r.lo ++ leBytes 2 0 ++
    leBytes 8 r.index ++ leBytes 8 0

/-- R384, R297 | the 32 bytes of a capture entry -/
def CapRec.bytes (r : CapRec) : List (BitVec 8) :=
  leBytes 6 r.rqn ++ leBytes 1 r.sheet ++ leBytes 1 r.flags ++ leBytes 6 r.cap ++ leBytes 2 0 ++ leBytes 6 r.hi ++ leBytes 2 0 ++ leBytes 6 r.lo ++
    leBytes 2 0

/-- Bytes written into a bank at an offset, its check bits with them. -/
def putBank (s : State) (b o : Nat) (bytes : List (BitVec 8)) : State :=
  modBk { s with vat := mput s.vat (bankBase b + o) bytes } b (fun x =>
    { x with dbe := x.dbe.filter (fun v => !(o / 16 ≤ v && v ≤ (o + bytes.length - 1) / 16)) })

/-- R382 | the oldest broke record leaves the queue for the bank -/
def drainBroke (s : State) (d : Nat) : State :=
  let k := getDk s d
  match k.res.bq, k.act.bbank with
  | r :: rest, some b =>
    let s := modRes (wakeBank s b) d (fun x => { x with bq := rest })
    let full := fun s => if k.res.bfull then s else
      event (modRes s d (fun x => { x with bfull := true })) d .limit [w "BROKE-FULL", kn "INDEX" r.index]
    match k.act.bmode with
    | .first =>
      if 16384 ≤ k.res.bpos then s
      else
        let last : Bool := k.res.bpos = 16383
        let s := putBank s b (64 * k.res.bpos) (if last then { r with kind := 0xE } else r).bytes
        let s := modRes s d (fun x => { x with bpos := x.bpos + 1, brec := x.brec + 1 })
        if last then full s else s
    | .last =>
      let wrap : Bool := 16384 ≤ k.res.bpos
      let slot := if wrap then 1 else k.res.bpos
      let s := putBank s b (64 * slot) r.bytes
      let s := modRes s d (fun x => { x with bpos := slot + 1, brec := x.brec + 1 })
      if wrap then full s else s
  | _, _ => s

/-- R385 | the oldest capture entry leaves the queue for the bank -/
def drainCapture (s : State) (d : Nat) : State :=
  let k := getDk s d
  match k.res.cq, k.act.cbank with
  | r :: rest, some b =>
    let s := modRes (wakeBank s b) d (fun x => { x with cq := rest })
    let full := fun s => if k.res.cfull then s else event (modRes s d (fun x => { x with cfull := true })) d .limit [w "CAPTURE-FULL"]
    match k.act.cmode with
    | .first =>
      if 32768 ≤ k.res.cpos then s
      else
        let s := putBank s b (32 * k.res.cpos) r.bytes
        let s := modRes s d (fun x => { x with cpos := x.cpos + 1, crec := x.crec + 1 })
        if k.res.cpos = 32767 then full s else s
    | .last =>
      let wrap : Bool := 32768 ≤ k.res.cpos
      let slot := if wrap then 0 else k.res.cpos
      let s := putBank s b (32 * slot) r.bytes
      let s := modRes s d (fun x => { x with cpos := slot + 1, crec := x.crec + 1 })
      if wrap then full s else s
  | _, _ => s

/-- R381, R391 | the broke queue of a deckle that stops for STOPAT drains, so that a full log is told before the stop -/
def fillLog (s : State) (d : Nat) : State :=
  if (getDk s d).seq.stops.contains .brokeStop then (getDk s d).res.bq.foldl (fun s _ => drainBroke s d) s else s

/-! ### Decision points and boundaries (R158, R207, R214, R233) -/

/-- R233 | a scheduled STOP or STOP OFF of whose tick the quire that is decided would begin at or after -/
def stopPending (k : Deckle) : Bool := k.ats.any (fun a => (a.act = .stop || a.act = .stopOff) && a.t * 1024 ≤ k.seq.start)

/-- R184 | the furnish of the quire that is decided: the validated shadow from the press boundary on -/
def furnishFor (k : Deckle) (q : FQ) : Furnish :=
  match k.press with
  | some (t, f) => if q.seg = 0 ∧ t * 1024 ≤ k.seq.start then f else k.act
  | none => k.act

/-- R184, R361, R365 | the level queues take a press with the decision on its boundary quire, under the tick of the boundary -/
def pressAhead (s : State) (d : Nat) (q : FQ) : State :=
  let k := getDk s d
  match k.press with
  | some (t, f) =>
    if q.seg = 0 ∧ t * 1024 ≤ k.seq.start then
      forEach k.grant.ch s (fun s c => modPin s c (queueLevel (k.seq.start / 1024) (tget k.act.lev c {}) (tget f.lev c {})))
    else s
  | none => s

/-- R277 | the program has ended and its last quire has been placed -/
def haltDone (q : Seq) : Bool := q.halting && q.felts.isEmpty && q.dreg.isNone

/-- R206, R207, R214 | the decision on the next quire, 16 ticks before its first sheet: placed whole, or the deckle starves -/
def execQuireDecision (dt : Nat) (d : Fin 8) (obs : List PinObs) (s : State) : Out :=
  let s := pressDue (advance s dt) d
  let d : Nat := d
  let k := getDk s d
  if k.st ≠ .running ∨ !s.rf.run ∨ now s * 1024 + 16384 < k.seq.start ∨ !k.seq.stops.isEmpty ∨ stopPending k ∨ haltDone k.seq then .next s
  else match k.seq.felts with
    | q :: _ =>
      let s := if s.ph.fo = some d then applyFailOut s else s
      .next (placeQuire (pressAhead s d q) d (furnishFor k q) q obs)
    | [] => .next (match k.seq.bad with
      | some b => detect s d .bank [kv "BANK" (unitName .v b)]
      | none => detect s d .felt [w "FELT-STARVED"])

/-- R158, R277, R518 | the boundary of a stop, the end of a program or a fault -/
def execQuireBoundaryStop (dt : Nat) (d : Fin 8) (s : State) : Out :=
  let s := advance s dt
  let d : Nat := d
  let k := getDk s d
  if k.st = .running ∧ k.seq.start ≤ now s * 1024 ∧ (!k.seq.stops.isEmpty ∨ haltDone k.seq) then
    .next (endPlays (stopDeckle (fillLog (pressDue s d) d) d) d)
  else .next s

/-! ### Dispatch (R259, R260, R263, R274 to R276, R295) -/

/-- R425 | run-time feed-forward offsets act from the next dispatched quire -/
def takeFfofs (s : State) (d : Nat) : State :=
  forEach (getDk s d).grant.dps s (fun s n => modDps s n (fun x => match x.ffNext with | some v => { x with ffofs := v, ffNext := none } | none => x))

/-- A dispatch of n quires from a pattern address on, or n times the same one. -/
def dispatch (s : State) (d pa n : Nat) (same cont : Bool) (rep : Option Nat) : State :=
  let s := takeFfofs s d
  let k := getDk s d
  let q := k.seq
  let pos := if cont then q.segpos else 0
  let item : DItem :=
    { pa := pa, left := n, same := same, seg := !cont, pos := pos, marks := q.marks, tsel := q.tsel, rep := rep,
      learn := k.thr.learn.map (fun l => (l.mask, l.pos, l.len)), ffofs := k.grant.dps.map (fun i => (i, (getDps s i).ffofs)) }
  let s := modSeq s d (fun q => { q with dreg := some item, nextD := q.nextD + n, segpos := min 65535 (pos + n), segOn := q.segOn || !cont,
                                         marks := [], lim2 := rep.isSome })
  let s := modThr s d (fun t => { t with learn := t.learn.map (fun l => { l with pos := l.pos + n }) })
  traceDisp s d pa n (q.nextD % 2 ^ 48) cont

/-! ### Stock ops (R262 to R277, R284, R301, R543) -/

/-- R284, R312 | vendor scratch registers hold no stated value after a stock op and when a custom op begins, nor does the interpreter state
in G15: free values (log 5) -/
def scratch (s : State) (d : Nat) : State :=
  [8, 9, 10, 15].foldl (fun s r =>
    let (n, s) := draw s
    modThr s d (fun t => { t with g := tset t.g r ((Config.value n).setWidth 32) })) s

/-- R264, R276 | the interpreter goes on at an op: the op loop depth there, along the call chain, and the learn loops that the thread has
left are over -/
def goOp (s : State) (d next : Nat) : State :=
  let k := getDk s d
  let e := depthAt (loopPairs (program s k.act)) (next, k.thr.os.map (fun r => r.1))
  modThr s d (fun t => { t with ip := next, depth := e, learn := t.learn.filter (fun l => l.depth < e) })

/-- A stock op has executed: its steps, its trace packet, scratch registers, and the op that follows. -/
def opEnd (s : State) (d code steps next : Nat) : State :=
  let s := traceRoutine (stepsRun s d steps) d (0x100 + code) (getDk s d).thr.ip steps
  scratch (modThr (goOp s d next) d (fun t => { t with lmask := if code = 0x31 then t.lmask else 0 })) d

/-- R261, R413 | the op that the thread takes next; a double-bit error halts the thread -/
def fetchOp (s : State) (d : Nat) : State × Option Op :=
  let k := getDk s d
  match k.act.prog with
  | none => (s, none)
  | some b =>
    if k.act.nops ≤ k.thr.ip then (s, none)
    else match bankErr s (opAddr b k.thr.ip) 8 with
      | some (v, _) => (detect (bankNote s v) d .bank [kv "BANK" (unitName .v v)], none)
      | none => (s, some (readOp s k.act k.thr.ip))

/-- An event of a stock op: its body runs when the thread stands at such an op and may take a step. -/
def stockOp (dt : Nat) (d : Fin 8) (s : State) (isOp : Nat → Bool) (body : State → Deckle → Op → State) : Out :=
  let s := advance s dt
  let k := getDk s d
  if !threadOk s k || k.thr.cust then .next s
  else match fetchOp s d with
    | (s, none) => .next s
    | (s, some o) => .next (if isOp o.code then body s k o else s)

/-- R262 -/
def execOpNop (dt : Nat) (d : Fin 8) (s : State) : Out :=
  stockOp dt d s (fun c => c = 0x00) (fun s k _ => opEnd s d 0x00 1 (k.thr.ip + 1))

/-- R277 | nothing further is dispatched -/
def execOpHalt (dt : Nat) (d : Fin 8) (s : State) : Out :=
  stockOp dt d s (fun c => c = 0x01) (fun s k _ =>
    modDk (opEnd s d 0x01 1 (k.thr.ip + 1)) d (fun k => { k with thr := { k.thr with active := false }, seq := { k.seq with halting := true } }))

/-- R259, R262, R263 -/
def execOpRun (dt : Nat) (d : Fin 8) (s : State) : Out :=
  stockOp dt d s (fun c => c = 0x10) (fun s k o =>
    if k.seq.dreg.isSome then beginWait s d .dreg
    else
      let s := incr (endWait s d) d 11
      opEnd (dispatch s d o.a (o.b % 2 ^ 16 + 1) false (o.flag % 2 = 1) none) d 0x10 1 (k.thr.ip + 1))

/-- R269 | a repetition of MATCH is dispatched -/
def matchRep (s : State) (d pa : Nat) (m : MatchSt) : State :=
  let s := dispatch s d pa 1 true true (some m.reps)
  let s := modThr s d (fun t => { t with mt := some { m with reps := m.reps + 1 } })
  opEnd (incr s d 12) d 0x11 2 (getDk s d).thr.ip

/-- R267, R269, R270 | one decision of MATCH: a repetition, its exit, or a wait -/
def execOpMatch (dt : Nat) (d : Fin 8) (s : State) : Out :=
  stockOp dt d s (fun c => c = 0x11) (fun s k o =>
    match k.thr.mt with
    | none =>
      let s := modSeq s d (fun q => { q with lim2 := true })
      if k.seq.dreg.isSome then beginWait s d .dreg
      else
        let s := modSeq (incr (endWait s d) d 11) d (fun q => { q with matched := none })
        matchRep s d o.a { first := k.seq.nextD, reps := 0 }
    | some m =>
      if k.seq.dreg.isSome then beginWait s d .dreg
      else if m.reps < 3 then matchRep (endWait s d) d o.a m
      else if !resultsIn k.seq then beginWait s d .mat
      else if k.seq.matched.any (fun j => j + 3 ≤ k.seq.nextD) then
        modThr (goOp (endWait s d) d (k.thr.ip + 1)) d (fun t => { t with mt := none })
      else matchRep (endWait s d) d o.a m)

/-- R273 | how often WAITT dispatches its fill quire -/
def waittReps (o : Op) (len : Nat) : Nat :=
  let dur := o.b * (if o.flag % 2 = 1 then 1280000000 else 1280000)
  (dur + len - 1) / len

/-- R273 -/
def execOpWaitt (dt : Nat) (d : Fin 8) (s : State) : Out :=
  stockOp dt d s (fun c => c = 0x12) (fun s k o =>
    if k.seq.dreg.isSome then beginWait s d .dreg
    else
      let s := incr (endWait s d) d 11
      let len := quireLen k.act k.seq.tsel (readQuire s k.act k.width o.a)
      opEnd (dispatch s d o.a (waittReps o len) true true none) d 0x12 2 (k.thr.ip + 1))

/-- R276 | what a LEARN just before makes of the loop that begins: a learn loop inside those in progress -/
def learnLoop (s : State) (d : Nat) (k : Deckle) : List LearnLoop :=
  if k.thr.lmask = 0 then k.thr.learn
  else { mask := k.thr.lmask, depth := k.thr.depth, len := (learnQuires (progOf s d k.grant k.act) k.act (k.thr.ip - 1)).getD 0 } :: k.thr.learn

/-- R264, R276 -/
def execOpLoop (dt : Nat) (d : Fin 8) (s : State) : Out :=
  stockOp dt d s (fun c => c = 0x20) (fun s k o =>
    if 4 ≤ k.thr.depth then s
    else
      let l := learnLoop s d k
      let s := modThr s d (fun t => { t with lc := tset t.lc t.depth o.b, learn := l })
      opEnd s d 0x20 1 (k.thr.ip + 1))

/-- R260, R276 | the next iteration of the learn loop, if any, of a depth begins -/
def learnTurn (l : List LearnLoop) (depth : Nat) : List LearnLoop := l.map (fun x => if x.depth = depth then { x with pos := 0 } else x)

/-- R264 -/
def execOpEndl (dt : Nat) (d : Fin 8) (s : State) : Out :=
  stockOp dt d s (fun c => c = 0x21) (fun s k o =>
    if k.thr.depth = 0 then s
    else
      let i := k.thr.depth - 1
      let c := tget k.thr.lc i 0
      let again : Bool := c ≠ 0
      let s := modThr s d (fun t => { t with lc := tset t.lc i (c - 1), learn := learnTurn t.learn i })
      opEnd s d 0x21 1 (if again then o.b % 2 ^ 17 else k.thr.ip + 1))

/-- R265 -/
def execOpJump (dt : Nat) (d : Fin 8) (s : State) : Out :=
  stockOp dt d s (fun c => c = 0x22) (fun s _ o => opEnd s d 0x22 1 (o.b % 2 ^ 17))

/-- R265, R266, R549 -/
def execOpCall (dt : Nat) (d : Fin 8) (s : State) : Out :=
  stockOp dt d s (fun c => c = 0x23) (fun s k o =>
    if 16 ≤ k.thr.os.length then s
    else
      let s := modThr s d (fun t => { t with os := (t.ip + 1, t.depth) :: t.os })
      opEnd (modDk s d (fun k => cntMax k 15 k.thr.os.length)) d 0x23 2 (o.b % 2 ^ 17))

/-- R265 -/
def execOpRet (dt : Nat) (d : Fin 8) (s : State) : Out :=
  stockOp dt d s (fun c => c = 0x24) (fun s k _ =>
    match k.thr.os with
    | (r, _) :: l => opEnd (modThr s d (fun t => { t with os := l })) d 0x24 2 r
    | [] => s)

/-- R267, R271, R272 -/
def execOpBrfail (dt : Nat) (d : Fin 8) (s : State) : Out :=
  stockOp dt d s (fun c => c = 0x25) (fun s k o =>
    let s := modSeq s d (fun q => { q with lim2 := true })
    if !resultsIn k.seq then beginWait s d .brfail
    else
      let bit := if o.flag / 2 % 2 = 1 then k.seq.sfail else qfailOf k.seq
      let taken := bit != (o.flag % 2 = 1)
      let s := if o.flag / 4 % 2 = 1 then modSeq s d (fun q => { q with sfail := false }) else s
      opEnd (endWait s d) d 0x25 2 (if taken then o.b % 2 ^ 17 else k.thr.ip + 1))

/-- R274 | a mark is armed for a sheet of the next dispatched quire -/
def armMark (q : Seq) (m i : Nat) : Seq := { q with marks := if q.marks.contains (m, i) then q.marks else q.marks ++ [(m, i)] }

/-- R274 -/
def execOpMark (dt : Nat) (d : Fin 8) (s : State) : Out :=
  stockOp dt d s (fun c => c = 0x30) (fun s k o =>
    opEnd (modSeq s d (fun q => armMark q (o.flag % 8) (o.b % 32))) d 0x30 1 (k.thr.ip + 1))

/-- R276 -/
def execOpLearn (dt : Nat) (d : Fin 8) (s : State) : Out :=
  stockOp dt d s (fun c => c = 0x31) (fun s k o =>
    opEnd (modThr s d (fun t => { t with lmask := o.b % 16 })) d 0x31 1 (k.thr.ip + 1))

/-- R275 -/
def execOpTsel (dt : Nat) (d : Fin 8) (s : State) : Out :=
  stockOp dt d s (fun c => c = 0x32) (fun s k o =>
    opEnd (modSeq s d (fun q => { q with tsel := o.b % 32 })) d 0x32 1 (k.thr.ip + 1))

/-- R303 | a machine check whose cause lies in vendor code: the line names the routine -/
def vendorCause (s : State) (d : Nat) (cause : String) (id : Nat) : State :=
  detect (modDk s d (fun k => { k with mchk := true })) d .mchk [kw "CAUSE" cause, kv "ROUTINE" [.hx id 4]]

/-- R293, R299, R300, R312, R543, R549 | a custom op is dispatched: operands loaded, the vendor entry pushed, customer code entered -/
def execOpCustom (dt : Nat) (d : Fin 8) (s : State) : Out :=
  stockOp dt d s (fun c => 0xE0 ≤ c) (fun s k o =>
    let e := tget k.act.ctab (o.code - 0xE0) 0
    if e / 2 ^ 31 % 2 = 0 then vendorCause s d "UNDEF" 0x200
    else
      let s := scratch (traceRoutine (stepsRun s d 2) d 0x200 k.thr.ip 2) d
      let s := modThr s d (fun t =>
        { t with g := tset (tset (tset (tset t.g 11 (BitVec.ofNat 32 o.flag)) 12 (BitVec.ofNat 32 o.b)) 13 (BitVec.ofNat 32 o.a)) 14
                        (BitVec.ofNat 32 (t.ip + 1)),
                 u0 := o.flag % 2 = 1, u1 := o.flag / 2 % 2 = 1, ms := [{ addr := 0, vendor := true }], upc := sliceU d + e % 1024,
                 cust := true, lmask := 0 })
      modDk s d (fun k => cntMax k 14 k.thr.ms.length))

/-- R268, R272, R290 | a wait for results ends when those of quire q - 3 are in -/
def execResultWaitRelease (dt : Nat) (d : Fin 8) (s : State) : Out :=
  let s := advance s dt
  let k := getDk s d
  .next (match k.thr.wait with
    | some .brfail | some .mat | some .result => if threadOk s k && resultsIn k.seq then endWait s d else s
    | _ => s)

/-! ### The rows of the drains (R381, R385) -/

/-- R381, R385 | one record or entry drains into its bank -/
def execBrokeDrain (dt : Nat) (d : Fin 8) (cap : Bool) (s : State) : Out :=
  let s := advance s dt
  .next (if cap then drainCapture s d else drainBroke s d)

/-! ### FAIL-OUT and TRIG-OUT (R388, R389, R531) -/

/-- R388 -/
def execFailOutFall (dt : Nat) (s : State) : Out :=
  let s := advance s dt
  .next { s with ph := { s.ph with foUp := pulsesLeft 16384 (now s * 1024 + 1023) s.ph.foUp } }

/-- R389 | a waiting mapping takes effect: at a quire boundary of the deckle that was mapped, or at once when it does not run -/
def execFailOutRemapApply (dt : Nat) (s : State) : Out :=
  let s := advance s dt
  .next (match s.ph.fo with
    | none => applyFailOut s
    | some d =>
      let k := getDk s d
      if k.st ≠ .running ∨ k.seq.curStart / 1024 = now s ∨ (k.seq.curStart + 1023) / 1024 = now s then applyFailOut s else s)

/-- R531 -/
def execTrigOutFall (dt : Nat) (n : Fin 4) (s : State) : Out :=
  let s := advance s dt
  .next { s with ph := { s.ph with toUp := lineLeft 16384 (now s * 1024 + 1023) s.ph.toUp n } }

end Sys2Proof.Machine
end

