-- ==== Sys2Proof/Machine/Micro.lean ====
section
/-! DEFINITION. The microengine: what a step of a deckle thread does. Condition flags, sources, fences at run time, waits, the
ALU part, port actions, next addresses, trace packets, machine checks, and the instrument registers open to microcode. -/

namespace Sys2Proof.Machine

/-! ### Flags and sources (R285, R294) -/

/-- R282 | register Gr of a thread -/
def Thread.reg (t : Thread) (r : Nat) : BitVec 32 := tget t.g r 0

/-- R282 | loop counter LCk of a thread -/
def Thread.ctr (t : Thread) (k : Nat) : Nat := tget t.lc k 0

/-- R285 | condition flag Cc of a deckle's thread -/
def condFlag (s : State) (k : Deckle) (c : Nat) : Bool :=
  match c with
  | 0 => k.thr.z | 1 => k.thr.n | 2 => k.thr.c | 3 => k.thr.v
  | 4 => qfailOf k.seq
  | 5 => k.seq.sfail
  | 6 | 7 | 8 | 9 => k.thr.ctr (c - 6) = 0
  | 10 => k.seq.dreg.isNone
  | 11 => resultsIn k.seq
  | 12 => k.thr.qe
  | 13 => k.thr.tbc ≤ now s
  | 14 => k.thr.u0 | 15 => k.thr.u1
  | _ => false

/-- R294 | C15 to C0 as a number -/
def flagWord (s : State) (k : Deckle) : Nat := (List.range 16).foldl (fun m c => if condFlag s k c then m + 2 ^ c else m) 0

/-- R294 | the value of a source code; a reserved code has none -/
def source (s : State) (k : Deckle) (imm k16 code : Nat) : BitVec 32 :=
  if code ≤ 15 then k.thr.reg code
  else if code ≤ 19 then BitVec.ofNat 32 (k.thr.ctr (code - 16))
  else match code with
    | 20 => BitVec.ofNat 32 imm
    | 21 => k.thr.mdr
    | 22 => k.thr.qin
    | 23 => BitVec.ofNat 32 (now s)
    | 24 => BitVec.ofNat 32 k.seq.nextD
    | 25 => BitVec.ofNat 32 k.seq.segpos
    | 26 => BitVec.ofNat 32 (flagWord s k)
    | 27 => BitVec.ofNat 32 k16
    | _ => 0

/-! ### Machine checks (R302 to R304) -/

/-- R303, R326 | a machine check of a customer word: the line names the word and its nanoword; the thread of a deckle that STOP halts takes
no machine check any more (log 37) -/
def customerCheck (s : State) (d : Nat) (cause : String) (ua na : Nat) : State :=
  if (getDk s d).seq.stops.any isStop then modThr s d (fun t => { t with active := false })
  else detect (modDk s d (fun k => { k with mchk := true })) d .mchk [kw "CAUSE" cause, kv "UADDR" [.hx ua 4], kv "NADDR" [.hx na 3]]

/-- R193, R304 | a machine check in the vendor region: every thread halts, every deckle that is armed, runs or is stopped
becomes FAULTED, arming needs DECKLE REARM, and the reload begins or begins again -/
def vendorCheck (s : State) : State :=
  let s := { s with md := { s.md with reload := true } }
  forEach deckles s (fun s d =>
    let k := getDk s d
    if k.st.live || k.arming.isSome then detect (modDk s d (fun k => { k with rearm := true })) d .mchk [kw "REGION" "VENDOR"]
    else if k.st = .faulted then modDk s d (fun k => { k with rearm := true })
    else s)

/-! ### The ALU part (R285, R294) -/

/-- R294 | U0OP and U1OP, applied after UPD -/
def userFlag (o : Nat) (u z : Bool) : Bool :=
  match o with
  | 1 => true
  | 2 => false
  | 3 => z
  | _ => u

/-- R285, R294 | C0 to C3 from a result; a carry for which the spec states no value is free (log 5) -/
def setFlags (s : State) (d : Nat) (r : AluOut) : State :=
  let (c, s) := match r.c with
    | some c => (c, s)
    | none => let (n, s) := draw s; ((Config.value n).getLsbD 0, s)
  modThr s d (fun t => { t with z := r.val = 0, n := r.val.msb, c := c, v := r.v })

/-- R294 | a result written to a destination, and the value that it holds then. Where the port action has written MDR, or
LOOP mode the counter, in the same step, the value is free (log 5) -/
def writeDest (s : State) (d dsel : Nat) (v : BitVec 32) (mdrBusy : Bool) (lcBusy : Option Nat) : State × Option Nat :=
  if dsel < 16 then (modThr s d (fun t => { t with g := tset t.g dsel v }), some v.toNat)
  else if dsel < 20 then
    let (x, s) := if lcBusy = some (dsel - 16) then let (n, s) := draw s; ((Config.value n).toNat % 2 ^ 24, s) else (v.toNat % 2 ^ 24, s)
    (modThr s d (fun t => { t with lc := tset t.lc (dsel - 16) x }), some x)
  else if dsel = 21 then (modThr s d (fun t => { t with mar := v }), some v.toNat)
  else if dsel = 22 then
    let (x, s) := if mdrBusy then let (n, s) := draw s; ((Config.value n).setWidth 32, s) else (v, s)
    (modThr s d (fun t => { t with mdr := x }), some x.toNat)
  else (s, none)

/-- R294 | the ALU part of a step, with operands as they stood at its start; the value written, if any -/
def aluPart (s : State) (d : Nat) (op : AluOp) (a b : BitVec 32) (c : Bool) (f : AluF) (mdrBusy : Bool) (lcBusy : Option Nat) :
    State × Option Nat :=
  let r := alu op a b c
  let s := if f.upd && op != .nop then setFlags s d r else s
  let s := modThr s d (fun t => { t with u0 := userFlag f.u0op t.u0 t.z, u1 := userFlag f.u1op t.u1 t.z })
  if op.flagsOnly then (s, none) else writeDest s d f.dsel r.val mdrBusy lcBusy

/-! ### Instrument registers (R425, R464, R487, R515) -/

/-- R425 | TARGET: a binary32 value in volts, brought to the nearest limit; a NaN is ignored -/
def writeTarget (s : State) (d n v : Nat) : State :=
  let top := (getDps s n).cfg.vmax - 1 / 10
  let note := fun s => event s d .note [uTok .dps n, w "TARGET-LIMITED"]
  if f32Nan v then note s
  else
    let x : Rat := if f32Inf v then (if f32Neg v then -1 else top + 1) else f32Rat (f32In v)
    let y := max 0 (min x top)
    let s := if (getDk s d).st.live then modDps s n (fun p => { p with nextT := some y }) else s
    if x = y then s else note s

/-- R425 | FFOFS: the low 12 bits, from the next dispatched quire on -/
def writeFfofs (s : State) (n v : Nat) : State := modDps s n (fun p => { p with ffNext := some (v % 4096) })

/-- R454, R464 | PLAY as a command of START=CMD, at the first sample tick at least 16 ticks ahead -/
def writePlay (s : State) (d n : Nat) : State :=
  let k := getDk s d
  if k.st.live && (getAux s n).st != .off && (tget k.act.aux n {}).start = .cmd then
    if pressList s d n then { s with jobs := s.jobs ++ [{ kind := .play d n none }] }
    else auxStartAt s n (ceilTo (now s + 16) 4)
  else s

/-- R457, R464 | HALT, at the first sample tick at least 16 ticks ahead -/
def writeAuxHalt (s : State) (d n : Nat) : State := if (getDk s d).st.live then auxHaltAt s n (ceilTo (now s + 16) 4) else s

/-- R475, R478, R487 | START of a converter, while the deckle runs -/
def writeAdcStart (s : State) (d n : Nat) : State :=
  let k := getDk s d
  if k.st != .running then s
  else if (tget k.act.adc n {}).trig = .cmd then adcStartAt s n (now s + 16)
  else modAdc s n (fun a => { a with missed := a.missed + 1 })

/-- R495, R515 | START of a TMU, while the deckle runs -/
def writeTmuStart (s : State) (d n : Nat) : State :=
  let k := getDk s d
  if k.st != .running then s
  else if (tget k.act.tmu n {}).trig = .cmd then tmuStartAt s d n (now s + 16)
  else modTmu s n (fun x => { x with missed := x.missed + 1 })

/-- R295, R425, R464, R487, R515 | MDR written to a register of a unit that the deckle holds -/
def writeReg (s : State) (d u r : Nat) (v : BitVec 32) : State :=
  if unitOut { d := d, g := (getDk s d).grant, f := {}, depth := 0, reg := fun _ => none, mar := none, targets := [] } u r then s
  else if u ≤ 3 then (if r = 0 then writeTarget s d u v.toNat else writeFfofs s u v.toNat)
  else if u ≤ 5 then (if r = 0 then writePlay s d (u - 4) else writeAuxHalt s d (u - 4))
  else if u ≤ 15 then writeAdcStart s d (u - 8)
  else if r = 0 then writeTmuStart s d (u - 16)
  else if (getDk s d).st.live then tmuHaltNow s (u - 16) else s

/-! ### Port actions (R295) -/

/-- R295, R411 | where an access of a thread lands: store 0 vat, 1 thread pads, 2 measurement pad, and the byte address in it; none
outside the space -/
def portAddr (k : Deckle) (d space bank : Nat) (mar : BitVec 32) : Option (Nat × Nat) :=
  let a := mar.toNat / 4 * 4
  match space with
  | 0 => if a < 2 ^ 20 then some (0, bankBase bank + a) else none
  | 1 => if a < 2 ^ 15 then some (1, d * 2 ^ 15 + a) else none
  | 2 => (k.grant.tmu[a / 0x2000]?).map (fun n => (2, n * 2 ^ 13 + a % 0x2000))
  | _ => none

/-- R295, R413 | MRD; a double-bit error of the vat halts the thread. The second component tells whether the step goes on -/
def portRead (s : State) (d space bank : Nat) (ua : Option Nat) : State × Bool :=
  let k := getDk s d
  match portAddr k d space bank k.thr.mar with
  | none => (s, true)
  | some (m, a) =>
    match (if m = 0 then bankErr s a 4 else none) with
    | some (b, _) =>
      (detect (bankNote s b) d .bank (kv "BANK" (unitName .v b) :: (ua.map (fun u => kv "UADDR" [.hx u 4])).toList), false)
    | none => (modThr s d (fun t => { t with mdr := BitVec.ofNat 32 (mnum (if m = 0 then s.vat else if m = 1 then s.tpad else s.mpad) a 4) }), true)

/-- R258 | the masks of a stripe bank follow a word that microcode has written to a sheet outside the program's quire slots -/
def maskWord (s : State) (d bank o : Nat) : State :=
  let k := getDk s d
  let n := k.width / 8
  let slot := o / (4 * k.width) * (4 * k.width)
  if k.act.stripe.contains bank && !(k.act.prog = some bank && decide (slot < 8 * k.act.nops)) then
    modBk s bank (maskSheet k.grant.ch.length (mnum s.vat (bankBase bank + o / n * n) n))
  else s

/-- R295 | MWR -/
def portWrite (s : State) (d space bank : Nat) : State :=
  let k := getDk s d
  let v := k.thr.mdr.toNat
  match portAddr k d space bank k.thr.mar with
  | none => s
  | some (0, a) => maskWord (putBank s bank (a % 2 ^ 20) (leBytes 4 v)) d bank (a % 2 ^ 20)
  | some (1, a) => { s with tpad := mputNum s.tpad a 4 v }
  | some (_, a) => { s with mpad := mputNum s.mpad a 4 v }

/-- R295, R375 | QPOP: the next word, or 0 with C12 set; no command or event puts a word into a command queue -/
def queuePop (s : State) (d q : Nat) : State :=
  let k := getDk s d
  let ring := if 48 ≤ q ∧ q ≤ 95 then tget k.res.rings (q - 48) [] else []
  match ring with
  | x :: r => modRes (modThr s d (fun t => { t with qin := x, qe := false })) d (fun z => { z with rings := tset z.rings (q - 48) r })
  | [] =>
    if 48 ≤ q ∧ q ≤ 103 then modThr s d (fun t => { t with qin := 0, qe := true })
    else
      let (n, s) := draw s
      let (m, s) := draw s
      modThr s d (fun t => { t with qin := (Config.value n).setWidth 32, qe := (Config.value m).getLsbD 0 })

/-- R297 | QPUSH: a user record or a user entry -/
def queuePush (s : State) (d q : Nat) : State :=
  let k := getDk s d
  if q = 112 + d then pushBroke s d { tb := now s, kind := 4, rqn := k.seq.nextD, seg := k.seq.segpos, fail := k.thr.mdr.toNat }
  else if q = 120 + d then pushCapture s d { rqn := k.seq.nextD, flags := 2, hi := k.thr.mdr.toNat }
  else s

/-- R295 | the event class of a CLASS field -/
def classOf (c : Nat) : EvClass := match c with | 0 => .done | 1 => .fault | 2 => .limit | _ => .note

/-- R296 | EVENT -/
def portEvent (s : State) (d c code : Nat) : State :=
  uevent s d (classOf c) [w "UEVENT", kv "C" [.raw (hexBytes true 2 code)], kv "V" [.hx (getDk s d).thr.mdr.toNat 8]]

/-- R277, R295 | SEQCTL SUB 2 -/
def seqHalt (s : State) (d : Nat) : State :=
  modDk s d (fun k => { k with thr := { k.thr with active := false }, seq := { k.seq with halting := true } })

/-- R274, R275, R277, R295 | SEQCTL -/
def seqCtl (s : State) (d sub m : Nat) (a : BitVec 32) : State :=
  match sub with
  | 0 => modSeq s d (fun q => { q with tsel := a.toNat % 32 })
  | 1 => modSeq s d (fun q => armMark q m (a.toNat % 32))
  | 2 => seqHalt s d
  | _ => s

/-- R295 | TBSET -/
def tbSet (s : State) (d : Nat) (a : BitVec 32) : State := modThr s d (fun t => { t with tbc := (now s + a.toNat) % 2 ^ 64 })

/-- R250, R295 | a sheet word with the codes of some pins replaced, and its header when asked -/
def shwrWord (k : Deckle) (x code pmask : Nat) (hdr : Option Nat) : Nat :=
  let x := (numbered 0 k.grant.ch).foldl (fun x e =>
    if pmask / 2 ^ e.2 % 2 = 1 then x - sheetCode x e.1 * 2 ^ (4 * e.1 + 8) + code * 2 ^ (4 * e.1 + 8) else x) x
  match hdr with
  | some h => x / 256 * 256 + h
  | none => x

/-- R257, R258, R295 | SHWR writes one sheet of the stripe -/
def shwr (s : State) (d pareg sreg : Nat) (whdr : Bool) (k16 pmask : Nat) : State :=
  let k := getDk s d
  let pa := (k.thr.reg pareg).toNat
  let r := (k.thr.reg sreg).toNat
  if pa < patternSize k.act k.width then
    let x := mnum s.vat (sheetAddr k.act k.width pa (r % 32)) (k.width / 8)
    writeSheet s d k.act pa (r % 32) (shwrWord k x (r / 256 % 16) pmask (if whdr then some (k16 % 256) else none))
  else s

/-- R259, R295 | DISP -/
def portDisp (s : State) (d : Nat) (cont : Bool) (pareg nreg : Nat) : State :=
  let t := (getDk s d).thr
  dispatch (incr s d 11) d (t.reg pareg).toNat ((t.reg nreg).toNat + 1) false cont none

/-- R295 | the port action of a nanoword, with source A and register values as they stand at the start of the step; whether
the step goes on -/
def portPart (s : State) (d : Nat) (n : NWord) (a : BitVec 32) (ua : Option Nat) : State × Bool :=
  match n.pclass with
  | 1 => portRead s d (n.p 91 90) (n.p 89 84) ua
  | 2 => (portWrite s d (n.p 91 90) (n.p 89 84), true)
  | 3 => (portDisp s d (n.p 91 91 = 1) (n.p 90 87) (n.p 86 83), true)
  | 4 => (queuePop s d (n.p 90 84), true)
  | 5 => (queuePush s d (n.p 90 84), true)
  | 6 => (writeReg s d (n.p 90 86) (n.p 85 78) (getDk s d).thr.mdr, true)
  | 7 => (portEvent s d (n.p 91 90) (n.p 89 82), true)
  | 8 => (seqCtl s d (n.p 91 89) (n.p 88 86) a, true)
  | 9 => (tbSet s d a, true)
  | 10 => (shwr s d (n.p 90 87) (n.p 86 83) (n.p 82 82 = 1) n.k16 n.pmask, true)
  | 15 => ({ s with md := { s.md with mailbox := s.md.mailbox ++ [(n.parg, (getDk s d).thr.mdr.toNat)] } }, true)
  | _ => (s, true)

/-! ### Waits (R290, R291, R314) -/

/-- R314 | whether the headbox still has to read a quire slot for a dispatch of this thread -/
def unread (q : Seq) (pa : Nat) : Bool :=
  match q.dreg with
  | some x => if x.same then pa = x.pa else x.pa ≤ pa && pa < x.pa + x.left
  | none => false

/-- R257, R314 | the pattern address of the quire slot that holds a byte of a bank -/
def slotAt (k : Deckle) (bank a : Nat) : Option Nat :=
  match k.act.stripe.idxOf? bank with
  | some j => some (a / (4 * k.width) * k.act.stripe.length + j)
  | none => none

/-- R291, R314 | what a port action waits for -/
def portWait (k : Deckle) (n : NWord) : Option Wait :=
  if n.pclass = 3 ∧ k.seq.dreg.isSome then some .dreg
  else if n.pclass = 2 ∧ n.p 91 90 = 0 ∧ (slotAt k (n.p 89 84) k.thr.mar.toNat).any (unread k.seq) then
    some (.read (n.p 89 84) (k.thr.mar.toNat / 4 * 4))
  else if n.pclass = 10 ∧ unread k.seq (k.thr.reg (n.p 90 87)).toNat then
    let pa := (k.thr.reg (n.p 90 87)).toNat
    some (.read (quireBank k.act pa) (quireAddr k.act k.width pa % 2 ^ 20))
  else none

/-- R290, R291, R314 | what the step of a word waits for, if anything -/
def stepWait (s : State) (k : Deckle) (x : UWord) (n : NWord) : Option Wait :=
  if (x.reads 4 || x.reads 5) && !resultsIn k.seq then some .result
  else match portWait k n with
    | some y => some y
    | none => if x.mode = 7 ∧ condFlag s k x.cond = x.sense then some .flag else none

/-! ### Trace (R325, R541, R544) -/

/-- R541 | a USTEP, WAITB or WAITE packet of a customer word, where its kind and its address are selected -/
def traceStep (s : State) (d ty ua : Nat) (x : UWord) (n : NWord) (v : Option Nat) : State :=
  let k := getDk s d
  let sel : Bool := !vendorWord ua && (if ty = 1 then k.trace.ustep else k.trace.waitk)
  if sel && (match k.trace.range with | some (a, b) => a ≤ ua && ua ≤ b | none => true) then
    streamPut s d ty (leNats 2 (ua + (if v.isNone then 2 ^ 14 else 0)) ++ leNats 2 (x.nano + n.pclass * 4096) ++ leNats 4 (v.getD 0) ++
      leNats 2 (flagWord s k))
  else s

/-! ### Steps of customer code -/

/-- R298 | what the fences know of a step: every register -/
def runCtx (k : Deckle) (d : Nat) (targets : List Nat) : FenceCtx :=
  { d := d, g := k.grant, f := k.act, depth := k.thr.depth, reg := fun r => some (k.thr.reg r).toNat, mar := some k.thr.mar.toNat, targets := targets }

/-- R301, R549 | one customer step is counted -/
def countStep (s : State) (d : Nat) : State := incr (stepsRun s d 1) d 9

/-- R290, R291, R549 | a step waits: traced when the wait begins, the step of a WAIT word counted when it issues -/
def holdStep (s : State) (d : Nat) (x : UWord) (n : NWord) (y : Wait) : State :=
  let t := (getDk s d).thr
  let s := if t.waited || t.wait.isSome then s else traceStep s d 2 t.upc x n none
  let s := if y = .flag ∧ !t.issued then countStep (modThr s d (fun t => { t with issued := true })) d else s
  beginWait s d y

/-- R288, R289, R292, R293 | the address and the stack that follow a word, by the flags at the start of its step -/
def nextOf (s : State) (k : Deckle) (x : UWord) : Nat × List UEntry :=
  let t := k.thr
  let base := blockBase t.upc
  let seq := (t.upc + 1) % 2 ^ 14
  match x.mode with
  | 1 => (x.target, t.ms)
  | 2 => (x.target, { addr := seq } :: t.ms)
  | 3 => ((t.ms.head?.map (fun e => e.addr)).getD 0, t.ms.drop 1)
  | 4 => (if condFlag s k x.cond != x.sense then base + x.target else seq, t.ms)
  | 5 =>
    let v := (List.range (x.width + 1)).foldl (fun m i => if condFlag s k (x.cond + i) then m + 2 ^ i else m) 0
    (base + (x.target ||| v), t.ms)
  | 6 => (if t.ctr x.lk ≠ 0 then base + x.target else seq, t.ms)
  | _ => (seq, t.ms)

/-- R293, R300 | the dispatch entry has been popped: the interpreter continues at op index G14 -/
def endCustom (s : State) (d : Nat) : State :=
  let k := getDk s d
  let ip := (k.thr.reg 14).toNat
  let s := modThr (goOp s d ip) d (fun t => { t with cust := false })
  if k.act.nops ≤ ip then vendorCause s d "OPINDEX" 0x200 else s

/-- R288, R292, R294 | the LOOP count, the ALU part and the next address of a step whose port action is done; source values, next address
and stack, and the thread are those at its start -/
def wordPart (s : State) (d : Nat) (t : Thread) (x : UWord) (n : NWord) (a b : BitVec 32) (nx : Nat × List UEntry) : State × Option Nat :=
  let dec : Option Nat := if x.mode = 6 ∧ t.ctr x.lk ≠ 0 then some x.lk else none
  let s := match dec with
    | some i => modThr s d (fun t => { t with lc := tset t.lc i (t.ctr i - 1) })
    | none => s
  let (s, v) := aluPart s d ((aluOf n.aluop).getD .nop) a b t.c
    { dsel := n.dsel, upd := n.upd, u0op := n.u0op, u1op := n.u1op } (n.pclass = 1) dec
  (modThr s d (fun t => { t with upc := nx.1, ms := nx.2, waited := false, issued := false }), v)

/-- R292 | a CALL with a full stack, a RET with an empty one -/
def stackFails (t : Thread) (x : UWord) : Bool := (x.mode = 2 && 8 ≤ t.ms.length) || (x.mode = 3 && t.ms.isEmpty)

/-- R288, R294, R301, R313, R325 | a customer step that executes -/
def runStep (s : State) (d : Nat) (x : UWord) (n : NWord) : State :=
  let k := getDk s d
  let a := source s k x.arg n.k16 n.asel
  let b := source s k x.arg n.k16 n.bsel
  let nx := nextOf s k x
  let (s, go) := portPart (endWait s d) d n a (some k.thr.upc)
  if !go then s
  else
    let (s, v) := wordPart s d k.thr x n a b nx
    let s := if k.thr.issued then s else countStep s d
    let s := modDk s d (fun k => cntMax k 14 k.thr.ms.length)
    let s := traceStep s d (if k.thr.waited || k.thr.wait.isSome then 3 else 1) k.thr.upc x n v
    if x.mode = 3 ∧ (k.thr.ms.head?.any (fun e => e.vendor)) then endCustom s d else s

/-- R292, R298 | a customer word that is fetched without a parity error: fences, stack limits, waits, and then its step -/
def stepWord (s : State) (d : Nat) (x : UWord) : State :=
  let k := getDk s d
  let n := readN s x.nano
  let a := k.thr.upc
  match (if vendorWord a then none else fence (runCtx k d (x.targets a)) x n) with
    | some c => customerCheck s d c a x.nano
    | none =>
      if stackFails k.thr x then
        if vendorWord a then vendorCause s d "MSTACK" 0x200 else customerCheck s d "MSTACK" a x.nano
      else match stepWait s k x n with
        | some y => holdStep s d x n y
        | none => runStep s d x n

/-- R286, R302 | an upset of a word of the vendor region -/
def Upset.inVendor (x : Upset) : Bool := if x.nano then x.addr < vendorN else x.addr < vendorU

/-- R302 | what the fetch of the word at an address finds: bad parity in a vendor word, and in a customer word -/
def fetchBad (s : State) (a : Nat) : Bool × Bool :=
  let na := (readU s a).nano
  ((!goodU s a && a < vendorU) || (!goodN s na && na < vendorN), (!goodU s a && vendorU ≤ a) || (!goodN s na && vendorN ≤ na))

/-- R302, R303, R304 | the machine checks of a fetch by a deckle's thread in customer code; without one, the step at a word of the mode -/
def fetchWord (s : State) (d : Nat) (mode : Nat) : State :=
  let a := (getDk s d).thr.upc
  let x := readU s a
  match fetchBad s a with
  | (false, false) => if x.mode = mode then stepWord s d x else s
  | (vendor, customer) =>
    let s := if customer then customerCheck s d "PARITY" a x.nano else s
    if vendor then vendorCheck s else s

/-- R302, R304 | a fetch of vendor code by a deckle's thread, or one while the vendor region is reloaded: the word that an upset has hit is
the one fetched, since the spec gives no vendor microcode (log 105) -/
def fetchVendor (s : State) (up : Option Upset) : State :=
  match up with
  | some x => if x.inVendor && !(if x.nano then goodN s x.addr else goodU s x.addr) then vendorCheck s else s
  | none => s

/-- R195, R292, R302 | a step of the service thread at a word of a mode: parity, the limits of its stack, a WAIT, and then the step. Its port
actions are what the rows of the level tick, of due actions and of scrubs do (log 105) -/
def svcStep (s : State) (mode : Nat) : State :=
  let t := s.md.svc
  let x := readU s t.upc
  let n := readN s x.nano
  let k : Deckle := { thr := t }
  if (fetchBad s t.upc).1 then vendorCheck s
  else if x.mode ≠ mode then s
  else if stackFails t x then moduleFault s "F-MCHK" false
  else if x.mode = 7 ∧ condFlag s k x.cond = x.sense then s
  else
    let r := (wordPart (setDk s 8 k) 8 t x n (source s k x.arg n.k16 n.asel) (source s k x.arg n.k16 n.bsel) (nextOf s k x)).1
    { r with dk := s.dk, md := { r.md with svc := (getDk r 8).thr } }

/-- R195 | the service thread runs while the module may run deckles and its vendor region is not being reloaded -/
def svcRuns (s : State) : Bool := !s.md.reload && (s.md.st = .warming || s.md.st = .ready)

/-- R288, R302, R304 | a step of a thread at a word of a mode, after an upset of the stores, if any -/
def microStep (dt : Nat) (d : Option (Fin 8)) (up : Option Upset) (mode : Nat) (s : State) : Out :=
  let s := up.elim (advance s dt) (upset (advance s dt))
  .next (match d with
    | none => if svcRuns s then svcStep s mode else s
    | some d =>
      let k := getDk s d
      if threadOk s k && k.thr.cust then fetchWord s d mode
      else if threadOk s k || s.md.reload then fetchVendor s up
      else s)

/-- R288 -/
def execUmodeSeq (dt : Nat) (d : Option (Fin 8)) (up : Option Upset) (s : State) : Out := microStep dt d up 0 s
/-- R288 -/
def execUmodeJmp (dt : Nat) (d : Option (Fin 8)) (up : Option Upset) (s : State) : Out := microStep dt d up 1 s
/-- R292 -/
def execUmodeCall (dt : Nat) (d : Option (Fin 8)) (up : Option Upset) (s : State) : Out := microStep dt d up 2 s
/-- R293 -/
def execUmodeRet (dt : Nat) (d : Option (Fin 8)) (up : Option Upset) (s : State) : Out := microStep dt d up 3 s
/-- R288, R290 -/
def execUmodeBr (dt : Nat) (d : Option (Fin 8)) (up : Option Upset) (s : State) : Out := microStep dt d up 4 s
/-- R289, R290 -/
def execUmodeMway (dt : Nat) (d : Option (Fin 8)) (up : Option Upset) (s : State) : Out := microStep dt d up 5 s
/-- R288 -/
def execUmodeLoop (dt : Nat) (d : Option (Fin 8)) (up : Option Upset) (s : State) : Out := microStep dt d up 6 s
/-- R290, R291 -/
def execUmodeWait (dt : Nat) (d : Option (Fin 8)) (up : Option Upset) (s : State) : Out := microStep dt d up 7 s

/-! ### Parts of a step by themselves (log 30) -/

/-- R298 | the fence of a nanoword that a thread executes; vendor words are not fenced -/
def partFence (k : Deckle) (d : Nat) (n : NWord) : Option String :=
  if k.thr.cust then fence (runCtx k d []) { nano := sliceN d } n else none

/-- The action of one part of a step: fenced in customer code, waiting where the action waits. -/
def microPart (dt : Nat) (d : Fin 8) (n : NWord) (s : State) (act : State → State) : Out :=
  let s := advance s dt
  let k := getDk s d
  let free : Bool := match k.thr.wait with | none | some .dreg | some (.read _ _) => true | _ => false
  if !(threadOk s k && free) then .next s
  else match partFence k d n with
    | some c => .next (customerCheck s d c k.thr.upc (readU s k.thr.upc).nano)
    | none => match portWait k n with
      | some y => .next (beginWait s d y)
      | none => .next (act (endWait s d))

/-- R294 | the ALU part of a nanoword with an operation; a reserved code in vendor code has no effect -/
def aluRow (dt : Nat) (d : Fin 8) (code : Nat) (f : AluF) (s : State) : Out :=
  microPart dt d { aluop := code, asel := f.asel, bsel := f.bsel, dsel := f.dsel, upd := f.upd, u0op := f.u0op, u1op := f.u1op, k16 := f.k16 } s
    (fun s =>
      let k := getDk s d
      if f.asel ≤ 27 ∧ f.bsel ≤ 27 ∧ f.dsel ≤ 22 then
        (aluPart s d ((aluOf code).getD .nop) (source s k f.imm f.k16 f.asel) (source s k f.imm f.k16 f.bsel) k.thr.c f false none).1
      else s)

/-- R294 -/
def execAluNop (dt : Nat) (d : Fin 8) (f : AluF) (s : State) : Out := aluRow dt d 0x00 f s
/-- R294 -/
def execAluPass (dt : Nat) (d : Fin 8) (f : AluF) (s : State) : Out := aluRow dt d 0x01 f s
/-- R294 -/
def execAluAdd (dt : Nat) (d : Fin 8) (f : AluF) (s : State) : Out := aluRow dt d 0x02 f s
/-- R294 -/
def execAluAdc (dt : Nat) (d : Fin 8) (f : AluF) (s : State) : Out := aluRow dt d 0x03 f s
/-- R294 -/
def execAluSub (dt : Nat) (d : Fin 8) (f : AluF) (s : State) : Out := aluRow dt d 0x04 f s
/-- R294 -/
def execAluSbc (dt : Nat) (d : Fin 8) (f : AluF) (s : State) : Out := aluRow dt d 0x05 f s
/-- R294 -/
def execAluAnd (dt : Nat) (d : Fin 8) (f : AluF) (s : State) : Out := aluRow dt d 0x06 f s
/-- R294 -/
def execAluOr (dt : Nat) (d : Fin 8) (f : AluF) (s : State) : Out := aluRow dt d 0x07 f s
/-- R294 -/
def execAluXor (dt : Nat) (d : Fin 8) (f : AluF) (s : State) : Out := aluRow dt d 0x08 f s
/-- R294 -/
def execAluAndn (dt : Nat) (d : Fin 8) (f : AluF) (s : State) : Out := aluRow dt d 0x09 f s
/-- R294 -/
def execAluShl (dt : Nat) (d : Fin 8) (f : AluF) (s : State) : Out := aluRow dt d 0x0A f s
/-- R294 -/
def execAluShr (dt : Nat) (d : Fin 8) (f : AluF) (s : State) : Out := aluRow dt d 0x0B f s
/-- R294 -/
def execAluAsr (dt : Nat) (d : Fin 8) (f : AluF) (s : State) : Out := aluRow dt d 0x0C f s
/-- R294 -/
def execAluRor (dt : Nat) (d : Fin 8) (f : AluF) (s : State) : Out := aluRow dt d 0x0D f s
/-- R294 -/
def execAluCmp (dt : Nat) (d : Fin 8) (f : AluF) (s : State) : Out := aluRow dt d 0x0E f s
/-- R294 -/
def execAluTst (dt : Nat) (d : Fin 8) (f : AluF) (s : State) : Out := aluRow dt d 0x0F f s
/-- R294 -/
def execAluMin (dt : Nat) (d : Fin 8) (f : AluF) (s : State) : Out := aluRow dt d 0x10 f s
/-- R294 -/
def execAluMax (dt : Nat) (d : Fin 8) (f : AluF) (s : State) : Out := aluRow dt d 0x11 f s
/-- R294 -/
def execAluClz (dt : Nat) (d : Fin 8) (f : AluF) (s : State) : Out := aluRow dt d 0x12 f s
/-- R294 -/
def execAluPopc (dt : Nat) (d : Fin 8) (f : AluF) (s : State) : Out := aluRow dt d 0x13 f s

/-- A port action by itself, as the fields of a nanoword. -/
def portRow (dt : Nat) (d : Fin 8) (n : NWord) (a : BitVec 32) (s : State) : Out :=
  microPart dt d n s (fun s =>
    let t := (getDk s d).thr
    (portPart s d n a (if t.cust then some t.upc else none)).1)

/-- A field of PARG: a value whose lowest bit is bit `lo` of the nanoword. -/
def pfield (lo v : Nat) : Nat := v * 2 ^ (lo - 64)

/-- R295, R411, R413 -/
def execPortMrd (dt : Nat) (d : Fin 8) (space : Fin 4) (bank : Fin 64) (s : State) : Out :=
  portRow dt d { pclass := 1, parg := pfield 90 space + pfield 84 bank } 0 s
/-- R295, R314 -/
def execPortMwr (dt : Nat) (d : Fin 8) (space : Fin 4) (bank : Fin 64) (s : State) : Out :=
  portRow dt d { pclass := 2, parg := pfield 90 space + pfield 84 bank } 0 s
/-- R259, R291, R295 -/
def execPortDisp (dt : Nat) (d : Fin 8) (cont : Bool) (pareg : Fin 16) (nreg : Fin 16) (s : State) : Out :=
  portRow dt d { pclass := 3, parg := pfield 91 (if cont then 1 else 0) + pfield 87 pareg + pfield 83 nreg } 0 s
/-- R295, R375 -/
def execPortQpop (dt : Nat) (d : Fin 8) (qid : Fin 128) (s : State) : Out := portRow dt d { pclass := 4, parg := pfield 84 qid } 0 s
/-- R297 -/
def execPortQpush (dt : Nat) (d : Fin 8) (qid : Fin 128) (s : State) : Out := portRow dt d { pclass := 5, parg := pfield 84 qid } 0 s
/-- R296 -/
def execPortEvent (dt : Nat) (d : Fin 8) (cls : Fin 4) (code : Fin 256) (s : State) : Out :=
  portRow dt d { pclass := 7, parg := pfield 90 cls + pfield 82 code } 0 s
/-- R275, R295 -/
def execSeqctlTsel (dt : Nat) (d : Fin 8) (a : BitVec 32) (s : State) : Out := portRow dt d { pclass := 8, parg := pfield 89 0 } a s
/-- R274, R295 -/
def execSeqctlMark (dt : Nat) (d : Fin 8) (m : Fin 8) (a : BitVec 32) (s : State) : Out :=
  portRow dt d { pclass := 8, parg := pfield 89 1 + pfield 86 m } a s
/-- R277, R295 -/
def execSeqctlHalt (dt : Nat) (d : Fin 8) (s : State) : Out := portRow dt d { pclass := 8, parg := pfield 89 2 } 0 s
/-- R295 -/
def execPortTbset (dt : Nat) (d : Fin 8) (a : BitVec 32) (s : State) : Out := portRow dt d { pclass := 9 } a s
/-- R295, R314 -/
def execPortShwr (dt : Nat) (d : Fin 8) (pareg : Fin 16) (sreg : Fin 16) (whdr : Bool) (k16 : BitVec 16) (pmask : BitVec 48) (s : State) : Out :=
  portRow dt d { pclass := 10, parg := pfield 87 pareg + pfield 83 sreg + pfield 82 (if whdr then 1 else 0), k16 := k16.toNat, pmask := pmask.toNat } 0 s
/-- R295, R298 -/
def execPortStew (dt : Nat) (d : Fin 8) (parg : BitVec 28) (s : State) : Out := portRow dt d { pclass := 15, parg := parg.toNat } 0 s

/-- R295, R298 | an INSTR write of a value to a register of a unit -/
def regRow (dt : Nat) (d : Fin 8) (unit reg : Nat) (s : State) (act : State → State) : Out :=
  microPart dt d { pclass := 6, parg := pfield 86 unit + pfield 78 reg } s act

/-- R425 -/
def execDpsTargetReg (dt : Nat) (d : Fin 8) (n : Fin 4) (v : BitVec 32) (s : State) : Out :=
  regRow dt d n 0 s (fun s => writeReg s d n 0 v)
/-- R425 -/
def execDpsFfofsReg (dt : Nat) (d : Fin 8) (n : Fin 4) (v : BitVec 32) (s : State) : Out :=
  regRow dt d n 4 s (fun s => writeReg s d n 4 v)
/-- R464 -/
def execAuxPlayReg (dt : Nat) (d : Fin 8) (n : Fin 2) (v : BitVec 32) (s : State) : Out :=
  regRow dt d (4 + n.val) 0 s (fun s => writeReg s d (4 + n.val) 0 v)
/-- R464 -/
def execAuxHaltReg (dt : Nat) (d : Fin 8) (n : Fin 2) (v : BitVec 32) (s : State) : Out :=
  regRow dt d (4 + n.val) 1 s (fun s => writeReg s d (4 + n.val) 1 v)
/-- R487 -/
def execAdcStartReg (dt : Nat) (d : Fin 8) (n : Fin 8) (v : BitVec 32) (s : State) : Out :=
  regRow dt d (8 + n.val) 0 s (fun s => writeReg s d (8 + n.val) 0 v)
/-- R515 -/
def execTmuStartReg (dt : Nat) (d : Fin 8) (n : Fin 4) (v : BitVec 32) (s : State) : Out :=
  regRow dt d (16 + n.val) 0 s (fun s => writeReg s d (16 + n.val) 0 v)
/-- R515 -/
def execTmuHaltReg (dt : Nat) (d : Fin 8) (n : Fin 4) (v : BitVec 32) (s : State) : Out :=
  regRow dt d (16 + n.val) 1 s (fun s => writeReg s d (16 + n.val) 1 v)
/-- R298 | MDR to any other register: FENCE-UNIT in customer code -/
def execInstrOtherReg (dt : Nat) (d : Fin 8) (unit : Fin 32) (reg : Fin 256) (s : State) : Out :=
  regRow dt d unit reg s (fun s => writeReg s d unit reg (getDk s d).thr.mdr)

end Sys2Proof.Machine
end

