-- ==== Sys2Proof/Machine/At.lean ====
section
/-! DEFINITION. Scheduled actions: the AT prefix, actions that fall due, AT CANCEL, the end of a vendor reload, and the end of a
slot's erasure. -/

namespace Sys2Proof.Machine

/-! ### Effects (R149, R233) -/

/-- R149, R233 | a scheduled command acts at its tick; one that is late acts at once, as it does without AT -/
def runSched (s : State) (d : Nat) (c : Sched) (t : Nat) (late : Bool) : Res (State × Ans) :=
  match c with
  | .arm => armNow s d
  | .run => runNow s d (if late then runTick s else t)
  | .trig => trigNow s d (if late then runTick s else t)
  | .stop => stopNow s d
  | .stopOff => stopOffNow s d
  | .press => pressNow s d
  | .dpsTarget n v => runTarget s d n v (if late then nextPeriod s else ceilTo t 1250)
  | .dpsFfofs n v => runFfofs s d n v
  | .auxPlay n => playNow s d n (ceilTo (if late then cmdTick s else t) 4) (some t)
  | .auxHalt n => haltNow s d n (ceilTo (if late then cmdTick s else t) 4)
  | .adcStart n => adcStartNow s d n (if late then cmdTick s else t)
  | .tmuStart n => tmuStartNow s d n (if late then cmdTick s else t)
  | .tmuHalt n => tmuHaltCmd s d n
  | .other _ => .error e418

/-! ### Acceptance (R146 to R149) -/

/-- R147 | form, range and rights of a schedulable command whose word stands at a token -/
def checkSched (k : Deckle) (p : Nat) : Sched → Res Unit
  | .arm | .run | .trig | .stop | .stopOff | .press => .ok ()
  | .dpsTarget n v => do
    readUnit (p + 1) .dps n
    let _ ← readRange (p + 2) .V 0 7 v
    holds k .dps [n]
  | .dpsFfofs n v => do
    readUnit (p + 1) .dps n
    let _ ← readNat (p + 2) 0 4095 v
    holds k .dps [n]
  | .auxPlay n | .auxHalt n => do readUnit (p + 1) .aux n; holds k .aux [n]
  | .adcStart n => do readUnit (p + 1) .adc n; holds k .adc [n]
  | .tmuStart n | .tmuHalt n => do readUnit (p + 1) .tmu n; holds k .tmu [n]
  | .other _ => .error e418

/-- R146 | the timebase at the arrival of the line that executes -/
def arrival (s : State) (h : Hdr) : Nat := (running s h.line).tb

/-- R146 | the tick that an AT prefix names: absolute, or a duration after the line's arrival, rounded up to whole ticks -/
def atTick (s : State) (h : Hdr) (t : AtTime) : Res Nat := do
  let n ← match t with
    | .abs n => pure n
    | .rel v => do
      need (v.unit ≠ .none) (e400 2)
      let q ← readVal 2 .s v
      need (0 ≤ q) (e419 2)
      pure (arrival s h + (q * Config.sec).ceil.toNat)
  need (n < 2 ^ 64) (e419 2)
  pure n

/-- R148 | the ID after one -/
def idAfter (n : Nat) : Nat := n % 255 + 1

/-- R148 | the first ID from one on that no pending action has -/
def freeId (k : Deckle) : Nat → Nat → Nat
  | 0, i => i
  | f + 1, i => if k.ats.any (fun a => a.id == i) then freeId k f (idAfter i) else i

/-- R146 to R149 -/
def execAtSchedule (h : Hdr) (t : AtTime) (late : Bool) (c : Sched) (s : State) : Out :=
  noram s (.atSchedule h t late c) (tenantForm "AT") h (fun s => do
    let d := myDk s h
    let k := getDk s d
    let n ← atTick s h t
    checkSched k (if late then 4 else 3) c
    need (k.ats.length < 16) e429
    if now s + 2500 ≤ n then
      let id := freeId k 16 k.atNext
      ok (modDk s d (fun k => { k with ats := k.ats ++ [{ id := id, t := n, act := c }], atNext := idAfter id }))
        [w "OK", w "AT", dTok d, kn "ID" id, kt "T" n]
    else
      need late (e412 (now s))
      match runSched s d c n true with
      | .error e => .error (e ++ [lateTok (lateNs s n)])
      | .ok (s', .now b fin) => .ok (s', .now b (fin ++ [lateTok (lateNs s n)]))
      | .ok (s', .later y _) => .ok (s', .later y (some (lateNs s n)))
      | .ok (s', .silent) => .ok (s', .silent))

/-! ### Actions that fall due (R148, R151, R191, R233, R235) -/

/-- R148, R149, R549 | an action executes; its reply goes to the deckle's tenant as an event, at once or when it is known -/
def takeAction (s : State) (d : Nat) (a : AtAct) : State :=
  let s := modDk s d (fun k => { k with ats := k.ats.filter (fun x => x.id != a.id) })
  let extra := if a.late then some (lateNs s a.t) else none
  let tell := fun (s : State) (fin : Line) => completeJob s { atId := some (d, a.id, a.t), late := extra } [] fin
  match runSched s d a.act a.t a.late with
  | .error e => tell s e
  | .ok (s, .now _ fin) => tell s fin
  | .ok (s, .later y _) => { s with jobs := s.jobs ++ [{ kind := y, atId := some (d, a.id, a.t), late := extra }] }
  | .ok (s, .silent) => s

/-- R235 | no action of the same tick goes before it -/
def atReady (s : State) (d : Nat) (a : AtAct) : Bool :=
  !(getDk s d).ats.any (fun b => b.t == a.t && b.id < a.id) && !s.jobs.any (fun j => match j.atId with | some (e, _, t) => e == d && t == a.t | none => false)

/-- R233, R235, R241 | an action is due: its tick has come or a load of the timebase has passed it, and nothing goes before it -/
def atDue (s : State) (d : Nat) (a : AtAct) : Bool :=
  (a.late || a.t ≤ now s) && atReady s d a && !(getDk s d).ats.any (fun b => b.t < a.t && atReady s d b)

/-- R148, R235; R304: an action that falls due while the vendor region is reloaded waits for the end of the reload -/
def execAtActionDue (dt : Nat) (d : Fin 8) (id : Nat) (s : State) : Out :=
  let s := advance s dt
  let d : Nat := d
  .next (match (getDk s d).ats.find? (fun a => a.id == id) with
    | some a =>
      if !atDue s d a then s
      else if s.md.reload then
        modDk { s with md := { s.md with deferred := s.md.deferred ++ [(d, id)] } } d
          (fun k => { k with ats := k.ats.map (fun b => if b.id == id then { b with late := true } else b) })
      else takeAction s d a
    | none => s)

/-- R304 | the actions that waited for the end of a reload take effect -/
def takeDeferred (s : State) : State :=
  s.md.deferred.foldl (fun s e =>
    match (getDk s e.1).ats.find? (fun a => a.id == e.2) with
    | some a => if atReady s e.1 a then takeAction s e.1 a else s
    | none => s) { s with md := { s.md with deferred := [] } }

/-- R150 -/
def execAtCancel (h : Hdr) (n : Nat) (s : State) : Out :=
  noram s (.atCancel h n) (tenantForm "AT") h (fun s => do
    need (1 ≤ n ∧ n ≤ 255) (e419 3)
    let d := myDk s h
    match (getDk s d).ats.find? (fun a => a.id == n) with
    | none => .error e410
    | some a =>
      need (now s + 2500 ≤ a.t) e411
      ok (modDk s d (fun k => { k with ats := k.ats.filter (fun x => x.id != n) })) [w "OK", w "AT", w "CANCEL", dTok d, kn "ID" n])

/-! ### The end of a vendor reload (R304, R305) -/

/-- R304, R305, R551 | the steward has checked the CRC-32 of the retention copy, rewritten the vendor region from it and read it back -/
def execVendorReloadComplete (dt : Nat) (copyOk readOk : Bool) (s : State) : Out :=
  let s := advance s dt
  .next (if !s.md.reload then s
    else
      let s := { s with md := { s.md with reload := false } }
      if copyOk && readOk then
        let s := rewriteVendor { s with md := { s.md with vreload := min (s.md.vreload + 1) 65535 } }
        let s := ownerEvent s .fault [w "F-MCHK", kw "REGION" "VENDOR", w "RELOADED"]
        takeDeferred (levelUpdate s (now s))
      else moduleFault s "F-MCHK" false)

/-! ### Slots (R178) -/

/-- R178 | the flash of an erased slot is zero, and the slot may be saved into again -/
def execSlotEraseComplete (dt : Nat) (n : Fin 16) (s : State) : Out :=
  let s := advance s dt
  .next { s with nv := { s.nv with erasing := tdel s.nv.erasing n } }

end Sys2Proof.Machine
end

