-- ==== Sys2Proof/Machine/Deckles.lean ====
section
/-! DEFINITION. Deckles as the owner opens, changes, closes and reclaims them, and what closing zeroes. -/

namespace Sys2Proof.Machine

/-- R157, R581 | the state of a deckle as the owner may learn it -/
def e420owner (k : Deckle) : Line :=
  [w "E420", w "BADSTATE", kw "STATE" (if k.st = .closed then "CLOSED" else if k.st = .zeroing then "ZEROING" else "OPEN")]

def ownerForm (x : String) : Form := { word := x, roles := [.o] }

/-- The deckle number of an owner's command, at its token. -/
def deckleArg (pos d : Nat) : Res Unit := need (d < 8) (e419 pos)

/-! ### Grant fields (R161) -/

def grantKeys : List (String × UKind) := [("CH", .ch), ("BANKS", .v), ("DPS", .dps), ("AUX", .aux), ("ADC", .adc), ("TMU", .tmu)]

/-- One field as read: units to add and to remove, or a number. -/
structure GRead where
  key : String
  kind : Option UKind
  add : List Nat := []
  del : List Nat := []
  num : Nat := 0
deriving DecidableEq, Repr

/-- R161, R164 | the units of a field; `signed` asks for + and -, otherwise plain names are asked -/
def readUnits (pos : Nat) (k : UKind) (signed : Bool) : List (Sign × URange) → Res (List Nat × List Nat)
  | [] => .ok ([], [])
  | (g, r) :: t => do
    need (signed == (g != .plain)) (e400 pos)
    let u ← expand pos k [r]
    let rest ← readUnits pos k signed t
    pure (if g = .minus then (rest.1, u ++ rest.2) else (u ++ rest.1, rest.2))

/-- R161 | the fields of a line, from a token on -/
def readGrant (signed : Bool) : Nat → List GFld → Res (List GRead)
  | _, [] => .ok []
  | pos, f :: t => do
    need (t.all (fun x => x.key != f.key)) (e400 pos)
    let r ← match (grantKeys.find? (fun p => p.1 == f.key)), f.val with
      | some (n, k), .units l => do
        let (a, b) ← readUnits pos k signed l
        need (!l.isEmpty) (e400 pos)
        pure ({ key := n, kind := some k, add := a, del := b } : GRead)
      | none, .num n =>
        if f.key = "SHARE" then do need (1 ≤ n ∧ n ≤ 8) (e419 pos); pure ({ key := "SHARE", kind := none, num := n } : GRead)
        else if f.key = "SLOTS" then do need (n ≤ 16) (e419 pos); pure ({ key := "SLOTS", kind := none, num := n } : GRead)
        else .error (e400 pos)
      | _, _ => .error (e400 pos)
    let rest ← readGrant signed (pos + 1) t
    pure (r :: rest)

/-- The units of a kind replaced in a grant. -/
def Grant.put (g : Grant) (k : UKind) (l : List Nat) : Grant :=
  match k with
  | .ch => { g with ch := l } | .v => { g with banks := l } | .dps => { g with dps := l }
  | .aux => { g with aux := l } | .adc => { g with adc := l } | .tmu => { g with tmu := l }

/-- R164 | a grant with the fields of a line carried out -/
def applyGrant (g : Grant) : List GRead → Grant
  | [] => g
  | r :: t => applyGrant (match r.kind with
      | some k => g.put k ((sortNat (r.add ++ g.of k)).filter (fun u => !r.del.contains u))
      | none => if r.key = "SHARE" then { g with share := r.num } else { g with slots := r.num }) t

/-- R162, R403 | a unit that cannot enter the grant of a deckle: withdrawn, granted to another, or a bank not in the pool -/
def notFree (s : State) (d : Nat) (k : UKind) (u : Nat) : Bool :=
  if withdrawn s k u then true
  else if ((getDk s d).grant.of k).contains u then false
  else (holder s k u).isSome || (k = .v && ((getBk s u).couch.isSome || (getBk s u).own.isSome))

/-- R162 | a unit named for removal that another deckle holds, or one withdrawn that this deckle does not hold -/
def notOurs (s : State) (d : Nat) (k : UKind) (u : Nat) : Bool :=
  !((getDk s d).grant.of k).contains u && ((holder s k u).isSome || withdrawn s k u)

/-- R162 | the first unit named that is in use -/
def inUse (s : State) (d : Nat) (l : List GRead) : Option (UKind × Nat) :=
  (l.flatMap (fun r => match r.kind with
    | some k => (r.add.filter (notFree s d k) ++ r.del.filter (notOurs s d k)).map (fun u => (k, u))
    | none => []))[0]?

/-- R162, R163 | what refuses a grant: units in use, then the totals -/
def grantChecks (s : State) (d : Nat) (l : List GRead) (g : Grant) : Res Unit := do
  match inUse s d l with | some (k, u) => .error (e425 (unitName k u)) | none => pure ⟨⟩
  let k := getDk s d
  need (shareTotal s - k.grant.share + g.share ≤ 8) (e426 (8 - shareTotal s))
  need (slotTotal s - k.grant.slots + g.slots ≤ 16) (e432 (16 - slotTotal s))

/-- k/8 of a share. -/
def eighths (key : String) (n : Nat) : Tok := kv key [.d n, .s "/8"]

/-- R402 | couches of some banks to an owner begin -/
def beginCouch (s : State) (l : List Nat) (o : Option Nat) : State :=
  forEach l s (fun s b => modBk s b (fun x => if x.wd then { x with own := o } else { x with couch := some o }))

/-- R161, R165 -/
def execDeckleOpen (h : Hdr) (d : Nat) (g : List GFld) (s : State) : Out :=
  noram s (.deckleOpen h d g) (ownerForm "DECKLE") h (fun s => do
    deckleArg 2 d
    let l ← readGrant false 4 g
    match ["CH", "BANKS", "SHARE"].find? (fun k => !(l.any (fun r => r.key == k))) with
    | some k => .error (e400missing k)
    | none => pure ⟨⟩
    let k := getDk s d
    need (k.st = .closed) (e420owner k)
    need ((tget? s.nv.dk d).isSome) (e420state "CLOSED" "NOKEY")
    let n := applyGrant {} l
    grantChecks s d l n
    let s := beginCouch s n.banks (some d)
    let s := modDk s d (fun k =>
      { k with st := .opened, grant := n, why := none, sealN := none, work := {}, act := {}, shad := {}, trace := { k.trace with lastTime := some (now s) } })
    .ok (s, .later (.couch d [w "OK", w "DECKLE", { val := [.d d] }, w "OPEN", kn "CH" n.ch.length, kn "BANKS" n.banks.length,
      eighths "SHARE" n.share, eighths "FREE" (8 - shareTotal s)])))

/-- R402, R404 | a couch has ended: the bank is zero, its header mask TS 0, and it is entered under its new owner, ON -/
def couchDone (s : State) (b : Nat) : State :=
  match (getBk s b).couch with
  | none => s
  | some o => modBk (zeroBank s b) b (fun x => { x with own := o, couch := none })

/-- R402 | the banks whose couch a command of deckle d waits for -/
def couchesOf (s : State) (d : Nat) : List Nat :=
  tkeys (s.bk.filter (fun e => e.2.couch.isSome && (e.2.own = some d || e.2.couch = some (some d))))

def execCouchComplete (dt : Nat) (bank : Fin 64) (s : State) : Out :=
  let s := couchDone (advance s dt) bank
  .next (deckles.foldl (fun s d =>
    if (couchesOf s d).isEmpty then
      match s.jobs.find? (fun j => match j.kind with | .couch e _ => e == d | _ => false) with
      | some j => match j.kind with | .couch _ t => completeJob s j [] t | _ => s
      | none => s
    else s) s)

/-- R31, R164 | what a deckle leaves in units that leave its grant -/
def zeroUnits (s : State) (d : Nat) (k : UKind) (l : List Nat) : State :=
  match k with
  | .ch => forEach l s (fun s c => modRes (modPin s c pinOff) d (fun r => { r with rings := tdel r.rings c, fc := tdel r.fc c }))
  | .v => s
  | .dps => forEach l s (fun s n => { setDps s n { wd := (getDps s n).wd, hot := (getDps s n).hot, dis100 := (dpsRest s (getDps s n)).dis100 } with
                                       cep := mzero s.cep (n * 2 ^ 15) (2 ^ 15) })
  | .aux => forEach l s (fun s n => setAux s n { wd := (getAux s n).wd })
  | .adc => forEach l s (fun s n => setAdc s n { wd := (getAdc s n).wd })
  | .tmu => forEach l s (fun s n => setTmu (clearTmuPad s n) n { wd := (getTmu s n).wd, lock := (getTmu s n).lock })

/-- R587 | the fields of a GRANT reply -/
def grantFields (g : Grant) (l : List GRead) : Line :=
  l.map (fun r => match r.kind with
    | some k => kn r.key (g.of k).length
    | none => if r.key = "SHARE" then eighths "SHARE" g.share else kn "SLOTS" g.slots)

/-- R164 -/
def execDeckleGrant (h : Hdr) (d : Nat) (g : List GFld) (s : State) : Out :=
  noram s (.deckleGrant h d g) (ownerForm "DECKLE") h (fun s => do
    deckleArg 2 d
    let l ← readGrant true 4 g
    let k := getDk s d
    need (k.st.isOpen) (e420owner k)
    need ((k.st = .opened ∨ k.st = .held) ∧ k.arming.isNone) e423
    let n := applyGrant k.grant l
    need (!n.ch.isEmpty && !n.banks.isEmpty) (e419 4)
    grantChecks s d l n
    need ((heldSlots s d).length ≤ n.slots) [w "E432", w "NOSLOT"]
    let gone := allKinds.map (fun u => (u, (k.grant.of u).filter (fun x => !(n.of u).contains x)))
    let s := keep (forEach gone s (fun s e => zeroUnits s d e.1 e.2))
    let s := beginCouch s (k.grant.banks.filter (fun b => !n.banks.contains b)) none
    let s := beginCouch s (n.banks.filter (fun b => !k.grant.banks.contains b)) (some d)
    let s := cancelWarm (modDk s d (fun k => { k with grant := n })) d "GRANT"
    let s := holdDeckle s d .grant
    let t := [w "OK", w "DECKLE", { val := [.d d] }, w "GRANT"] ++ grantFields n l ++ [eighths "FREE" (8 - shareTotal s)]
    if (couchesOf s d).isEmpty then ok s t else .ok (s, .later (.couch d t)))

/-- R189 -/
def execDeckleClose (h : Hdr) (d : Nat) (s : State) : Out :=
  noram s (.deckleClose h d) (ownerForm "DECKLE") h (fun s => do
    deckleArg 2 d
    let k := getDk s d
    need ((k.st = .opened ∨ k.st = .held) ∧ k.arming.isNone) e423
    .ok (beginZero s d, .later (.zero d [w "OK", w "DECKLE", { val := [.d d] }, w "CLOSED"])))

/-- R33 | whether a job is a command of a deckle's tenant -/
def JobKind.tenantOf (d : Nat) : JobKind → Bool
  | .arm e | .press e | .stop e | .stopOff e => e == d
  | .save e _ => e == d
  | .deskew e _ => e == d
  | .play e _ _ => e == d
  | .bankZero e _ => e == d
  | _ => false

/-- R33, R44 | steps 1 to 4 of a reclaim begin: a running deckle stops at its next quire boundary first -/
def reclaim (s : State) (d : Nat) : State :=
  let s := dropJobs s (JobKind.tenantOf d)
  match (getDk s d).st with
  | .closed | .zeroing => s
  | .running => modDk s d (fun k => { k with seq := { k.seq with stops := k.seq.stops ++ [.stop] }, press := none, ats := [] })
  | _ => beginZero s d

/-- R33 -/
def execDeckleReclaim (h : Hdr) (d : Nat) (s : State) : Out :=
  noram s (.deckleReclaim h d) (ownerForm "DECKLE") h (fun s => do
    deckleArg 2 d
    let k := getDk s d
    need k.st.isOpen (e420owner k)
    .ok (reclaim s d, .later (.zero d [w "OK", w "DECKLE", { val := [.d d] }, w "RECLAIMED"])))

/-- R389 | FAIL-OUT is mapped anew: at the next quire boundary of the deckle that was mapped, or at once when it does not run -/
def putFailOut (s : State) (m : Option Nat) : State :=
  { s with ph := match s.ph.fo with
      | some e => if some e ≠ m ∧ (getDk s e).st = .running then { s.ph with foNext := some m } else { s.ph with fo := m, foNext := none }
      | none => { s.ph with fo := m, foNext := none } }

/-- R532 | every mapping of physical lines to a deckle is removed: FAIL-OUT per R389, a HOLD line released, pulses complete -/
def unmapDeckle (s : State) (d : Nat) : State :=
  let s := { s with ph := { s.ph with
      evt := tmap s.ph.evt (fun e => if e.src = some (.deckle d) then { e.letGo with src := none, cls := [], hold := false } else e),
      tout := s.ph.tout.filter (fun e => e.2.1 != d), mkm := s.ph.mkm.filter (fun e => e.2 != d),
      foNext := if s.ph.foNext = some (some d) then some none else s.ph.foNext } }
  if s.ph.fo = some d ∧ (s.ph.foNext = none ∨ (getDk s d).st ≠ .running) then
    (if s.ph.foNext = none then putFailOut s none else applyFailOut s)
  else s

/-- R31, R32 | every resource of a deckle is zero and its banks are in the pool; the deckle is CLOSED -/
def zeroDeckle (s : State) (d : Nat) : State :=
  let g := (getDk s d).grant
  let s := forEach allKinds s (fun s k => zeroUnits s d k (g.of k))
  let s := forEach (tkeys (s.bk.filter (fun e => e.2.own = some d || e.2.couch = some (some d)))) s (fun s b =>
    modBk (zeroBank s b) b (fun x => { x with own := none, couch := none, pow := if x.wd then .off else .on }))
  let s := unmapDeckle s d
  let s := (heldSlots s d).foldl dropSlot s
  let s := { s with tpad := mzero s.tpad (d * 2 ^ 15) (2 ^ 15), ust := mzero s.ust (4 * sliceU d) 4096, upar := mzero s.upar (sliceU d) 1024,
                    nst := mzero s.nst (16 * sliceN d) 4096, npar := mzero s.npar (sliceN d) 256, nv := { s.nv with dk := tdel s.nv.dk d } }
  setDk s d {}

/-- R33 | step 5: the tenant's sessions are told and end -/
def tellReclaimed (s : State) (d : Nat) : State :=
  (lineNos.filter (fun l => (getLn s l).up && (getLn s l).role == .tenant d)).foldl
    (fun s l => endSession (sendEvent s l [w "!NOTE", dTok d, w "RECLAIMED"]) l) s

/-- R20 | keys erased, the module unowned, the roles that rested on a key ended -/
def eraseOwner (s : State) : State :=
  let s := { s with nv := { s.nv with dk := [], obs := [], owner := none } }
  lineNos.foldl (fun s l => modLn s l (fun x => { x with role := .anon, nonce := none, prov := false, sm := none, chal := none })) s

/-- R20, R21 | a release completes once every deckle is CLOSED -/
def finishRelease (s : State) : State :=
  if deckles.all (fun d => (getDk s d).st = .closed) then
    match s.jobs.find? (fun j => match j.kind with | .release _ => true | _ => false) with
    | some j => match j.kind with | .release t => eraseOwner (completeJob s j [] t) | _ => s
    | none => s
  else s

/-- R31 to R33, R189 -/
def execZeroingComplete (dt : Nat) (d : Fin 8) (s : State) : Out :=
  let s := advance s dt
  if (getDk s d).st = .zeroing then
    let s := zeroDeckle (tellReclaimed s d) d
    let s := (s.jobs.filter (fun j => match j.kind with | .zero e _ => e == (d : Nat) | _ => false)).foldl
      (fun s j => match j.kind with | .zero _ t => completeJob s j [] t | _ => s) s
    .next (finishRelease s)
  else .next s

/-- R193 -/
def execDeckleRearm (h : Hdr) (s : State) : Out :=
  noram s (.deckleRearm h) (ownerForm "DECKLE") h (fun s =>
    ok (deckles.foldl (fun s d => modDk s d (fun k => { k with rearm := false })) s) [w "OK", w "DECKLE", w "REARM"])

/-- R581 -/
def deckleLine (s : State) (d : Nat) : Line :=
  let k := getDk s d
  let g := k.grant
  [w "DK", dTok d] ++
    (match k.st with
      | .closed => [w "CLOSED"]
      | .zeroing => [w "ZEROING"]
      | _ => w "OPEN" :: grantKeys.map (fun p => kv p.1 (unitList p.2 (g.of p.2))) ++ [eighths "SHARE" g.share, kn "SLOTS" g.slots])

/-- R581, R587 -/
def execDeckleList (h : Hdr) (d : Option Nat) (s : State) : Out :=
  noram s (.deckleList h d) { ownerForm "DECKLE" with ro := true } h (fun s => do
    match d with
    | some n => do deckleArg 2 n; okBody s [deckleLine s n] [w "OK", w "DECKLE"]
    | none => okBody s (deckles.map (deckleLine s)) [w "OK", w "DECKLE"])

end Sys2Proof.Machine
end

