-- ==== Sys2Proof/Machine/Pattern.lean ====
section
/-! DEFINITION. The pattern commands: the stripe list, sheets, the program and its cost. -/

namespace Sys2Proof.Machine

/-! ### The stripe (R257, R279) -/

/-- The position of the first unit of a list that an earlier one repeats. -/
def repeated : List Nat → List Nat → Option Nat
  | _, [] => none
  | seen, x :: r => if seen.contains x then some x else repeated (x :: seen) r

/-- R279, R585 -/
def execBankStripe (h : Hdr) (l : List URange) (s : State) : Out :=
  noram s (.bankStripe h l) (tenantForm "BANK") h (fun s => do
    let d := myDk s h
    let b ← expand 3 .v l
    need (repeated [] b).isNone (e419 3)
    holds (getDk s d) .v b
    let (s, t) ← edit s d (some "BANK-STRIPE") (fun f => { f with stripe := b })
    ok s ([w "OK", w "BANK", w "STRIPE", dTok d, kn "N" b.length] ++ t))

/-! ### Sheets (R253 to R257, R279, R280) -/

/-- R257 | quires from a pattern address on, inside a furnish's pattern address space -/
def quireRange (k : Deckle) (f : Furnish) (pos pa n : Nat) : Res Unit := do
  need (pa < patternSize f k.width) (e419 pos)
  need (1 ≤ n ∧ pa + n ≤ patternSize f k.width) (e419 (pos + 1))

/-- R36, R585 | the banks of some quires are granted to the deckle, as a grant that the owner changed may leave them not -/
def quiresHeld (k : Deckle) (f : Furnish) (pa n : Nat) : Res Unit :=
  holds k .v ((List.range (min n f.stripe.length)).map (fun i => quireBank f (pa + i)))

/-- R36, R585 | the program bank of a furnish is granted to the deckle -/
def progHeld (k : Deckle) (f : Furnish) : Res Unit := holds k .v f.prog.toList

/-- R280 | the first quire of some that holds part of the program -/
def slotHit (k : Deckle) (f : Furnish) (pa n : Nat) : Option Nat := ((List.range n).map (fun i => pa + i)).find? (progSlot f k.width)

/-- R280 | a write into a program slot is refused -/
def notProgram (k : Deckle) (f : Furnish) (pa n : Nat) : Res Unit :=
  match slotHit k f pa n with
  | some q => .error (e417prog q)
  | none => .ok ()

/-- R280 | sheets written from a sheet of the pattern address space on, or staged -/
def putSheets (s : State) (d : Nat) (item : String) (first : Nat) (xs : List Nat) : Res (State × Line) :=
  let k := getDk s d
  writeOrStage s d item (xs.length * (k.width / 8)) (.sheets k.editing.stripe first xs) (fun s => writeSheets s d k.work first xs)

/-- R255, R279, R280 -/
def execDataSheets (h : Hdr) (pa : Nat) (n : Nat) (blk : Blk) (s : State) : Out :=
  noramBlk s (.dataSheets h pa n blk) (tenantForm "DATA") h blk
    (fun s => let k := getDk s (myDk s h); quireRange k k.editing 3 pa n)
    (fun p s => do
      let d := myDk s h
      let k := getDk s d
      quiresHeld k k.editing pa n
      need (p.length = n * (4 * k.width)) e415
      notProgram k k.editing pa n
      let xs := splitNums (k.width / 8) p.length p
      match quiresFault k pa xs with | some e => .error e | none => pure ⟨⟩
      let (s, t) ← putSheets s d "DATA-SHEETS" (32 * pa) xs
      ok s ([w "OK", w "DATA", w "SHEETS", dTok d, kn "PA" pa, kn "N" n] ++ t))

/-- R250 | the header bits that a flag sets -/
def flagBit (x : String) : Option Nat := match x with | "MASK" => some 4 | "NOFO" => some 2 | "BOOK" => some 1 | _ => none

/-- R250, R254 | a sheet word from its timing set, its flags and its codes, pin 0 first -/
def sheetOf (ts fl : Nat) (codes : List Nat) : Nat :=
  (numbered 0 codes).foldl (fun x e => x + e.2 * 2 ^ (4 * e.1 + 8)) (ts * 8 + fl)

/-- R254 | the value of a code letter -/
def codeOf (c : Char) : Option Nat := codeLetters.idxOf? c.toUpper

/-- R279, R280 -/
def execDataSheet (h : Hdr) (pa : Nat) (sn : Nat) (ts : Nat) (flags : List String) (codes : String) (s : State) : Out :=
  noram s (.dataSheet h pa sn ts flags codes) (tenantForm "DATA") h (fun s => do
    let d := myDk s h
    let k := getDk s d
    let cpos := if flags.isEmpty then 6 else 7
    need (pa < patternSize k.editing k.width) (e419 3)
    need (sn < 32) (e419 4)
    need (ts < 32) (e419 5)
    need (flags.all (fun x => (flagBit x).isSome)) (e400 6)
    let cs := codes.toList.filterMap codeOf
    need (cs.length = codes.length ∧ codes.length = k.grant.ch.length) (e400 cpos)
    quiresHeld k k.editing pa 1
    notProgram k k.editing pa 1
    let fl := (flags.eraseDups.filterMap flagBit).sum
    let (s, t) ← putSheets s d "DATA-SHEET" (32 * pa + sn) [sheetOf ts fl cs]
    ok s ([w "OK", w "DATA", w "SHEET", dTok d, kn "PA" pa, kn "S" sn] ++ t))

/-- R279, R408, R413 | quires as a block, of the furnish in force -/
def execDataRead (h : Hdr) (pa : Nat) (n : Nat) (s : State) : Out :=
  noram s (.dataRead h pa n) (readForm "DATA") h (fun s => do
    let d := myDk s h
    let k := getDk s d
    let f := k.inForce
    quireRange k f 3 pa n
    need (n * (4 * k.width) ≤ 1048576) (e419 4)
    quiresHeld k f pa n
    let l := (List.range n).map (fun i => quireAddr f k.width (pa + i))
    let s := forEach l s (fun s a => wakeBank s (a / 2 ^ 20))
    l.forM (fun a => readOk s a (4 * k.width))
    okBody s (blkLines (l.flatMap (fun a => memBytes s.vat a (4 * k.width)))) [w "OK", w "DATA", w "READ", dTok d, kn "PA" pa, kn "N" n])

/-! ### The program (R261, R263, R279, R280) -/

/-- R279, R585 -/
def execSeqBank (h : Hdr) (v : Nat) (s : State) : Out :=
  noram s (.seqBank h v) (tenantForm "SEQ") h (fun s => do
    readUnit 3 .v v
    let d := myDk s h
    holds (getDk s d) .v [v]
    let (s, t) ← edit s d (some "SEQ-BANK") (fun f => { f with prog := some v })
    ok s ([w "OK", w "SEQ", w "BANK", dTok d, uTok .v v] ++ t))

/-- R261, R278, R280 | ops written from an index of the program bank on, or staged; without a program bank no index is in range -/
def putOps (s : State) (d : Nat) (item : String) (a : Nat) (ops : List Nat) : Res (State × Line) := do
  match (getDk s d).editing.prog with
  | none => .error (e419 3)
  | some b =>
    holds (getDk s d) .v [b]
    let (s, t) ← writeOrStage s d item (8 * ops.length) (.ops b a ops) (fun s => writeOps (wakeBank s b) b a ops)
    pure (modEditing s d (fun f => { f with loaded := tset f.loaded b (max (tget f.loaded b 0) (a + ops.length)) }), t)

/-- R279 -/
def execSeqLoad (h : Hdr) (a : Nat) (blk : Blk) (s : State) : Out :=
  noramBlk s (.seqLoad h a blk) (tenantForm "SEQ") h blk (fun _ => need (a < 131072) (e419 3)) (fun p s => do
    let d := myDk s h
    need (a + p.length / 8 ≤ 131072) (e419 3)
    progHeld (getDk s d) (getDk s d).editing
    need (p.length % 8 = 0) e415
    let (s, t) ← putOps s d "SEQ-LOAD" a (splitNums 8 p.length p)
    ok s ([w "OK", w "SEQ", w "LOAD", dTok d, kn "OP" a, kn "N" (p.length / 8)] ++ t))

/-- R263, R279 -/
def execSeqOp (h : Hdr) (a : Nat) (op : OpText) (s : State) : Out :=
  noram s (.seqOp h a op) (tenantForm "SEQ") h (fun s => do
    let d := myDk s h
    need (a < 131072) (e419 3)
    let o ← assemble 4 op
    let (s, t) ← putOps s d "SEQ-OP" a [o.word]
    ok s ([w "OK", w "SEQ", w "OP", dTok d, { val := [.d a] }, kv "ENC" [.hx o.word 16]] ++ t))

/-- R279 -/
def execSeqEntry (h : Hdr) (a : Nat) (s : State) : Out :=
  noram s (.seqEntry h a) (tenantForm "SEQ") h (fun s => do
    need (a < 131072) (e419 3)
    let d := myDk s h
    let (s, t) ← edit s d (some "SEQ-ENTRY") (fun f => { f with entry := a })
    ok s ([w "OK", w "SEQ", w "ENTRY", dTok d, { val := [.d a] }] ++ t))

/-- R279, R408, R413, R588 | ops of the furnish in force; the loaded ones where the line names none -/
def execSeqList (h : Hdr) (r : Option (Nat × Nat)) (s : State) : Out :=
  noram s (.seqList h r) (readForm "SEQ") h (fun s => do
    let d := myDk s h
    let f := (getDk s d).inForce
    match r with
    | some (a, b) => need (a ≤ b ∧ b < 131072) (e419 3)
    | none => pure ⟨⟩
    progHeld (getDk s d) f
    match f.prog with
    | none => ok s [w "OK", w "SEQ", w "LIST", dTok d, kn "N" 0]
    | some v =>
      let (a, n) := match r with | some (a, b) => (a, b + 1 - a) | none => (0, f.nops)
      let s := wakeBank s v
      need (n = 0 || (bankErr s (opAddr v a) (8 * n)).isNone) (match bankErr s (opAddr v a) (8 * n) with | some (b, x) => e437 b x | none => [])
      okBody s ((List.range n).map (fun i =>
          let o := readOp s f (a + i)
          [w "SQ", { val := [.d (a + i : Nat)] }, { val := [.hx o.word 16] }] ++ opText o))
        [w "OK", w "SEQ", w "LIST", dTok d, kn "N" n])

/-- R213 -/
def execSeqCost (h : Hdr) (s : State) : Out :=
  noram s (.seqCost h) (readForm "SEQ") h (fun s => do
    let d := myDk s h
    let k := getDk s d
    progHeld k k.inForce
    match programReadable s k.inForce with | some e => .error e | none => pure ⟨⟩
    ok s (costLine d (admission s d k.grant k.inForce)))

end Sys2Proof.Machine
end

