-- ==== Sys2Proof/Machine/Banks.lean ====
section
/-! DEFINITION. The BANK commands: power states, zeroing, roles, and the pool. -/

namespace Sys2Proof.Machine

/-! ### Power states (R405, R406) -/

/-- R406 | the deckle states in which a bank may be brought to a power state -/
def powerStates : BankPow → List DkState
  | .off => [.opened, .held]
  | _ => [.opened, .held, .stopped, .faulted]

/-- R405 | a bank takes a power state: OFF loses the contents, and from OFF it comes up zeroed with header mask TS 0 -/
def putPower (p : BankPow) (s : State) (b : Nat) : State :=
  if (getBk s b).wd then s
  else match p with
    | .on => wakeBank s b
    | .retain => modBk (wakeBank s b) b (fun x => { x with pow := .retain })
    | .off => modBk (zeroBank s b) b (fun x => { x with pow := .off })

/-- R406, R585 -/
def execBankPower (h : Hdr) (l : List URange) (p : BankPow) (s : State) : Out :=
  noram s (.bankPower h l p) (tenantForm "BANK") h (fun s => do
    let d := myDk s h
    let b ← unitsOf (getDk s d) 3 .v l
    let k := getDk s d
    need ((powerStates p).contains k.st && k.arming.isNone) e423
    let s := if p = .off then clearSeal s d "EDIT" else s
    ok (forEach (sortNat b) s (putPower p)) [w "OK", w "BANK", w "POWER", dTok d, kn "N" (sortNat b).length])

/-! ### Zeroing (R412) -/

/-- R412, R402 -/
def execBankZero (h : Hdr) (l : List URange) (s : State) : Out :=
  noram s (.bankZero h l) (tenantForm "BANK") h (fun s => do
    let d := myDk s h
    let b ← unitsOf (getDk s d) 3 .v l
    let k := getDk s d
    need ([DkState.opened, .held].contains k.st && k.arming.isNone) e423
    .ok (clearSeal s d "EDIT", .later (.bankZero d (sortNat b))))

/-- R412 | the banks that the BANK ZERO in progress of a deckle names -/
def zeroing (s : State) (d : Nat) : Option (List Nat) :=
  s.jobs.findSome? (fun j => match j.kind with | .bankZero e l => if e = d then some l else none | _ => none)

/-- R412, R402 -/
def execBankZeroComplete (dt : Nat) (d : Fin 8) (s : State) : Out :=
  let s := advance s dt
  .next (match zeroing s d with
    | none => s
    | some l =>
      let s := forEach l s (fun s b => if (getBk s b).wd then s else zeroBank s b)
      finishJob s (fun x => match x with | .bankZero e _ => e == d.val | _ => false) []
        [w "OK", w "BANK", w "ZERO", dTok d, kn "N" l.length])

/-! ### Reports (R412, R588) -/

/-- R412 | the roles that a bank holds in a furnish -/
def bankRoles (f : Furnish) (b : Nat) : List Atom :=
  let st : List (List Atom) := ((numbered 0 f.stripe).filter (fun e => e.2 == b)).map (fun e => [Atom.s "STRIPE", .d (e.1 : Nat)])
  let r := st ++ (if f.prog = some b then [[.s "PROG"]] else []) ++ (if f.bbank = some b then [[.s "BROKE"]] else []) ++
    (if f.cbank = some b then [[.s "CAPTURE"]] else [])
  if r.isEmpty then [.s "FREE"] else commas r

/-- R412 -/
def execBankShow (h : Hdr) (l : Option (List URange)) (s : State) : Out :=
  noram s (.bankShow h l) (readForm "BANK") h (fun s => do
    let d := myDk s h
    let k := getDk s d
    let b ← match l with | some u => unitsOf k 3 .v u | none => pure k.grant.banks
    let f := k.inForce
    okBody s ((sortNat b).map (fun n =>
        let x := getBk s n
        [w "BK", uTok .v n, kv "ROLE" (bankRoles f n), kw "POWER" x.pow.name, kv "TSMASK" [.hx x.tsm 8], kv "TMASK" [.hx x.tm 12]]))
      [w "OK", w "BANK", w "SHOW", dTok d, kn "N" (sortNat b).length])

/-- The banks that satisfy a test. -/
def banksThat (s : State) (p : Bank → Bool) : List Nat := (List.range 64).filter (fun b => p (getBk s b))

/-- R404, R412 -/
def execBankPool (h : Hdr) (s : State) : Out :=
  noram s (.bankPool h) { ownerForm "BANK" with ro := true } h (fun s => do
    let free := banksThat s (fun x => x.own.isNone && x.couch.isNone && !x.wd)
    okBody s
      ([[w "BP", kv "FREE" (unitList .v free)], [w "BP", kv "WITHDRAWN" (unitList .v (banksThat s (fun x => x.wd)))],
        [w "BP", kv "ZEROING" (unitList .v (banksThat s (fun x => x.couch.isSome)))]] ++
       (deckles.filter (fun d => (getDk s d).st ≠ .closed)).map (fun d =>
         [w "BP", dTok d, kv "BANKS" (unitList .v ((getDk s d).grant.banks.filter (fun b => (getBk s b).couch.isNone)))]))
      [w "OK", w "BANK", w "POOL", kn "FREE" free.length])

end Sys2Proof.Machine
end

