-- ==== Sys2Proof/Machine/Broke.lean ====
section
/-! DEFINITION. The BROKE and CAPTURE commands. -/

namespace Sys2Proof.Machine

/-- R378, R386 | the bank that a log of the latest ARM lies in, while the deckle holds it -/
def logBank (k : Deckle) (b : Option Nat) : Option Nat := b.filter (fun n => k.grant.banks.contains n)


/-- R387 | whether the results are complete: for certain 20 us after the last placed sheet's end, at an open instant before -/
def complete (s : State) (k : Deckle) : Bool × State :=
  if k.st = .running ∨ !k.res.bq.isEmpty ∨ !k.res.cq.isEmpty then (false, s)
  else if !k.seq.started || k.res.lastT + 20 * Config.us ≤ now s then (true, s)
  else let r := draw s; ((Config.value r.1).getLsbD 0, r.2)

/-- R390 | a bank as the answers name it -/
def bankOr (b : Option Nat) : List Atom := match b with | some n => unitName .v n | none => [.s "NONE"]

/-- R390, R549 -/
def execBroke (h : Hdr) (s : State) : Out :=
  noram s (.broke h) (readForm "BROKE") h (fun s => do
    let d := myDk s h
    let k := getDk s d
    inSt k anySt
    let (c, s) := complete s k
    ok s [w "OK", w "BROKE", dTok d, kv "BANK" (bankOr (logBank k k.act.bbank)), kw "MODE" k.act.bmode.name, kn "RECORDS" (tget k.cnt 3 0),
      kn "LOST" (tget k.cnt 4 0), kb "FULL" k.res.bfull, kb "COMPLETE" c])

/-- R390, R549 -/
def execCapture (h : Hdr) (s : State) : Out :=
  noram s (.capture h) (readForm "CAPTURE") h (fun s => do
    let d := myDk s h
    let k := getDk s d
    inSt k anySt
    let (c, s) := complete s k
    ok s [w "OK", w "CAPTURE", dTok d, kv "BANK" (bankOr (logBank k k.act.cbank)), kw "MODE" k.act.cmode.name, kn "ENTRIES" (tget k.cnt 5 0),
      kn "LOST" (tget k.cnt 6 0), kb "FULL" k.res.cfull, kb "COMPLETE" c])

/-! ### Decoded records (R379, R380, R384, R588) -/

/-- R390 | FROM, the slot that a form begins at -/
def slotFrom (size : Nat) (i : Option Nat) : Res Nat := do
  need (i.getD 0 < size) (e419 3)
  pure (i.getD 0)

/-- R390 | N, how many at most -/
def slotCount (most : Nat) (i n : Option Nat) : Res Nat := do
  let m := n.getD most
  need (1 ≤ m ∧ m ≤ most) (e419 (if i.isSome then 4 else 3))
  pure m

/-- R251 | the channels whose pins a mask names -/
def maskChans (k : Deckle) (m : Nat) : List Nat := ((numbered 0 k.grant.ch).filter (fun e => m.testBit e.1)).map (fun e => e.2)

/-- R588 | a mask with a bit for each pin of the deckle -/
def maskHex (k : Deckle) (m : Nat) : List Atom := [.hx (m % 2 ^ k.grant.ch.length) ((k.grant.ch.length + 3) / 4)]

/-- R380 | the kinds of records by their codes -/
def kindName : Nat → Option String
  | 0xF => some "START" | 1 => some "FAIL" | 2 => some "BOOK" | 3 => some "FAILBOOK" | 4 => some "USER" | 0xE => some "FULL" | _ => none

/-- The words of the bits that are set in a flag byte. -/
def flagWords (fl : Nat) (l : List String) : Line := ((numbered 0 l).filter (fun e => fl.testBit e.1)).map (fun e => w e.2)

/-- R379, R390 | a record slot decoded; none when it is empty -/
def brLine (k : Deckle) (m : Mem) (a i : Nat) : Option Line := do
  let kind ← kindName (mnum m (a + 10) 1)
  let fail := mnum m (a + 24) 6
  let tests : Line :=
    if kind = "USER" then [kv "V" [.hx (mnum m (a + 24) 4) 8]]
    else (if fail = 0 then [] else [kv "FAIL" (unitList .ch (maskChans k fail))]) ++
      (if kind = "START" ∧ fail = 0 then [] else [kv "HI" (maskHex k (mnum m (a + 32) 6)), kv "LO" (maskHex k (mnum m (a + 40) 6))])
  pure ([w "BR", { val := [.d (i : Nat)] }, kw "KIND" kind, kn "RQN" (mnum m (a + 16) 6), kn "S" (mnum m (a + 13) 1), kn "TS" (mnum m (a + 12) 1),
    kt "TB" (mnum m a 8), kn "F" (mnum m (a + 8) 2)] ++ tests ++ flagWords (mnum m (a + 11) 1) ["DWELL", "NOFO", "WIN", "LOST"])

/-- R384, R588 | a capture entry decoded; none when it is empty -/
def cpLine (k : Deckle) (m : Mem) (a i : Nat) : Option Line :=
  let fl := mnum m (a + 7) 1
  let cap := mnum m (a + 8) 6
  if cap = 0 ∧ fl / 2 % 2 = 0 then none
  else some ([w "CP", { val := [.d (i : Nat)] }, kn "RQN" (mnum m a 6), kn "S" (mnum m (a + 6) 1), kv "CAP" (unitList .ch (maskChans k cap)),
    kv "HI" (maskHex k (mnum m (a + 16) 6)), kv "LO" (maskHex k (mnum m (a + 24) 6))] ++ (if fl % 2 = 1 then [w "LOST"] else []) ++
    (if fl / 2 % 2 = 1 then [w "USER", kv "V" [.hx (mnum m (a + 16) 4) 8]] else []))

/-- R390, R408, R413 | the first `c` records from slot `f` on of a log of `size` slots of `n` bytes, decoded; none without a bank -/
def showLog (s : State) (b : Option Nat) (size n f c : Nat) (dec : Mem → Nat → Nat → Option Line) : Res (State × List Line) :=
  match b with
  | none => .ok (s, [])
  | some b => do
    let s := wakeBank s b
    let l := (List.range (size - f)).filterMap (fun i => (dec s.vat (bankBase b + n * (f + i)) (f + i)).map (fun t => (f + i, t)))
    let top := match (l.take c).getLast? with | some e => if l.length < c then size else e.1 + 1 | none => size
    readOk s (bankBase b + n * f) (n * (top - f))
    pure (s, (l.take c).map (fun e => e.2))

/-- R390, R408, R413 | `c` slots of `n` bytes of a log from slot `f` on, as a block; no block without a bank -/
def readLog (s : State) (b : Option Nat) (n f c : Nat) : Res (State × List Line × Nat) :=
  match b with
  | none => .ok (s, [], 0)
  | some b => do
    let s := wakeBank s b
    let o := bankBase b + n * f
    readOk s o (n * c)
    pure (s, blkLines (memBytes s.vat o (n * c)), c)

/-- R390 -/
def execBrokeShow (h : Hdr) (i n : Option Nat) (s : State) : Out :=
  noram s (.brokeShow h i n) (readForm "BROKE") h (fun s => do
    let f ← slotFrom 16384 i
    let c ← slotCount 256 i n
    let d := myDk s h
    let k := getDk s d
    inSt k anySt
    let (s, l) ← showLog s (logBank k k.act.bbank) 16384 64 f c (brLine k)
    okBody s l [w "OK", w "BROKE", w "SHOW", dTok d, kn "N" l.length])

/-- R390 -/
def execBrokeRead (h : Hdr) (i n : Option Nat) (s : State) : Out :=
  noram s (.brokeRead h i n) (readForm "BROKE") h (fun s => do
    let f ← slotFrom 16384 i
    let c ← slotCount (16384 - f) i n
    let d := myDk s h
    let k := getDk s d
    inSt k anySt
    let (s, l, m) ← readLog s (logBank k k.act.bbank) 64 f c
    okBody s l [w "OK", w "BROKE", w "READ", dTok d, kn "N" m])

/-- R377, R390 -/
def execBrokeCount (h : Hdr) (l : Option (List URange)) (s : State) : Out :=
  noram s (.brokeCount h l) (readForm "BROKE") h (fun s => do
    let d := myDk s h
    let k := getDk s d
    let c ← chansOf k 3 (l.getD [])
    inSt k anySt
    okBody s ((sortNat c).map (fun n => [w "FC", { key := String.ofList ((Tok.bytes { val := unitName .ch n }).map Char.ofNat), val := [.d (tget k.res.fc n 0 : Nat)] }]))
      [w "OK", w "BROKE", w "COUNT", dTok d, kn "SHEETS" k.res.sheets])

/-- R390 -/
def execCaptureShow (h : Hdr) (i n : Option Nat) (s : State) : Out :=
  noram s (.captureShow h i n) (readForm "CAPTURE") h (fun s => do
    let f ← slotFrom 32768 i
    let c ← slotCount 256 i n
    let d := myDk s h
    let k := getDk s d
    inSt k anySt
    let (s, l) ← showLog s (logBank k k.act.cbank) 32768 32 f c (cpLine k)
    okBody s l [w "OK", w "CAPTURE", w "SHOW", dTok d, kn "N" l.length])

/-- R390 -/
def execCaptureRead (h : Hdr) (i n : Option Nat) (s : State) : Out :=
  noram s (.captureRead h i n) (readForm "CAPTURE") h (fun s => do
    let f ← slotFrom 32768 i
    let c ← slotCount (32768 - f) i n
    let d := myDk s h
    let k := getDk s d
    inSt k anySt
    let (s, l, m) ← readLog s (logBank k k.act.cbank) 32 f c
    okBody s l [w "OK", w "CAPTURE", w "READ", dTok d, kn "N" m])

/-! ### Clearing (R390, R386, R550) -/

/-- A bank of the latest ARM zeroed, if the deckle still holds it. -/
def zeroLog (s : State) (b : Option Nat) : State := match b with | some n => zeroBank s n | none => s

/-- Some counters of a deckle set to 0. -/
def zeroCounts (l : List Nat) (k : Deckle) : Deckle := { k with cnt := l.foldl tdel k.cnt }

/-- R390 | the states in which results may be cleared -/
def clearStates : List DkState := [.stopped, .opened, .held]

/-- R390, R377, R550 -/
def execBrokeClear (h : Hdr) (s : State) : Out :=
  noram s (.brokeClear h) (tenantForm "BROKE") h (fun s => do
    let d := myDk s h
    let k := getDk s d
    inSt k clearStates
    let s := modDk (zeroLog s (logBank k k.act.bbank)) d (zeroCounts [2, 3, 4])
    ok (modRes s d (fun x => { x with fc := [], sheets := 0, bq := [], blost := false, bpos := 0, brec := 0, bfull := false }))
      [w "OK", w "BROKE", w "CLEAR", dTok d])

/-- R390, R550 -/
def execCaptureClear (h : Hdr) (s : State) : Out :=
  noram s (.captureClear h) (tenantForm "CAPTURE") h (fun s => do
    let d := myDk s h
    let k := getDk s d
    inSt k clearStates
    let s := modDk (zeroLog s (logBank k k.act.cbank)) d (zeroCounts [5, 6])
    ok (modRes s d (fun x => { x with cq := [], clost := false, cpos := 0, crec := 0, cfull := false })) [w "OK", w "CAPTURE", w "CLEAR", dTok d])

end Sys2Proof.Machine
end

