-- ==== Sys2Proof/Machine/Reference.lean ====
section
/-! DEFINITION. Pace and references: PACE and the pace monitor, REF and the switch of the reference, loss, holdover and hold,
TRIG-IN. -/

namespace Sys2Proof.Machine

/-! ### Pace (R196 to R204) -/

/-- ARMED, RUNNING or on the way to ARMED. -/
def Deckle.inUse (k : Deckle) : Bool := k.arming.isSome || k.st = .armed || k.st = .running

/-- Whether some deckle is ARMED or RUNNING, or on the way there. -/
def anyInUse (s : State) : Bool := deckles.any (fun d => (getDk s d).inUse)

/-- R196, R197 | a change made while the voltage still moves keeps the slowest setting it has passed -/
def execPaceSet (h : Hdr) (p : Pace) (s : State) : Out :=
  noram s (.paceSet h p) { word := "PACE", roles := [.o] } h (fun s => do
    if p = s.nv.pace then
      if s.pc.next.isNone then ok s [w "OK", w "PACE", w p.name] else .ok (s, .later (.pace p))
    else
      need (!(p.floor < s.nv.pace.floor && anyInUse s)) e423
      .ok ({ s with nv := { s.nv with pace := p }, pc := { s.pc with next := some p, low := some (s.pc.next.toList.foldl slower (s.pc.low.getD s.nv.pace)) } }, .later (.pace p)))

/-- R196, R198, R203 | the core voltage has reached the new setting -/
def execPaceReached (dt : Nat) (s : State) : Out :=
  let s := advance s dt
  .next (match s.pc.next with
    | none => s
    | some p =>
      let s := { s with pc := { s.pc with now := p, next := none, low := none, skip := true, hi := (0, 0) } }
      let s := [Pace.eco, .nominal, .swift].foldl (fun s q => finishJobs s (fun j => j == .pace q) [] [w "OK", w "PACE", w q.name]) s
      noteAll s [w "PACE", w p.name])

/-- d with two places. -/
def dTok2 (s : State) : Tok := kv "D" [.fx (5 * s.pc.d20 : Nat) 2]

/-- R199 -/
def execPace (h : Hdr) (s : State) : Out :=
  noram s (.pace h) { word := "PACE", roles := [.o, .t], ro := true } h (fun s =>
    let m := match s.pc.rep with | some n => kv "M" [.fx (n : Nat) 2] | none => kw "M" "NONE"
    ok s ([w "OK", w "PACE", w s.nv.pace.name, dTok2 s] ++ (if (getLn s h.line).role = .owner then [m] else [])))

/-- R201 | the derating factor takes a value -/
def setDerate (s : State) (d20 : Nat) : State :=
  let s := { s with pc := { s.pc with d20 := d20, hi := (0, 0) } }
  noteAll s [w "PACE-DERATE", dTok2 s]

/-- R201 | twentieths of the derating factor that a ratio allows -/
def derateOf (m : Rat) : Nat := min 20 (m * 20).floor.toNat

/-- R201 | what a window does to d: a fall at once, a rise after 10,000 higher windows in a row -/
def derate (s : State) (m : Rat) : State :=
  let x := derateOf m
  if x < s.pc.d20 then setDerate s x
  else if x = s.pc.d20 then { s with pc := { s.pc with hi := (0, 0) } }
  else
    let h := if s.pc.hi.2 = 0 then (x, 1) else (min x s.pc.hi.1, s.pc.hi.2 + 1)
    if 10000 ≤ h.2 then setDerate s h.1 else { s with pc := { s.pc with hi := h } }

/-- R38, R199 | the ratio that the owner reads: that of the window that completes one second of windows -/
def reportRatio (s : State) (m : Rat) : State :=
  if s.pc.repT.isSome then
    if 1000 ≤ s.pc.wins + 1 then { s with pc := { s.pc with rep := some (m * 100).floor.toNat, repT := some s.wall, wins := 0 } }
    else { s with pc := { s.pc with wins := s.pc.wins + 1 } }
  else s

/-- R200 to R204 | a 1 ms window of the pace monitor ends; windows are counted while the timebase counts -/
def execMonitorWindowEnd (dt : Nat) (ratio : Rat) (s : State) : Out :=
  let s := advance s dt
  if !s.rf.run then .next s
  else
    let s := reportRatio s ratio
    let s := if s.pc.next.isSome then s
      else if s.pc.skip then { s with pc := { s.pc with skip := false } }
      else derate s ratio
    .next (if ratio < 1 / 2 then moduleFault s "F-PACE" false else s)

/-! ### References (R220 to R232) -/

/-- R225 | the state of the oven -/
def ovenName (s : State) : String :=
  match s.nv.variant with | .x => "ABSENT" | .o => if s.md.oven then "WARM" else "COLD"

/-- R225 | the source in use -/
def activeName (s : State) : String := match s.rf.active with | some a => a.name | none => "NONE"

/-- R225 -/
def execRef (h : Hdr) (s : State) : Out :=
  noram s (.ref h) { word := "REF", roles := [.o, .t], ro := true } h (fun s =>
    ok s [w "OK", w "REF", kw "SEL" s.nv.sel.name, kw "ACTIVE" (activeName s), kw "IN" s.rf.cls.name, kw "OVEN" (ovenName s),
      kb "WARM" s.md.warm, kw "LOCK" s.rf.lock.name])

/-- R512, R513 | series and gates in progress are abandoned when the reference switches or is lost -/
def abandonTmus (s : State) : State :=
  forEach [0, 1, 2, 3] s (fun s n => if (getTmu s n).busy || 0 < (getTmu s n).ended then abandonTmu s n else s)

/-- R227, R513 | every RUNNING deckle stops at its next quire boundary, every ARMED one at once; one that is on its way to ARMED
abandons its ARM (log 28) -/
def switchStops (s : State) : State :=
  forEach deckles s (fun s d =>
    let k := getDk s d
    let note := fun s => event s d .note [w "STOPPED", kw "CAUSE" "REFSWITCH"]
    if k.arming.isSome then
      let s := stopArmed (modDk s d (fun k => { k with arming := none })) d
      note (finishJob s (fun j => j == .arm d) [] (e433in s.rf.cls.name))
    else match k.st with
      | .armed => note (stopArmed s d)
      | .running => modSeq s d (fun q => { q with stops := q.stops ++ [.refswitch] })
      | _ => s)

/-- R227 | a switch to a source begins: deckles stop, and once they have, the loop leaves its source in holdover -/
def beginSwitch (s : State) (src : RefSrc) : State :=
  let s := abandonTmus (switchStops { s with nv := { s.nv with sel := src } })
  leaveSource { s with rf := { s.rf with moving := some src, loss := false } }

/-- R227 | a selection that is already in use -/
def refInUse (s : State) (src : RefSrc) : Bool := s.nv.sel = src && s.rf.active = some src && s.rf.lock = .locked

/-- R226, R240 | REF SELECT -/
def execRefSelect (h : Hdr) (src : RefSrc) (force : Bool) (s : State) : Out :=
  noram s (.refSelect h src force) { word := "REF", roles := [.o] } h (fun s => do
    need (src != .chain) (e400 3)
    need (!isSlave s) [w "E420", w "BADSTATE"]
    need (!(src = .int && s.nv.variant = .x)) (e419 3)
    if refInUse s src then ok s [w "OK", w "REF", kw "SEL" src.name, kw "ACTIVE" src.name]
    else
      need (!(src = .ext && !s.rf.usable)) (e433in s.rf.cls.name)
      need (force || !anyInUse s) e423
      .ok (beginSwitch s src, .later (.ref src false)))

/-- R227, R240 | the replies to the switches that have ended -/
def answerSwitches (s : State) : State :=
  let s := finishJobs s (fun j => match j with | .ref _ true => true | _ => false) [] [w "OK", w "CHAIN", kw "ROLE" "SLAVE"]
  [RefSrc.int, .ext, .chain].foldl (fun s r =>
    finishJobs s (fun j => j == .ref r false) [] [w "OK", w "REF", kw "SEL" s.nv.sel.name, kw "ACTIVE" (activeName s)]) s

/-- R217, R223, R227, R231 | the loop locks to the source that it moves to; one that still waits for deckles to stop has not moved -/
def execLoopLock (dt : Nat) (s : State) : Out :=
  let s := leaveSource (advance s dt)
  .next (match s.rf.moving with
    | none => s
    | some src =>
      if s.rf.lock = .locked then s
      else
      let fell := s.rf.loss && s.rf.lock = .holdover && src = .int
      let again := s.rf.lock != .unlocked
      let s := { s with rf := { s.rf with active := some src, lock := .locked, run := true, moving := none, hoT := none },
                        md := { s.md with refSwitch := if again then min (s.md.refSwitch + 1) 65535 else s.md.refSwitch },
                        pc := { s.pc with repT := if s.pc.repT.isNone then some s.wall else s.pc.repT } }
      let s := setWarm s (warmAtLock s src)
      let s := if fell then noteAll s [w "REF", kw "ACTIVE" "INT"] else s
      answerSwitches s)

/-- R227, R231 | the EXT that the loop moves to is lost before the lock: the HQ-48/O moves to INT, the HQ-48/X stays as it was -/
def extGone (s : State) (cls : RefIn) : State :=
  let s := { s with rf := { s.rf with cls := cls, usable := false, loss := true, moving := none } }
  match s.nv.variant with
  | .o => { s with rf := { s.rf with moving := some .int } }
  | .x => if s.rf.lock = .holdover then s else answerSwitches s

/-- R229, R240, R242 | deckles that a loss of the active reference stops: chain-group deckles of a slave with F-CHAIN, all others with
F-REF -/
def lossStops (s : State) : State :=
  forEach deckles s (fun s d =>
    let k := getDk s d
    if k.inUse then
      if isSlave s && k.act.group.isSome then detect s d .chain [w "CHAIN-LOST"] else detect s d .ref [w "REF-LOST"]
    else s)

/-- R242, R245 | the heartbeat is lost, if there was one, and the calibration lapses -/
def loseHeartbeat (s : State) : State :=
  { s with ch := { s.ch with hb := false, good := 0, agree := false, cal := false, defer := none, j4 := false },
           md := { s.md with chainLoss := if s.ch.hb ∨ s.ch.good ≠ 0 then min (s.md.chainLoss + 1) 65535 else s.md.chainLoss } }

/-- R221, R229, R231, R242 | the active EXT, whose REF-IN takes a class, or CHAIN reference is lost: holdover; the HQ-48/O moves to INT; a
switch that waits for its deckles to stop goes on; a slave that loses its lane loses the heartbeat -/
def refLoss (s : State) (cls : RefIn) : State :=
  let ext : Bool := s.rf.active = some .ext
  let s := if s.rf.active = some .chain then loseHeartbeat s else s
  let s := { s with rf := { s.rf with lock := .holdover, loss := s.rf.moving.isNone, hoT := some s.wall,
                                      moving := s.rf.moving.orElse (fun _ => if s.nv.variant = .o then some .int else none),
                                      cls := if ext then cls else s.rf.cls, usable := s.rf.usable && !ext },
                    md := { s.md with refLoss := min (s.md.refLoss + 1) 65535 } }
  abandonTmus (lossStops s)

/-- R221, R226, R229, R231 | REF-IN takes a class, and is usable once it has stayed in a window for 10 ms (`held`): locked before the
first lock under EXT on the HQ-48/X, told on the HQ-48/O after a loss; a REF-IN that is not usable loses the EXT in use, or the EXT that the
loop moves to -/
def execRefinUsable (dt : Nat) (obs : RefObs) (s : State) : Out :=
  let s := advance s dt
  let cls := obs.cls
  let good : Bool := obs.held && (cls = .m10 || cls = .m100)
  if s.rf.active = some .ext ∧ s.rf.lock = .locked ∧ !good then .next (refLoss s cls)
  else
    let was := s.rf.usable
    let s := { s with rf := { s.rf with cls := cls, usable := good } }
    if good ∧ !was ∧ s.nv.sel = .ext then
      match s.nv.variant with
      | .x => .next (if s.rf.lock = .unlocked ∧ s.rf.moving.isNone ∧ s.md.st ∉ [.off, .inReset, .powerOn, .boot] then
          { s with rf := { s.rf with moving := some .ext } } else s)
      | .o => .next (if s.rf.loss then noteAll s [w "REF", kw "IN" cls.name] else s)
    else .next (if s.nv.sel = .ext ∧ s.rf.moving = some .ext ∧ !good then extGone s cls else s)

/-- R229, R227 | the reference in use, or the EXT that the loop moves to, is lost -/
def execRefLost (dt : Nat) (s : State) : Out :=
  let s := advance s dt
  if s.rf.lock = .locked ∧ (s.rf.active = some .ext ∨ s.rf.active = some .chain) then .next (refLoss s .none)
  else if s.rf.moving = some .ext then .next (extGone s .none)
  else .next s

/-- R155, R232 | the outputs of a deckle off at once when the timebase holds; one that still runs stops there (log 29) -/
def holdDeckleOutputs (s : State) (d : Nat) : State :=
  let k := getDk s d
  if k.st.live || k.st = .faulted then outputsOff (if k.st = .running then stopDeckle s d else s) d else s

/-- R3, R4, R232 | 100 us of holdover after a loss on the HQ-48/X: the timebase holds -/
def execTimebaseHold (dt : Nat) (s : State) : Out :=
  let s := advance s dt
  match s.rf.hoT with
  | some t =>
    if s.nv.variant = .x ∧ s.rf.lock = .holdover ∧ s.rf.loss ∧ s.rf.moving.isNone ∧ t + 100 * Config.us ≤ s.wall then
      let s := { s with rf := { s.rf with run := false, lock := .held, active := none, hoT := none } }
      .next (answerSwitches (setWarm (forEach deckles s holdDeckleOutputs) false))
    else .next s
  | none => .next s

/-! ### TRIG-IN (R236, R237, R248) -/

/-- R236, R237 | a stamped edge starts a deckle -/
def trigInStart (s : State) (d t fine : Nat) : State :=
  event (incr (beginRun s d ((t + 35) * 1024 + fine) none) d 25) d .note [w "TRIGGERED", kt "TB" t, kn "FINE" fine]

/-- R236, R237 | what a stamped edge of a polarity does to a deckle: ARMED on it, the deckle starts; TRIG before the start, the edge wins -/
def trigInDeckle (src : Trig) (t f : Nat) (s : State) (d : Nat) : State :=
  let k := getDk s d
  if k.act.trig = src && k.arming.isNone then
    if k.st = .armed then trigInStart s d t f
    else match k.st, k.seq.trigAt with
      | .running, some u =>
        if t * 1024 + f < u && k.seq.nextP = 0 then
          let s := modSeq s d (fun q => { q with start := (t + 35) * 1024 + f, trigAt := none })
          event (startTimers s d ((t + 35) * 1024 + f)) d .note [w "TRIGGERED", kt "TB" t, kn "FINE" f]
        else s
      | _, _ => s
  else s

/-- R248 | the groups of the master that an edge of a polarity starts -/
def trigInGroups (src : Trig) (t f : Nat) (s : State) : State :=
  if s.nv.chain = 1 then (s.ch.groups.filter (fun e => e.2 = src)).foldl (fun s e => stampGroup s e.1 t f) s else s

/-- R236 | an edge of TRIG-IN, stamped to the fine step: deckles ARMED on its polarity, groups of the master, and units -/
def execTrigInEdge (dt : Nat) (rising : Bool) (fine : Nat) (s : State) : Out :=
  let s := advance s dt
  let src : Trig := if rising then .trigin else .triginF
  let t := now s
  let f := fine % 1024
  if !s.rf.run then .next s
  else
    let s := trigInGroups src t f (forEach deckles s (trigInDeckle src t f))
    .next (forEach deckles s (fun s d => startUnits s d src (after16 (t * 1024 + f))))

end Sys2Proof.Machine
end

