-- ==== Sys2Proof/Machine/ChainCmd.lean ====
section
/-! DEFINITION. The chain: roles, calibration, groups, frames on J3 and J4, and the load of a slave's timebase. -/

namespace Sys2Proof.Machine

/-! ### Commands (R240, R244, R246, R249) -/

def ChainRole.num : ChainRole → Nat | .off => 0 | .master => 1 | .slave => 2
def ChainRole.name : ChainRole → String | .off => "OFF" | .master => "MASTER" | .slave => "SLAVE"
def chainName (n : Nat) : String := if n = 1 then "MASTER" else if n = 2 then "SLAVE" else "OFF"

/-- R249 -/
def execChain (h : Hdr) (s : State) : Out :=
  noram s (.chain h) { word := "CHAIN", roles := [.o, .t], ro := true } h (fun s =>
    let base := [w "OK", w "CHAIN", kw "ROLE" (chainName s.nv.chain), kn "HOP" s.ch.hop, kw "CAL" (if s.ch.cal then "YES" else "NO"),
      kw "HB" (if s.ch.hb then "OK" else "LOST")]
    match (getLn s h.line).role with
    | .tenant d =>
      match (getDk s d).inForce.group with
      | some g => ok s (base ++ [kn "GROUP" g, w (onOff (tget? s.ch.groups g).isSome)])
      | none => ok s (base ++ [kw "GROUP" "NONE"])
    | _ => ok s (base ++ [kv "GROUPS" (listAtoms (s.ch.groups.map (fun e => [Atom.d e.1])))]))

/-- R240, R241, R245 | the role takes a value; a change lets the calibration lapse, and a new slave loads its timebase anew -/
def setRole (s : State) (r : ChainRole) : State :=
  if s.nv.chain = r.num then s
  else { s with nv := { s.nv with chain := r.num },
                ch := { s.ch with cal := false, hb := false, good := 0, agree := false, loaded := false, hop := 0, defer := none, due := [], sentT := none,
                                  j4 := false } }

/-- R240 -/
def execChainRole (h : Hdr) (r : ChainRole) (force : Bool) (s : State) : Out :=
  noram s (.chainRole h r force) { word := "CHAIN", roles := [.o] } h (fun s => do
    match r with
    | .slave =>
      if refInUse s .chain then ok (setRole s r) [w "OK", w "CHAIN", kw "ROLE" r.name]
      else
        need (force || !anyInUse s) e423
        .ok (beginSwitch (setRole s r) .chain, .later (.ref .chain true))
    | _ => ok (setRole s r) [w "OK", w "CHAIN", kw "ROLE" r.name])

/-- R244 -/
def execChainCal (h : Hdr) (s : State) : Out :=
  noram s (.chainCal h) { word := "CHAIN", roles := [.o] } h (fun s => do
    need (s.nv.chain = 1 && !anyInUse s) e423
    .ok (s, .later .cal))

/-- R246 -/
def execChainGroup (h : Hdr) (g : Nat) (on : Bool) (src : Option String) (s : State) : Out :=
  noram s (.chainGroup h g on src) { word := "CHAIN", roles := [.o] } h (fun s => do
    need (1 ≤ g ∧ g ≤ 15) (e419 3)
    let t ← match src with
      | some x => do
        need (s.nv.chain = 1) (e400 5)
        pick 5 [("TRIGIN", Trig.trigin), ("TRIGIN-F", .triginF), ("CMD", .cmd)] x
      | none => pure Trig.cmd
    need (!deckles.any (fun d => let k := getDk s d; k.inUse && k.act.group = some g)) e423
    ok { s with ch := { s.ch with groups := if on then tset s.ch.groups g t else tdel s.ch.groups g } }
      [w "OK", w "CHAIN", w "GROUP", { val := [.d g] }, w (onOff on)])

/-! ### Frames (R72, R239 to R243) -/

/-- R72 | J4 may carry frames: powered, out of reset, not in SAFE -/
def j4Ok (s : State) : Bool := match s.md.st with | .off | .inReset | .powerOn | .boot | .safe => false | _ => true

/-- R239 | bits [199:16] of a frame: SYNC, TYPE, HOP, TB, GROUP, ARG and RSV, the most significant first -/
def Frame.head (f : Frame) : Nat := (((((f.sync * 16 + f.ty) * 8 + f.hop) * 2 ^ 64 + f.tb) * 16 + f.group) * 2 ^ 64 + f.arg) * 2 ^ 29 + f.rsv

/-- R239 | the CRC of a frame, over bits [199:16] -/
def Frame.crcOf (f : Frame) : Nat := crc16 ((List.range 23).map (fun i => f.head / 256 ^ (22 - i) % 256))

/-- R239 | the 200 bits of a frame -/
def Frame.word (f : Frame) : Nat := f.head * 2 ^ 16 + f.crc

/-- R239 | a frame with its SYNC and CRC, as the module sends it -/
def Frame.sealed (f : Frame) : Frame :=
  let f := { f with sync := 0xB5E4 }
  { f with crc := f.crcOf }

/-- R239 | a frame that is received: its SYNC, its CRC and a TYPE that is not reserved -/
def Frame.valid (f : Frame) : Bool := f.sync = 0xB5E4 && f.crc = f.crcOf && [0, 2, 3].contains f.ty

/-- A frame leaves on J4. -/
def sendFrame (s : State) (f : Frame) : State :=
  if j4Ok s then { s with ch := { s.ch with sent := f.sealed :: s.ch.sent, j4 := true } } else s

/-- R239 | the master's next frame may leave: 625 ticks have passed since its latest -/
def frameTime (s : State) : Bool := match s.ch.sentT with | some t => t + 625 ≤ now s | none => true

/-- R239, R240 | every 625 ticks the master sends a frame: one that waits, else a heartbeat; either carries the count -/
def execChainFrameSend (dt : Nat) (s : State) : Out :=
  let s := advance s dt
  if s.nv.chain ≠ 1 ∨ !s.rf.run ∨ !j4Ok s ∨ !frameTime s then .next s
  else
    let s := { s with ch := { s.ch with sentT := some (now s) } }
    match s.ch.due with
    | f :: r => .next (sendFrame { s with ch := { s.ch with due := r } } { f with tb := now s })
    | [] => .next (sendFrame s { ty := 0, tb := now s })

/-- R239 | a slave re-drives a frame with its hop -/
def redrive (s : State) (f : Frame) : State :=
  let hop := (f.hop + 1) % 8
  sendFrame { s with ch := { s.ch with hop := hop } } { f with hop := hop }

/-- R241, R243 | the timebase of a slave is loaded; actions that lie behind the new count are late -/
def loadTb (s : State) (t : Nat) : State :=
  let s := { s with rf := { s.rf with tb := t % 2 ^ 64 }, ch := { s.ch with loaded := true, defer := none } }
  { s with dk := tmap s.dk (fun k => { k with ats := k.ats.map (fun a => if a.t < t % 2 ^ 64 then { a with late := true } else a) }) }

/-- R241, R243 | the second valid heartbeat in a row: the count is kept, loaded, or loaded later -/
def takeHeartbeat (s : State) (t : Nat) (agree : Bool) : State :=
  let s := { s with ch := { s.ch with hb := true } }
  if s.ch.loaded && agree then s
  else if anyInUse s then
    ownerEvent { s with ch := { s.ch with cal := false, defer := some ((t : Int) - now s) } } .note [w "CHAIN", w "TB-MISMATCH"]
  else loadTb s t

/-- R241, R243 | a heartbeat reaches a slave: re-driven, and once the loop has locked to the lane two in a row count -/
def execHeartbeatFrame (dt : Nat) (f : Frame) (s : State) : Out :=
  let s := advance s dt
  if !isSlave s then .next s
  else if !f.valid ∨ f.ty ≠ 0 then .next { s with ch := { s.ch with good := 0 } }
  else
    let s := redrive s f
    if s.rf.lock = .locked ∧ s.rf.active = some .chain ∧ !s.ch.hb then
      let t := f.tb + Config.hopDelay
      let near : Bool := now s ≤ t + 1 ∧ t ≤ now s + 1
      let agree := near && (s.ch.good = 0 || s.ch.agree)
      if s.ch.good = 0 then .next { s with ch := { s.ch with good := 1, agree := agree } }
      else .next (takeHeartbeat { s with ch := { s.ch with good := 2, agree := agree } } t agree)
    else .next s

/-- R243 | a deferred load takes place once no deckle is ARMED or RUNNING -/
def execChainTbLoad (dt : Nat) (s : State) : Out :=
  let s := advance s dt
  match s.ch.defer with
  | some x => .next (if anyInUse s then s else loadTb s ((now s : Int) + x).toNat)
  | none => .next s

/-- R239, R248 | a group-start frame reaches a slave -/
def execGroupStartFrame (dt : Nat) (f : Frame) (s : State) : Out :=
  let s := advance s dt
  if !isSlave s ∨ !f.valid ∨ f.ty ≠ 2 then .next s
  else
    let s := redrive s f
    .next (if (tget? s.ch.groups f.group).isSome then groupStart s f.group f.arg (f.fine % 1024) else s)

/-- R244 | calibration: the master sends what it measured and answers; a slave adds its own delay and passes it on, or takes
no part -/
def execCalibrationFrame (dt : Nat) (f : Frame) (s : State) : Out :=
  let s := advance s dt
  if !f.valid ∨ f.ty ≠ 3 then .next s
  else if s.nv.chain = 1 then
    if hasJob s (fun j => j == .cal) then
      let s := sendFrame { s with ch := { s.ch with cal := true, delay := 0, hop := 0 } } { ty := 3, tb := now s, arg := f.arg }
      .next (finishJobs s (fun j => j == .cal) [] [w "OK", w "CHAIN", w "CAL"])
    else .next s
  else if isSlave s then
    if anyInUse s then .next (ownerEvent { s with ch := { s.ch with cal := false } } .note [w "CHAIN-CAL", w "SKIPPED"])
    else
      let (n, s) := draw s
      let s := { s with ch := { s.ch with cal := true, delay := f.arg } }
      let s := redrive s { f with arg := (f.arg + (Config.value n).toNat) % 2 ^ 64 }
      .next (ownerEvent s .note [w "CHAIN-CAL", w "DONE", kn "HOP" s.ch.hop])
  else .next s

/-- R242, R245 | lane 0: no valid frame for 2 us, and chain-group deckles fault; any other lane: the reference lane as well, and all
deckles stop -/
def execChainLost (dt : Nat) (lane : Nat) (s : State) : Out :=
  let s := advance s dt
  if !isSlave s then .next s
  else
    let s := loseHeartbeat s
    if 0 < lane ∧ s.rf.lock = .locked ∧ s.rf.active = some .chain then .next (refLoss s .none)
    else .next (forEach deckles s (fun s d =>
      let k := getDk s d
      if k.inUse && k.act.group.isSome then detect s d .chain [w "CHAIN-LOST"] else s))

end Sys2Proof.Machine
end

