-- ==== Sys2Proof/Machine/Trace.lean ====
section
/-! DEFINITION. Trace: the slots that drain the FIFOs into rings and the trace port, who sees a ring, and the TRACE commands. -/

namespace Sys2Proof.Machine

/-! ### Packets (R539 to R546) -/

/-- R541 | the 16 bytes of a packet -/
def Packet.bytes (p : Packet) : List Nat :=
  let b := ((p.ty % 16 * 16 + (if p.lost then 8 else 0) + p.d % 8) :: leNats 4 p.t) ++ p.body.take 10 ++ List.replicate (10 - p.body.length) 0
  b ++ [crc8 b]

/-- R541 | the SYNC packet of a deckle's slot -/
def syncBytes (d : Nat) : List Nat := let b := (0xF0 + d % 8) :: List.replicate 14 0x5A; b ++ [crc8 b]

/-- R39, R41, R540 | whether a packet of a deckle reaches the trace port -/
def toPort (s : State) (k : Deckle) (p : Packet) : Bool :=
  s.md.st != .safe && (k.trPort || (match k.trEnd with | some t => decide (p.t ≤ t) | none => false))

/-- R546 | a packet enters a deckle's ring of 1,024 under the next sequence number -/
def ringAdd (x : Trace) (p : Packet) : Trace :=
  let r := x.ring ++ [(x.nextSeq, p)]
  { x with ring := r.drop (r.length - 1024), nextSeq := (x.nextSeq + 1) % 2 ^ 32 }

/-- R538 | what the trace port carries, while it is active -/
def putSlot (s : State) (d : Nat) (b : List Nat) : State := if s.ph.port then { s with ph := { s.ph with slot := some (d, b) } } else s

/-- R539, R540, R545 | the slot of a deckle: its FIFO drains one packet into its ring and, while the deckle is mapped, into the slot -/
def drainSlot (s : State) (d : Nat) : State :=
  let k := getDk s d
  match k.trace.fifo with
  | p :: r => putSlot (setDk s d { k with trace := ringAdd { k.trace with fifo := r } p }) d (if toPort s k p then p.bytes else syncBytes d)
  | [] => putSlot s d (syncBytes d)

/-- R539, R542 | a slot starts: it belongs to deckle (c div 32) mod 8, which sends a TIME packet where none has been sent for a second -/
def execTraceSlot (dt : Nat) (s : State) : Out :=
  let s := advance s dt
  let d := now s / 32 % 8
  .next (if s.rf.run && now s % 32 = 0 then
    drainSlot (if (getDk s d).st.isOpen && timeDue (getDk s d) (now s) then modDk s d (putTime d (now s)) else s) d
  else s)

/-! ### Viewers (R40, R41, R547) -/

/-- R40 | both grants are in force -/
def seesNow (k : Deckle) (n : Nat) : Bool := k.obT.contains n && k.obO.contains n && k.st.isOpen

/-- R41, R547 | whether an observer sees a packet stamped at a tick -/
def seesAt (k : Deckle) (n t : Nat) : Bool :=
  k.obIv.any (fun e => e.1 == n && e.2.1 ≤ t && (match e.2.2 with | some u => decide (t ≤ u) | none => true))

/-- R40, R41 | the grants of an observer change: an interval in which both are in force begins or ends -/
def regrant (s : State) (d n : Nat) (f : Deckle → Deckle) : State :=
  modDk s d (fun k =>
    let k' := f k
    let was := k.obT.contains n && k.obO.contains n
    let is := k'.obT.contains n && k'.obO.contains n
    { k' with obIv :=
        if is && !was then k.obIv ++ [(n, now s, none)]
        else if was && !is then k.obIv.map (fun e => if e.1 == n && e.2.2.isNone then (n, e.2.1, some (now s)) else e)
        else k.obIv })

/-- R547, R552 | the deckle that a viewer's line names, or its own; an observer must name one, at a token -/
def viewed (s : State) (h : Hdr) (pos : Nat) (d : Option Nat) : Res Nat :=
  match (getLn s h.line).role, d with
  | .tenant e, none => .ok e
  | .tenant e, some d => if d = e then .ok d else .error e403
  | .observer n, some d => if d < 8 && seesNow (getDk s d) n then .ok d else .error e403
  | _, none => .error (e400 pos)
  | _, _ => .error e403

/-- R547 | the packets of a ring that a viewer receives -/
def packetsFor (s : State) (h : Hdr) (d : Nat) : List (Nat × Packet) :=
  let k := getDk s d
  match (getLn s h.line).role with
  | .observer n => k.trace.ring.filter (fun e => seesAt k n e.2.t)
  | _ => k.trace.ring

/-- R546, R552 | some packets from a sequence number on, at most `m`, and the number that follows the last one -/
def readRing (s : State) (h : Hdr) (d : Nat) (i : Option Nat) (m : Nat) : List (Nat × Packet) × Nat :=
  let l := ((packetsFor s h d).filter (fun e => i.getD 0 ≤ e.1)).take m
  (l, match l.getLast? with | some e => (e.1 + 1) % 2 ^ 32 | none => (getDk s d).trace.nextSeq)

def viewForm : Form := { word := "TRACE", roles := [.t, .b], ro := true }

/-- R544 | the kinds of a selection -/
def selKinds (x : Trace) : List Atom :=
  listAtoms (((if x.ustep then ["USTEP"] else []) ++ (if x.waitk then ["WAIT"] else []) ++ (if x.routine then ["ROUTINE"] else []) ++
    (if x.disp then ["DISP"] else []) ++ (if x.state then ["STATE"] else [])).map (fun y => [Atom.s y]))

/-- R552 -/
def execTrace (h : Hdr) (d : Option Nat) (s : State) : Out :=
  noram s (.trace h d) viewForm h (fun s => do
    let d ← viewed s h 2 d
    let k := getDk s d
    ok s [w "OK", w "TRACE", dTok d, kv "SELECT" (selKinds k.trace),
      kn "FIRST" (match k.trace.ring with | e :: _ => e.1 | [] => k.trace.nextSeq), kn "NEXT" k.trace.nextSeq, kn "LOST" (tget k.cnt 35 0),
      kw "PORT" (onOff k.trPort)])

/-- R541 | bytes of a packet's body as a number -/
def bodyNum (p : Packet) (i n : Nat) : Nat := ((p.body.drop i).take n).foldr (fun b a => b + 256 * a) 0

/-- R541 | a STATE packet's state -/
def stateName (n : Nat) : String :=
  match n with | 0 => "CLOSED" | 1 => "OPEN" | 2 => "HELD" | 3 => "ARMED" | 4 => "RUNNING" | 5 => "STOPPED" | _ => "FAULTED"

/-- R541, R552 | a packet decoded -/
def trLine (d : Nat) (e : Nat × Packet) : Line :=
  let p := e.2
  let head := fun (x : String) => [w "TR", { val := [.d (e.1 : Nat)] }, w x, dTok d, kv "TBL" [.hx (p.t % 2 ^ 32) 8]]
  let step := fun (x : String) =>
    head x ++ [kv "UADDR" [.hx (bodyNum p 0 2 % 2 ^ 14) 4], kv "NADDR" [.hx (bodyNum p 2 2 % 4096) 3], kn "P" (bodyNum p 2 2 / 4096),
      kv "VAL" (if bodyNum p 0 2 / 2 ^ 14 % 2 = 1 then [.s "NONE"] else [.hx (bodyNum p 4 4) 8]), kv "FLAGS" [.hx (bodyNum p 8 2) 4]]
  (match p.ty with
    | 1 => step "USTEP"
    | 2 => step "WAITB"
    | 3 => step "WAITE"
    | 4 => head "ROUTINE" ++ [kv "ID" [.hx (bodyNum p 0 2) 4], kn "OP" (bodyNum p 2 3), kn "STEPS" (bodyNum p 5 2)]
    | 5 => head "DISP" ++ [kn "PA" (bodyNum p 0 3), kn "N" (bodyNum p 3 2 + 1), kn "RQN" (bodyNum p 5 5 % 2 ^ 39)] ++
        (if 2 ^ 39 ≤ bodyNum p 5 5 then [w "CONT"] else [])
    | 6 => head "STATE" ++ [kw "STATE" (stateName (bodyNum p 0 1)), kn "CAUSE" (bodyNum p 1 1), kn "RQN" (bodyNum p 2 6)]
    | _ => [w "TR", { val := [.d (e.1 : Nat)] }, w "TIME", dTok d, kt "TB" (bodyNum p 0 4 * 2 ^ 32 + p.t % 2 ^ 32)]) ++
  (if p.lost then [w "LOST"] else [])

/-- R552 | the position of the field N after a deckle and FROM, where they stand -/
def posN (d i : Option Nat) : Nat := 3 + (if d.isSome then 1 else 0) + (if i.isSome then 1 else 0)

/-- R552 | FROM and N of a form, with the most that N may be -/
def ringArgs (d i n : Option Nat) (most : Nat) : Res Nat := do
  need (i.getD 0 < 2 ^ 32) (e419 (posN d none))
  let m := n.getD most
  need (1 ≤ m ∧ m ≤ most) (e419 (posN d i))
  pure m

/-- R552, R547 -/
def execTraceShow (h : Hdr) (d i n : Option Nat) (s : State) : Out :=
  noram s (.traceShow h d i n) viewForm h (fun s => do
    let m ← ringArgs d i n 256
    let d ← viewed s h 3 d
    let r := readRing s h d i m
    okBody s (r.1.map (trLine d)) [w "OK", w "TRACE", w "SHOW", dTok d, kn "N" r.1.length, kn "NEXT" r.2])

/-- R552, R547 -/
def execTraceRead (h : Hdr) (d i n : Option Nat) (s : State) : Out :=
  noram s (.traceRead h d i n) viewForm h (fun s => do
    let m ← ringArgs d i n 1024
    let d ← viewed s h 3 d
    let r := readRing s h d i m
    okBody s (if r.1.isEmpty then [] else blkLines (r.1.flatMap (fun e => e.2.bytes)))
      [w "OK", w "TRACE", w "READ", dTok d, kn "N" r.1.length, kn "NEXT" r.2])

/-! ### Selection and grants (R39 to R41, R544) -/

/-- R544 -/
def execTraceSelect (h : Hdr) (f : TraceSel) (s : State) : Out :=
  noram s (.traceSelect h f) (tenantForm "TRACE") h (fun s => do
    need (!f.kinds.isEmpty && f.kinds.all ["USTEP", "WAIT", "ROUTINE", "DISP", "STATE"].contains) (e400 3)
    need (match f.range with | some (a, b) => decide (a.val ≤ b.val ∧ b.val < 2 ^ 14) | none => true) (e419 4)
    let d := myDk s h
    ok (modDk s d (fun k => { k with trace := { k.trace with
        ustep := f.kinds.contains "USTEP", waitk := f.kinds.contains "WAIT", routine := f.kinds.contains "ROUTINE", disp := f.kinds.contains "DISP",
        state := f.kinds.contains "STATE", range := f.range.map (fun r => (r.1.val, r.2.val)) } })) [w "OK", w "TRACE", w "SELECT", dTok d])

/-- R39 -/
def execTraceGrantPort (h : Hdr) (s : State) : Out :=
  noram s (.traceGrantPort h) (tenantForm "TRACE") h (fun s => do
    let d := myDk s h
    ok (modDk s d (fun k => { k with trGrant := true })) [w "OK", w "TRACE", w "GRANT", dTok d, w "PORT"])

/-- R39, R41 | the mapping ends with the grant; packets stamped before still reach the port -/
def execTraceRevokePort (h : Hdr) (s : State) : Out :=
  noram s (.traceRevokePort h) (tenantForm "TRACE") h (fun s => do
    let d := myDk s h
    ok (modDk s d (fun k => { k with trGrant := false, trPort := false, trEnd := if k.trPort then some (now s) else k.trEnd }))
      [w "OK", w "TRACE", w "REVOKE", dTok d, w "PORT"])

/-- An observer by its name. -/
def obTok (n : Nat) : Tok := { val := [.s "OB", .d n] }

/-- R40 -/
def execTraceGrantObserver (h : Hdr) (n : Nat) (s : State) : Out :=
  noram s (.traceGrantObserver h n) (tenantForm "TRACE") h (fun s => do
    need (n < 8) (e419 3)
    let d := myDk s h
    ok (regrant s d n (fun k => { k with obT := sortNat (n :: k.obT) })) [w "OK", w "TRACE", w "GRANT", dTok d, obTok n])

/-- R40, R41 -/
def execTraceRevokeObserver (h : Hdr) (n : Nat) (s : State) : Out :=
  noram s (.traceRevokeObserver h n) (tenantForm "TRACE") h (fun s => do
    need (n < 8) (e419 3)
    let d := myDk s h
    ok (regrant s d n (fun k => { k with obT := k.obT.filter (· != n) })) [w "OK", w "TRACE", w "REVOKE", dTok d, obTok n])

/-- R40 -/
def execTraceEnable (h : Hdr) (d n : Nat) (s : State) : Out :=
  noram s (.traceEnable h d n) (ownerForm "TRACE") h (fun s => do
    need (d < 8) (e419 3)
    need (n < 8) (e419 4)
    ok (regrant s d n (fun k => { k with obO := sortNat (n :: k.obO) })) [w "OK", w "TRACE", w "ENABLE", dTok d, obTok n])

/-- R40, R41 -/
def execTraceDisable (h : Hdr) (d n : Nat) (s : State) : Out :=
  noram s (.traceDisable h d n) (ownerForm "TRACE") h (fun s => do
    need (d < 8) (e419 3)
    need (n < 8) (e419 4)
    ok (regrant s d n (fun k => { k with obO := k.obO.filter (· != n) })) [w "OK", w "TRACE", w "DISABLE", dTok d, obTok n])

/-- R39, R552 -/
def execTracePort (h : Hdr) (d : Nat) (on : Bool) (s : State) : Out :=
  noram s (.tracePort h d on) (ownerForm "TRACE") h (fun s => do
    need (d < 8) (e419 3)
    need (getDk s d).trGrant e403
    ok (modDk s d (fun k => { k with trPort := on })) [w "OK", w "TRACE", w "PORT", dTok d, w (onOff on)])

end Sys2Proof.Machine
end

