-- ==== Sys2Proof/Machine/Count.lean ====
section
/-! DEFINITION. The COUNT commands, and the counters and metering that are updated once per second. -/

namespace Sys2Proof.Machine

/-! ### Names (R549, R551) -/

/-- R549 | the names of the deckle counters -/
def countNames : List String :=
  ["RUNQ", "SHEETS", "FAILSHEETS", "RECORDS", "BROKELOST", "CAPTURES", "CAPLOST", "STEPS", "NULLSTEPS", "CSTEPS", "WAITTICKS",
   "DISPATCHES", "MATCHREPS", "MINLEAD", "MSTACKMAX", "OPSTACKMAX", "EVDONE", "EVFAULT", "EVLIMIT", "EVNOTE", "EVLOST", "UEVENTS",
   "SBE", "ATDONE", "PRESSES", "TRIGS"] ++ ["MARK0", "MARK1", "MARK2", "MARK3", "MARK4", "MARK5", "MARK6", "MARK7", "DPSCLAMP",
   "TRACELOST", "TMU0", "TMU1", "TMU2", "TMU3", "ADC0", "ADC1", "ADC2", "ADC3", "ADC4", "ADC5", "ADC6", "ADC7"]

/-- R551 | the names of the module counters, from 48 on -/
def moduleNames : List String :=
  ["UPTIME", "STARTS", "CTEMP", "BTEMP", "REFLOSS", "REFSWITCH", "CHAINLOSS", "VRELOAD", "WITHDRAWN", "ARB", "PACE", "WARM", "STFAILED",
   "LOCKSTATE", "CHAINHOP", "CHAINCAL"]

/-- R552 | the counters that a list at a token names, inside a span, in the order written; all of the span where it names none -/
def countList (pos lo hi : Nat) (l : Option (List (Nat × Nat))) : Res (List Nat) :=
  match l with
  | none => .ok ((List.range (hi + 1 - lo)).map (fun i => lo + i))
  | some r => do
    need (!r.isEmpty && r.all (fun e => lo ≤ e.1 && e.1 ≤ e.2 && e.2 ≤ hi)) (e419 pos)
    pure (r.flatMap (fun e => (List.range (e.2 + 1 - e.1)).map (fun i => e.1 + i))).eraseDups

/-! ### Deckle counters (R549, R550, R552) -/

/-- R549 | a counter of a deckle as a snapshot shows it; null steps come from the speed of the fabric, which is open -/
def countValue (s : State) (k : Deckle) (null : Nat) (i : Nat) : Nat :=
  let v := tget k.cnt i 0
  if i = 8 then null
  else if i = 10 then min (v + (if k.thr.wait.isSome then now s - k.thr.waitT else 0)) (2 ^ 48 - 1)
  else if 36 ≤ i ∧ i < 40 then (if k.grant.tmu.contains (i - 36) then v else 0)
  else if 40 ≤ i ∧ i < 48 then (if k.grant.adc.contains (i - 40) then v else 0)
  else v

/-- R552 | a counter line -/
def ctLine (i : Nat) (name : String) (v : Int) : Line := [w "CT", { val := [.d (i : Nat)] }, { key := name, val := [.d v] }]

/-- R549, R552, R40 -/
def execCount (h : Hdr) (d : Option Nat) (l : Option (List (Nat × Nat))) (s : State) : Out :=
  noram s (.count h d l) { word := "COUNT", roles := [.t, .b], ro := true } h (fun s => do
    let c ← countList (if d.isSome then 3 else 2) 0 47 l
    let d ← viewed s h 2 d
    let (n, s) := if c.contains 8 then draw s else (0, s)
    let k := getDk s d
    okBody s (c.map (fun i => ctLine i ((countNames[i]?).getD "") (countValue s k (Config.value n).toNat i)))
      [w "OK", w "COUNT", dTok d, kn "N" c.length, kt "TB" (now s)])

/-- R550, R587 -/
def execCountClear (h : Hdr) (l : Option (List (Nat × Nat))) (s : State) : Out :=
  noram s (.countClear h l) (tenantForm "COUNT") h (fun s => do
    let c ← countList 3 0 47 l
    let d := myDk s h
    inSt (getDk s d) anySt
    let z := c.filter (fun i => !(2 ≤ i && i ≤ 6))
    ok (modThr (modDk s d (zeroCounts z)) d (fun t => if z.contains 10 then { t with waitT := now s } else t))
      [w "OK", w "COUNT", w "CLEAR", dTok d, kn "N" z.length])

/-! ### Module counters and metering (R14, R551) -/

/-- R551 | LOCKSTATE -/
def lockCode : Lock → Nat | .locked => 0 | .holdover => 1 | _ => 2

/-- R551 | the module counters, 48 to 63, with the temperatures read -/
def moduleCounts (s : State) (die board : Int) : List Int :=
  let n := fun (x w : Nat) => Int.ofNat (min x (2 ^ w - 1))
  let t := fun (x : Int) => max (-128) (min 127 x)
  [n (match s.md.endT with | some e => (s.wall - e) / Config.sec | none => 0) 32, n s.nv.starts 32, t die, t board, n s.md.refLoss 16,
   n s.md.refSwitch 16, n s.md.chainLoss 16, n s.md.vreload 16, n s.md.withdrawn.length 8, n s.nv.arb 8, n s.nv.pace.num 2,
   n (if s.md.warm then 1 else 0) 1, n (failedCount s) 8, n (lockCode s.rf.lock) 2,
   n (if s.nv.chain = 0 then 15 else s.ch.hop) 4, n (if s.ch.cal then 1 else 0) 1]

/-- R14, R194, R195 | steps used in a second as a percentage of the steps that the fabric gave a deckle's share: its floor at a pace, and
an excess that no rule bounds (log 79) -/
def sharePct (p : Pace) (share used excess : Nat) : Nat :=
  if used = 0 then 0 else min 100 (roundRat (100 * used / ((p.floor * share / 8 + excess : Nat) : Rat))).toNat

/-- R14 | metering of a deckle: its run time, and its steps of the last second -/
def meter (s : State) (d : Nat) : State :=
  let (n, s) := draw s
  modDk s d (fun k =>
    { k with meterMs := k.ran s.wall / Config.ms, used := 0,
             stepsPct := sharePct s.pc.now k.grant.share k.used (Config.value n).toNat })

/-- R371, R442 | dies and power stages that have cooled: FE-WARM may be sent again below 105 degrees, ARM is no longer refused
below 100 (log 31) -/
def cooled (s : State) (m : Temps) : State :=
  let s := forEach (numbered 0 m.fe) s (fun s e => modFe s e.1 (fun f => { f with warm := f.warm && 105 ≤ e.2, hot := f.hot && 100 ≤ e.2 }))
  forEach (numbered 0 m.dps) s (fun s e => modDps s e.1 (fun x => { x with hot := x.hot && 100 ≤ e.2 }))

/-- R14, R37, R551 | once per second the module counters and the metering are taken -/
def execModuleCounterUpdate (dt : Nat) (m : Temps) (s : State) : Out :=
  let s := advance s dt
  let early : Bool := match s.md.cntT with | some t => decide (s.wall < t + Config.sec) | none => false
  .next (if early then s else
    let s := cooled s m
    deckles.foldl meter { s with md := { s.md with cnt := numbered 48 (moduleCounts s m.die m.board), cntT := some s.wall } })

/-- R551 | before the first update of a start the values are those of the moment, with open temperatures -/
def execCountModule (h : Hdr) (l : Option (List (Nat × Nat))) (s : State) : Out :=
  noram s (.countModule h l) { word := "COUNT", roles := allRoles, ro := true } h (fun s => do
    let c ← countList 3 48 63 l
    let (n, s) := if s.md.cntT.isNone then draw s else (0, s)
    let x := Config.value n
    let v : Tab Int := if s.md.cntT.isNone then numbered 48 (moduleCounts s (x.extractLsb' 0 8).toInt (x.extractLsb' 8 8).toInt) else s.md.cnt
    okBody s (c.map (fun i => ctLine i ((moduleNames[i - 48]?).getD "") (tget v i 0)))
      [w "OK", w "COUNT", w "MODULE", kn "N" c.length, kt "TB" (now s)])

end Sys2Proof.Machine
end

