-- ==== Sys2Proof/Machine/Events.lean ====
section
/-! DEFINITION. The EVENT commands: the mapping of physical lines, tenant consent, and the end of EVT pulses. -/

namespace Sys2Proof.Machine

/-! ### Mapping (R529 to R532) -/

/-- R529 | the name of a physical line -/
def physName : PhysLine → List Atom
  | .evt n => [.s "EVT", .d (n : Nat)]
  | .trigOut n => [.s "TRIG-OUT", .d (n : Nat)]
  | .failOut => [.s "FAIL-OUT"]
  | .mk n => [.s "MK", .d (n : Nat)]

/-- R585 | the numbers of the physical lines -/
def PhysLine.known : PhysLine → Bool
  | .evt n | .trigOut n => n < 4
  | .failOut => true
  | .mk n => n < 2

/-- R529 | the name of a source -/
def mapSrcName : Option MapSrc → List Atom
  | some (.deckle d) => [.s "D", .d (d : Nat)]
  | some .modl => [.s "MODULE"]
  | none => [.s "NONE"]

/-- R529 | the reply of a mapping -/
def mapReply (l : PhysLine) (m : MapSrc) : Line := [w "OK", w "EVENT", w "MAP", { val := physName l }, kv "SRC" (mapSrcName (some m))]

/-- R39, R529 | a line and a deckle that a mapping names: both exist, and the deckle's tenant has consented -/
def mapArgs (s : State) (l : PhysLine) (d : Nat) : Res Unit := do
  need l.known (e419 3)
  need (d < 8) (e419 4)
  need (getDk s d).evGrant e403

/-- R529 | an EVT line gets a mapping; HOLD of the mapping it replaces is released, a pulse in progress completes -/
def putEvt (s : State) (n : Nat) (m : Option MapSrc) (cls : List EvClass) (hold : Bool) : State :=
  modEvt s n (fun e => { e.letGo with src := m, cls := cls, hold := hold })

/-- R529, R530 -/
def execEventMapEvt (h : Hdr) (n d : Nat) (cls : List EvClass) (hold : Bool) (s : State) : Out :=
  noram s (.eventMapEvt h n d cls hold) (ownerForm "EVENT") h (fun s => do
    need (!cls.isEmpty) (e400missing "CLASS")
    mapArgs s (.evt n) d
    ok (putEvt s n (some (.deckle d)) cls hold) (mapReply (.evt n) (.deckle d)))

/-- R529, R530 | a module source has only FAULT and NOTE events -/
def execEventMapModule (h : Hdr) (n : Nat) (cls : List EvClass) (hold : Bool) (s : State) : Out :=
  noram s (.eventMapModule h n cls hold) (ownerForm "EVENT") h (fun s => do
    need (!cls.isEmpty) (e400missing "CLASS")
    need (n < 4) (e419 3)
    need (!(cls.contains .done || cls.contains .limit)) (e419 5)
    ok (putEvt s n (some .modl) cls hold) (mapReply (.evt n) .modl))

/-- R529, R531 -/
def execEventMapTrigOut (h : Hdr) (n d m : Nat) (s : State) : Out :=
  noram s (.eventMapTrigOut h n d m) (ownerForm "EVENT") h (fun s => do
    need (m < 8) (e419 5)
    mapArgs s (.trigOut n) d
    ok { s with ph := { s.ph with tout := tset s.ph.tout n (d, m) } } (mapReply (.trigOut n) (.deckle d)))

/-- R389, R529 -/
def execEventMapFailOut (h : Hdr) (d : Nat) (s : State) : Out :=
  noram s (.eventMapFailOut h d) (ownerForm "EVENT") h (fun s => do
    mapArgs s .failOut d
    ok (putFailOut s (some d)) (mapReply .failOut (.deckle d)))

/-- R458, R529 | MKn follows AUXn, which the deckle must hold -/
def execEventMapMk (h : Hdr) (n d : Nat) (s : State) : Out :=
  noram s (.eventMapMk h n d) (ownerForm "EVENT") h (fun s => do
    need (n < 2) (e419 3)
    need (d < 8 && (getDk s d).grant.aux.contains n) (e419 4)
    mapArgs s (.mk n) d
    ok { s with ph := { s.ph with mkm := tset s.ph.mkm n d } } (mapReply (.mk n) (.deckle d)))

/-- R529 | a line is released or low: its mapping ends, a pulse in progress completes -/
def unmapLine (s : State) : PhysLine → State
  | .evt n => putEvt s n none [] false
  | .trigOut n => { s with ph := { s.ph with tout := tdel s.ph.tout n } }
  | .failOut => putFailOut s none
  | .mk n => { s with ph := { s.ph with mkm := tdel s.ph.mkm n } }

/-- R529 -/
def execEventUnmap (h : Hdr) (l : PhysLine) (s : State) : Out :=
  noram s (.eventUnmap h l) (ownerForm "EVENT") h (fun s => do
    need l.known (e419 3)
    ok (unmapLine s l) [w "OK", w "EVENT", w "UNMAP", { val := physName l }])

/-- R529, R530 | a HOLD line is released, by the owner or by the tenant of the deckle it is mapped to -/
def execEventClear (h : Hdr) (n : Nat) (s : State) : Out :=
  noram s (.eventClear h n) { word := "EVENT", roles := [.o, .t] } h (fun s => do
    need (n < 4) (e419 3)
    let e := getEvt s n
    match (getLn s h.line).role with
    | .tenant d => need (e.src = some (.deckle d)) e403
    | _ => pure ⟨⟩
    ok (if e.hold then modEvt s n EvtSt.letGo else s) [w "OK", w "EVENT", w "CLEAR", { val := physName (.evt n) }])

/-! ### Reports -/

/-- R529 | one line for each physical line that follows a source a viewer may see -/
def mapLines (s : State) (see : Option MapSrc → Bool) : List Line :=
  ([0, 1, 2, 3].filter (fun n => see (getEvt s n).src)).map (fun n =>
      let e := getEvt s n
      [w "EV", { val := physName (.evt n) }, kv "SRC" (mapSrcName e.src), kv "CLASS" (listAtoms (e.cls.map (fun c => [Atom.s c.name]))),
        kw "MODE" (if e.hold then "HOLD" else "PULSE"), kw "LEVEL" (if e.low then "LOW" else "HIGH")]) ++
  ([0, 1, 2, 3].filter (fun n => see ((tget? s.ph.tout n).map (fun p => .deckle p.1)))).map (fun n =>
      let p := tget? s.ph.tout n
      [w "EV", { val := physName (.trigOut n) }, kv "SRC" (mapSrcName (p.map (fun q => .deckle q.1)))] ++
        (match p with | some (_, m) => [kv "MARK" [.s "M", .d (m : Nat)]] | none => [])) ++
  (if see (s.ph.fo.map .deckle) then
      [[w "EV", { val := physName .failOut }, kv "SRC" (mapSrcName (s.ph.fo.map .deckle))]] else []) ++
  ([0, 1].filter (fun n => see ((tget? s.ph.mkm n).map .deckle))).map (fun n =>
      [w "EV", { val := physName (.mk n) }, kv "SRC" (mapSrcName ((tget? s.ph.mkm n).map .deckle))])

/-- R529 | the owner sees every line, a tenant its grant and the lines mapped to its deckle -/
def execEventShow (h : Hdr) (s : State) : Out :=
  noram s (.eventShow h) { word := "EVENT", roles := [.o, .t], ro := true } h (fun s => do
    let b : List Line := match (getLn s h.line).role with
      | .tenant d => [w "EV", dTok d, kw "GRANT" (if (getDk s d).evGrant then "PORT" else "NONE")] :: mapLines s (fun m => m == some (.deckle d))
      | _ => mapLines s (fun _ => true)
    okBody s b [w "OK", w "EVENT", w "SHOW", kn "N" b.length])

/-! ### Consent (R39, R532) -/

/-- R39 -/
def execEventGrantPort (h : Hdr) (s : State) : Out :=
  noram s (.eventGrantPort h) (tenantForm "EVENT") h (fun s => do
    let d := myDk s h
    ok (modDk s d (fun k => { k with evGrant := true })) [w "OK", w "EVENT", w "GRANT", dTok d, w "PORT"])

/-- R39, R532 -/
def execEventRevokePort (h : Hdr) (s : State) : Out :=
  noram s (.eventRevokePort h) (tenantForm "EVENT") h (fun s => do
    let d := myDk s h
    ok (unmapDeckle (modDk s d (fun k => { k with evGrant := false })) d) [w "OK", w "EVENT", w "REVOKE", dTok d, w "PORT"])

/-! ### Pulses (R530) -/

/-- R530 | a pulse ends 1.0 us, at least 0.9 us, after it began -/
def execEvtPulseEnd (dt : Nat) (n : Fin 4) (s : State) : Out :=
  let s := advance s dt
  let e := getEvt s n
  .next (match e.relT with
    | some t => if e.low && e.pulse && t ≤ s.wall + 125 then modEvt s n (fun e => { e with low := false, pulse := false, relT := some s.wall }) else s
    | none => s)

end Sys2Proof.Machine
end

