-- ==== Sys2Proof/Machine/MicroCmd.lean ====
section
/-! DEFINITION. The MICRO commands: stored images, the customer slices, the dispatch table, and the analyzer's report. -/

namespace Sys2Proof.Machine

/-! ### Images (R306 to R308) -/

def ImgKind.name : ImgKind → String | .firmware => "FW" | .microcode => "UCODE" | .patch => "PATCH"
def ImgKind.num : ImgKind → Nat | .firmware => 0 | .microcode => 1 | .patch => 2

/-- R306 | MAGIC of each kind of container -/
def ImgKind.magic : ImgKind → Nat | .firmware => 0x48514657 | .microcode => 0x48514D43 | .patch => 0x48515043

/-- R306 | the number that bytes of a container hold, most significant first -/
def hdrNum (p : List Nat) (o n : Nat) : Nat := beNum ((p.drop o).take n)

/-- R306 | bytes laid out as a container of a kind (log 106) -/
def formatOk (kind : ImgKind) (p : List Nat) : Bool :=
  hdrNum p 0 4 = kind.magic && hdrNum p 4 2 = 1 && hdrNum p 7 1 ≤ 64 &&
  1 ≤ hdrNum p 16 4 && hdrNum p 16 4 ≤ 4096 && 8 ≤ hdrNum p 20 4 && hdrNum p 20 4 ≤ 4194304 && p.length = 64 + hdrNum p 20 4 + 96 &&
  hdrNum p 52 12 = 0 &&
  (if kind = .patch then 1 ≤ hdrNum p 6 1 else hdrNum p 6 1 = 0 && hdrNum p 14 2 = 0 && hdrNum p 24 28 = 0)

/-- R306 | the container that some bytes hold -/
def imageOf (kind : ImgKind) (p : List Nat) (c : Container) : Image :=
  { rbi := hdrNum p 7 1, ver := (hdrNum p 8 2, hdrNum p 10 2, hdrNum p 12 2), seq := hdrNum p 6 1, nrec := hdrNum p 16 4,
    plain := if kind = .patch then c.plain else (p.drop 64).take (hdrNum p 20 4) }

/-- R308 | the checks of a container, in order -/
def imageChecks (s : State) (kind : ImgKind) (n : Nat) (p : List Nat) (c : Container) : Res Unit := do
  need (formatOk kind p) (e435 "FORMAT")
  need c.sigOk (e435 "SIG")
  let x := imageOf kind p c
  need (s.nv.arb ≤ x.rbi) (e435 "ROLLBACK")
  if kind = .patch then do
    need c.gcmOk (e435 "GCM")
    need (x.ver = s.nv.uc.ver) (e435 "VERSION")
    need (!s.nv.patches.any (fun e => e.1 != n && e.2.seq = x.seq)) (e435 "SEQ")
  else pure ()

/-- R308 | an accepted container: the slot it goes to is invalid until its write ends, and patches for another microcode go -/
def beginStore (s : State) (kind : ImgKind) (n : Nat) (x : Image) : State :=
  let nv := match kind with
    | .firmware => if s.md.slotB then { s.nv with fwA := none } else { s.nv with fwB := none }
    | .microcode => { s.nv with patches := s.nv.patches.filter (fun e => e.2.ver = x.ver) }
    | .patch => { s.nv with patches := tdel s.nv.patches n }
  { s with nv := nv, md := { s.md with storing := s.md.storing ++ [(kind.num, n, x)] } }

/-- R308 | a container is stored in the slot it was written to -/
def endStore (s : State) (kind n : Nat) (x : Image) : State :=
  let nv := match kind with
    | 0 => if s.md.slotB then { s.nv with fwA := some x } else { s.nv with fwB := some x }
    | 1 => { s.nv with uc := x }
    | _ => { s.nv with patches := tset s.nv.patches n x }
  { s with nv := nv, md := { s.md with storing := s.md.storing.drop 1 } }

/-- R308 -/
def execMicroImage (h : Hdr) (kind : ImgKind) (n : Option Nat) (blk : Blk) (img : Container) (s : State) : Out :=
  noramBlk s (.microImage h kind n blk img) (ownerForm "MICRO") h blk
    (fun _ => do
      need (n.isSome = (kind = .patch)) (e400 4)
      need (n.getD 0 < 16) (e419 4))
    (fun p s => do
      imageChecks s kind (n.getD 0) p img
      let x := imageOf kind p img
      let s := beginStore s kind (n.getD 0) x
      .ok (s, .later (.image [w "OK", w "MICRO", w "IMAGE", w kind.name, kn "RBI" x.rbi, kw "EFFECTIVE" "RESTART"])))

/-- R308 | the flash write of the oldest container ends -/
def execMicroImageStored (dt : Nat) (s : State) : Out :=
  let s := advance s dt
  match s.md.storing with
  | [] => .next s
  | (k, n, x) :: _ =>
    let s := endStore s k n x
    .next (match s.jobs.find? (fun j => match j.kind with | .image _ => true | _ => false) with
      | some j => match j.kind with | .image t => completeJob s j [] t | _ => s
      | none => s)

/-- R308 | the line of a stored image (log 26) -/
def imageLine (kind : Line) (x : Image) : Line := w "MI" :: kind ++ [kv "VERSION" [.d x.ver.1, .s ".", .d x.ver.2.1, .s ".", .d x.ver.2.2], kn "SEQ" x.seq, kn "RBI" x.rbi]

/-- R308 -/
def execMicroImageList (h : Hdr) (s : State) : Out :=
  noram s (.microImageList h) { ownerForm "MICRO" with ro := true } h (fun s =>
    let l := (s.nv.fwA.map (imageLine [w "FW", w "A"])).toList ++ (s.nv.fwB.map (imageLine [w "FW", w "B"])).toList ++
      [imageLine [w "UCODE"] s.nv.uc] ++ s.nv.patches.map (fun e => imageLine [w "PATCH", { val := [.d e.1] }] e.2)
    okBody s l [w "OK", w "MICRO", w "IMAGE", w "LIST", kn "N" l.length])

/-- R308 -/
def execMicroImageDrop (h : Hdr) (n : Nat) (s : State) : Out :=
  noram s (.microImageDrop h n) (ownerForm "MICRO") h (fun s => do
    need (n < 16) (e419 5)
    ok { s with nv := { s.nv with patches := tdel s.nv.patches n } } [w "OK", w "MICRO", w "IMAGE", w "DROP", w "PATCH", { val := [.d n] }])

/-! ### Slices (R309 to R311) -/

/-- U or N. -/
def storeTok (nano : Bool) : Tok := w (if nano then "N" else "U")

/-- R287, R310 | words of a slice named from an address on: the store's range, then the slice; the address stands at a token -/
def sliceRange (d pos : Nat) (nano : Bool) (a n : Nat) : Res Nat := do
  need (a < (if nano then 4096 else 16384)) (e419 pos)
  need (if nano then inSliceN d a else inSliceU d a) e403
  let o := a - (if nano then sliceN d else sliceU d)
  need (o + n ≤ (if nano then 256 else 1024)) (e419 pos)
  pure o

/-- R310, R311 | bytes written into a slice from one of its words on, or staged -/
def writeSlice (s : State) (d : Nat) (nano : Bool) (o : Nat) (p : List Nat) : Res (State × Line) :=
  writeOrStage s d "MICRO-LOAD" p.length (.micro nano o p) (fun s => applyStaged s d (.micro nano o p))

/-- R309, R310 -/
def execMicroLoad (h : Hdr) (nano : Bool) (a : Nat) (blk : Blk) (s : State) : Out :=
  let sz := if nano then 16 else 4
  noramBlk s (.microLoad h nano a blk) (tenantForm "MICRO") h blk (fun _ => need (a < (if nano then 4096 else 16384)) (e419 4)) (fun p s => do
    let d := myDk s h
    let o ← sliceRange d 4 nano a (p.length / sz)
    need (p.length % sz = 0) e415
    let (s, t) ← writeSlice s d nano o p
    ok s ([w "OK", w "MICRO", w "LOAD", dTok d, storeTok nano, { val := [.d a] }, kn "N" (p.length / sz)] ++ t))

/-- R309 | one microword, or one nanoword as its two halves -/
def execMicroWord (h : Hdr) (a : Nat) (v : Hex) (lo : Option Hex) (s : State) : Out :=
  noram s (.microWord h a v lo) (tenantForm "MICRO") h (fun s => do
    let nano := lo.isSome
    need (v.val < (if nano then 2 ^ 64 else 2 ^ 32)) (e419 5)
    need ((lo.getD {}).val < 2 ^ 64) (e419 6)
    let d := myDk s h
    let o ← sliceRange d 4 nano a 1
    let bytes := if nano then leNats 8 (lo.getD {}).val ++ leNats 8 v.val else leNats 4 v.val
    let (s, t) ← writeSlice s d nano o bytes
    ok s ([w "OK", w "MICRO", w "WORD", dTok d, storeTok nano, { val := [.d a] }] ++ t))

/-- The dispatch table of the furnish that edits act on, changed. -/
def putCtab (s : State) (d : Nat) (g : Tab Nat → Tab Nat) : State := modEditing s d (fun f => { f with ctab := g f.ctab })

/-- R299, R309 -/
def execMicroDispatchWrite (h : Hdr) (e : Nat) (v : Hex) (s : State) : Out :=
  noram s (.microDispatchWrite h e v) (tenantForm "MICRO") h (fun s => do
    need (e < 32) (e419 3)
    need (v.val < 2 ^ 32 ∧ v.val / 2 ^ 10 % 2 ^ 18 = 0) (e419 4)
    let d := myDk s h
    let (s, t) ← writeOrStage s d "MICRO-LOAD" 4 (.disp e v.val) id
    ok (putCtab s d (fun t => if v.val = 0 then tdel t e else tset t e v.val)) ([w "OK", w "MICRO", w "DISPATCH", dTok d, { val := [.d e] }] ++ t))

/-- R309, R311 (log 26) -/
def execMicroDispatchList (h : Hdr) (s : State) : Out :=
  noram s (.microDispatchList h) (readForm "MICRO") h (fun s => do
    let d := myDk s h
    let t := (getDk s d).inForce.ctab
    okBody s ((List.range 32).map (fun (e : Nat) => [w "MD", { val := [.d (e : Nat)] }, { val := [.hx (tget t (e : Nat) 0) 8] }]))
      [w "OK", w "MICRO", w "DISPATCH", dTok d, kn "N" 32])

/-- R309 to R311 | the words that execute -/
def execMicroRead (h : Hdr) (nano : Bool) (a : Nat) (n : Nat) (s : State) : Out :=
  noram s (.microRead h nano a n) (readForm "MICRO") h (fun s => do
    let d := myDk s h
    need (1 ≤ n) (e419 5)
    let o ← sliceRange d 4 nano a n
    let p := if nano then memBytes s.nst (16 * (sliceN d + o)) (16 * n) else memBytes s.ust (4 * (sliceU d + o)) (4 * n)
    okBody s (blkLines p) [w "OK", w "MICRO", w "READ", dTok d, storeTok nano, { val := [.d a] }, kn "N" n])

/-- R309, R311 | both slices and the table zeroed -/
def execMicroClear (h : Hdr) (s : State) : Out :=
  noram s (.microClear h) (tenantForm "MICRO") h (fun s => do
    let d := myDk s h
    let (s, t) ← writeOrStage s d "MICRO-LOAD" 0 .clear (fun s => applyStaged s d .clear)
    ok (putCtab s d (fun _ => [])) ([w "OK", w "MICRO", w "CLEAR", dTok d] ++ t))

/-! ### The analyzer (R315, R321 to R323) -/

/-- R323 | the line of a site -/
def siteLine (s : State) (e : Site × List UInfo) : Line :=
  let words := sortNat (e.2.map (fun u => u.node.1))
  [w "MC", kn "OP" e.1.i, kn "E" (e.1.op.code - 0xE0), kn "COST" (siteCost (e.1.paths s e.2)),
   kn "DISP" (words.filter (fun a => (readN s (readU s a).nano).pclass = 3)).length, kn "READS" (words.filter (fun a => resultRead (readU s a))).length]

/-- R315, R323 -/
def execMicroCheck (h : Hdr) (s : State) : Out :=
  noram s (.microCheck h) (readForm "MICRO") h (fun s => do
    let d := myDk s h
    let k := getDk s d
    let f := k.inForce
    let refuse := fun (x : Option Line) => match x with | some e => (Except.error e : Res Unit) | none => .ok ()
    progHeld k f
    refuse (programReadable s f)
    let sites := sitesOf s d k.grant f (progOf s d k.grant f)
    refuse (microFault s sites)
    refuse (admitted s d k.grant f "PATTERN")
    okBody s (sites.map (siteLine s)) [w "OK", w "MICRO", w "CHECK", dTok d, kn "SITES" sites.length,
      kv "AN" [.d s.md.runFw.ver.1, .s ".", .d s.md.runFw.ver.2.1]])

end Sys2Proof.Machine
end

