-- ==== Sys2Proof/Machine/Roles.lean ====
section
/-! DEFINITION. Ownership and keys: OWNER, DECKLE KEY and LOGIN REKEY. -/

namespace Sys2Proof.Machine

/-- R16 | the key that a wrapped form carries; `pos` is the token of W -/
def unwrapKey (s : State) (h : Hdr) (label : String) (pos : Nat) (w c : Sec) : Res Nat := do
  need (w.digits = 64) (e400 pos)
  need (c.digits = 16) (e400 (pos + 1))
  let x := getLn s h.line
  match x.nonce, roleKey s x.role with
  | some n, some k =>
    let key := w.val ^^^ hmacNum k.k (nonceBytes n ++ strBytes label)
    need (c.val = hmacNum key (nonceBytes n) / 2 ^ 192) e407
    pure key
  | _, _ => .error e407

/-- R11, R15, R17 | a key set by any command resets its target's failures (log 98) -/
def execOwnerTake (h : Hdr) (key : Sec) (s : State) : Out :=
  noram s (.ownerTake h key) { word := "OWNER", roles := [.a] } h (fun s => do
    need (key.digits = 64) (e400 3)
    need ((h.line : Nat) = 0 ∧ s.nv.owner.isNone) e403
    let s := clearFail s 0x40
    ok { s with nv := { s.nv with owner := some { k := key.val, setAt := now s } } } [w "OK", w "OWNER", w "TAKE"])

/-- R16 -/
def execOwnerRekey (h : Hdr) (wr : Sec) (c : Sec) (s : State) : Out :=
  noram s (.ownerRekey h wr c) (ownerForm "OWNER") h (fun s => do
    let key ← unwrapKey s h "OWNER-REKEY" 3 wr c
    let s := clearFail s 0x40
    ok { s with nv := { s.nv with owner := some { k := key, setAt := now s } } } [w "OK", w "OWNER", w "REKEYED"])

/-- The decimal text of a number after a label. -/
def labelled (t : String) (n : Nat) : String := t ++ " " ++ toString n

/-- R16 -/
def execOwnerObserverKey (h : Hdr) (n : Nat) (wr : Sec) (c : Sec) (s : State) : Out :=
  noram s (.ownerObserverKey h n wr c) (ownerForm "OWNER") h (fun s => do
    need (n < 8) (e419 3)
    let key ← unwrapKey s h (labelled "OBSERVER-KEY" n) 5 wr c
    let s := clearFail s (0x80 + n)
    ok { s with nv := { s.nv with obs := tset s.nv.obs n { k := key, setAt := now s } } }
      [w "OK", w "OWNER", w "OBSERVER", { val := [.s "OB", .d n] }, w "KEY"])

/-- R20, R44 | every deckle is stopped and zeroed; the keys go when the last one is CLOSED -/
def release (s : State) (t : Line) : Res (State × Ans) :=
  if deckles.all (fun d => (getDk s d).st = .closed) then
    .ok (s, .later (.release t))
  else .ok (deckles.foldl reclaim s, .later (.release t))

/-- R20 | a release of a module whose deckles are all CLOSED completes at once -/
def released : Out → Out
  | .next s => .next (finishRelease s)
  | r => r

/-- R20 -/
def execOwnerRelease (h : Hdr) (s : State) : Out :=
  released (noram s (.ownerRelease h) (ownerForm "OWNER") h (fun s => release s [w "OK", w "OWNER", w "RELEASED"]))

/-- R21 -/
def execOwnerClear (h : Hdr) (s : State) : Out :=
  released (noram s (.ownerClear h) { word := "OWNER", roles := [.a] } h (fun s => do
    let inTime := match s.md.endT with | some t => decide (s.wall ≤ t + 30 * Config.sec) | none => false
    need (h.line == 0 && s.md.clearWin && inTime) e403
    release s [w "OK", w "OWNER", w "CLEARED"]))

/-- R17, R18, R190 -/
def execDeckleKey (h : Hdr) (d : Nat) (wr : Sec) (c : Sec) (s : State) : Out :=
  noram s (.deckleKey h d wr c) (ownerForm "DECKLE") h (fun s => do
    deckleArg 2 d
    need (wr.digits = 64) (e400 4)
    need (c.digits = 16) (e400 5)
    let k := getDk s d
    need (k.st = .closed) (e420owner k)
    let key ← unwrapKey s h (labelled "DECKLE-KEY" d) 4 wr c
    let s := clearFail s d
    ok { s with nv := { s.nv with dk := tset s.nv.dk d { k := key, prov := true, setAt := now s } } }
      [w "OK", w "DECKLE", { val := [.d d] }, w "KEY", w "PROVISIONAL", kt "KEYSET" (now s)])

/-- R18, R19 -/
def execLoginRekey (h : Hdr) (wr : Sec) (c : Sec) (s : State) : Out :=
  noram s (.loginRekey h wr c) { word := "LOGIN", prov := true } h (fun s => do
    let d := myDk s h
    let key ← unwrapKey s h "TENANT-REKEY" 3 wr c
    let s := clearFail s d
    let s := { s with nv := { s.nv with dk := tset s.nv.dk d { k := key, setAt := now s } } }
    ok (modSession s h (fun x => { x with prov := false })) [w "OK", dTok d, w "REKEYED", kt "KEYSET" (now s)])

end Sys2Proof.Machine
end

