-- ==== Sys2Proof/Machine/Dispatch.lean ====
section
/-! DEFINITION. One arm for each command: the call of its meaning. -/

namespace Sys2Proof.Machine

def exec (i : Instr) (s : State) : Host.Outcome State Fault Refusal :=
  match i with
  | .powerInputRise dt => Sys2Proof.Machine.execPowerInputRise dt s
  | .railsInTolerance dt => Sys2Proof.Machine.execRailsInTolerance dt s
  | .firmwareSlotVerify dt => Sys2Proof.Machine.execFirmwareSlotVerify dt s
  | .fBootRepeat dt => Sys2Proof.Machine.execFBootRepeat dt s
  | .verifyComplete dt => Sys2Proof.Machine.execVerifyComplete dt s
  | .loadComplete dt ok => Sys2Proof.Machine.execLoadComplete dt ok s
  | .selfTestComplete dt obs => Sys2Proof.Machine.execSelfTestComplete dt obs s
  | .slotRestoreComplete dt d => Sys2Proof.Machine.execSlotRestoreComplete dt d s
  | .ownerClearWindowEnd dt => Sys2Proof.Machine.execOwnerClearWindowEnd dt s
  | .powerLoss dt => Sys2Proof.Machine.execPowerLoss dt s
  | .holdUpEnd dt => Sys2Proof.Machine.execHoldUpEnd dt s
  | .resetNLow dt => Sys2Proof.Machine.execResetNLow dt s
  | .resetNHigh dt => Sys2Proof.Machine.execResetNHigh dt s
  | .fPwr dt => Sys2Proof.Machine.execFPwr dt s
  | .fHot dt => Sys2Proof.Machine.execFHot dt s
  | .fSupply dt => Sys2Proof.Machine.execFSupply dt s
  | .coreWarm dt => Sys2Proof.Machine.execCoreWarm dt s
  | .supplyRailCore dt => Sys2Proof.Machine.execSupplyRailCore dt s
  | .supplyRailInput dt mv => Sys2Proof.Machine.execSupplyRailInput dt mv s
  | .inputCurrentLimit dt => Sys2Proof.Machine.execInputCurrentLimit dt s
  | .warmSet dt => Sys2Proof.Machine.execWarmSet dt s
  | .warmLost dt => Sys2Proof.Machine.execWarmLost dt s
  | .acceptDegraded h units => Sys2Proof.Machine.execAcceptDegraded h units s
  | .keeperLoad dt => Sys2Proof.Machine.execKeeperLoad dt s
  | .usbDtrSet dt n => Sys2Proof.Machine.execUsbDtrSet dt n s
  | .usbDtrClear dt n => Sys2Proof.Machine.execUsbDtrClear dt n s
  | .usbBusLoss dt => Sys2Proof.Machine.execUsbBusLoss dt s
  | .conBreak dt => Sys2Proof.Machine.execConBreak dt s
  | .idleTimeout dt line => Sys2Proof.Machine.execIdleTimeout dt line s
  | .sendBlockedTimeout dt line => Sys2Proof.Machine.execSendBlockedTimeout dt line s
  | .xoffReceived dt line => Sys2Proof.Machine.execXoffReceived dt line s
  | .xonReceived dt line => Sys2Proof.Machine.execXonReceived dt line s
  | .conOverrun dt => Sys2Proof.Machine.execConOverrun dt s
  | .unknownCommand h => Sys2Proof.Machine.execUnknownCommand h s
  | .dataBlockTimeout h hdr rows => Sys2Proof.Machine.execDataBlockTimeout h hdr rows s
  | .dataBlockAbort h hdr rows => Sys2Proof.Machine.execDataBlockAbort h hdr rows s
  | .tagEntryExpiry dt mem => Sys2Proof.Machine.execTagEntryExpiry dt mem s
  | .hello h => Sys2Proof.Machine.execHello h s
  | .helloEcho h blk => Sys2Proof.Machine.execHelloEcho h blk s
  | .help h word => Sys2Proof.Machine.execHelp h word s
  | .ident h => Sys2Proof.Machine.execIdent h s
  | .identCert h => Sys2Proof.Machine.execIdentCert h s
  | .identAttest h nonce => Sys2Proof.Machine.execIdentAttest h nonce s
  | .status h => Sys2Proof.Machine.execStatus h s
  | .statusMeter h => Sys2Proof.Machine.execStatusMeter h s
  | .selftest h => Sys2Proof.Machine.execSelftest h s
  | .time h => Sys2Proof.Machine.execTime h s
  | .mode h => Sys2Proof.Machine.execMode h s
  | .modeMachine h => Sys2Proof.Machine.execModeMachine h s
  | .modeTyped h => Sys2Proof.Machine.execModeTyped h s
  | .modeSeal h => Sys2Proof.Machine.execModeSeal h s
  | .modeEcho h on => Sys2Proof.Machine.execModeEcho h on s
  | .modeXon h on => Sys2Proof.Machine.execModeXon h on s
  | .modeIdle h n => Sys2Proof.Machine.execModeIdle h n s
  | .modeBaud h n => Sys2Proof.Machine.execModeBaud h n s
  | .baudChangeApply dt => Sys2Proof.Machine.execBaudChangeApply dt s
  | .ownerTake h key => Sys2Proof.Machine.execOwnerTake h key s
  | .ownerRekey h w c => Sys2Proof.Machine.execOwnerRekey h w c s
  | .ownerObserverKey h n w c => Sys2Proof.Machine.execOwnerObserverKey h n w c s
  | .ownerRelease h => Sys2Proof.Machine.execOwnerRelease h s
  | .ownerClear h => Sys2Proof.Machine.execOwnerClear h s
  | .deckleKey h d w c => Sys2Proof.Machine.execDeckleKey h d w c s
  | .login h target => Sys2Proof.Machine.execLogin h target s
  | .loginResp h a => Sys2Proof.Machine.execLoginResp h a s
  | .loginReply dt line => Sys2Proof.Machine.execLoginReply dt line s
  | .nonceExpiry dt line => Sys2Proof.Machine.execNonceExpiry dt line s
  | .lockoutExpiry dt target => Sys2Proof.Machine.execLockoutExpiry dt target s
  | .loginRekey h w c => Sys2Proof.Machine.execLoginRekey h w c s
  | .logout h => Sys2Proof.Machine.execLogout h s
  | .atSchedule h t late c => Sys2Proof.Machine.execAtSchedule h t late c s
  | .atActionDue dt d id => Sys2Proof.Machine.execAtActionDue dt d id s
  | .atCancel h n => Sys2Proof.Machine.execAtCancel h n s
  | .deckleOpen h d g => Sys2Proof.Machine.execDeckleOpen h d g s
  | .couchComplete dt bank => Sys2Proof.Machine.execCouchComplete dt bank s
  | .deckleGrant h d g => Sys2Proof.Machine.execDeckleGrant h d g s
  | .deckleClose h d => Sys2Proof.Machine.execDeckleClose h d s
  | .deckleReclaim h d => Sys2Proof.Machine.execDeckleReclaim h d s
  | .zeroingComplete dt d => Sys2Proof.Machine.execZeroingComplete dt d s
  | .deckleRearm h => Sys2Proof.Machine.execDeckleRearm h s
  | .deckleList h d => Sys2Proof.Machine.execDeckleList h d s
  | .furnishSeal h => Sys2Proof.Machine.execFurnishSeal h s
  | .furnishLoad h n => Sys2Proof.Machine.execFurnishLoad h n s
  | .furnishSave h n => Sys2Proof.Machine.execFurnishSave h n s
  | .furnishStart h n => Sys2Proof.Machine.execFurnishStart h n s
  | .furnishDrop h n => Sys2Proof.Machine.execFurnishDrop h n s
  | .slotEraseComplete dt n => Sys2Proof.Machine.execSlotEraseComplete dt n s
  | .furnishSlots h => Sys2Proof.Machine.execFurnishSlots h s
  | .furnishSet h f => Sys2Proof.Machine.execFurnishSet h f s
  | .furnishRevert h => Sys2Proof.Machine.execFurnishRevert h s
  | .furnishShow h sect shadow => Sys2Proof.Machine.execFurnishShow h sect shadow s
  | .arm h => Sys2Proof.Machine.execArm h s
  | .run h => Sys2Proof.Machine.execRun h s
  | .trig h => Sys2Proof.Machine.execTrig h s
  | .stop h => Sys2Proof.Machine.execStop h s
  | .quireBoundaryStop dt d => Sys2Proof.Machine.execQuireBoundaryStop dt d s
  | .stopOff h => Sys2Proof.Machine.execStopOff h s
  | .stopOffComplete dt d => Sys2Proof.Machine.execStopOffComplete dt d s
  | .press h => Sys2Proof.Machine.execPress h s
  | .pressBoundary dt d => Sys2Proof.Machine.execPressBoundary dt d s
  | .pressNoboundary dt d => Sys2Proof.Machine.execPressNoboundary dt d s
  | .paceSet h p => Sys2Proof.Machine.execPaceSet h p s
  | .paceReached dt => Sys2Proof.Machine.execPaceReached dt s
  | .pace h => Sys2Proof.Machine.execPace h s
  | .monitorWindowEnd dt ratio => Sys2Proof.Machine.execMonitorWindowEnd dt ratio s
  | .headboxQuireWrite dt d => Sys2Proof.Machine.execHeadboxQuireWrite dt d s
  | .quireDecision dt d obs => Sys2Proof.Machine.execQuireDecision dt d obs s
  | .failOutFall dt => Sys2Proof.Machine.execFailOutFall dt s
  | .failOutRemapApply dt => Sys2Proof.Machine.execFailOutRemapApply dt s
  | .trigOutFall dt n => Sys2Proof.Machine.execTrigOutFall dt n s
  | .brokeDrain dt d cap => Sys2Proof.Machine.execBrokeDrain dt d cap s
  | .opNop dt d => Sys2Proof.Machine.execOpNop dt d s
  | .opHalt dt d => Sys2Proof.Machine.execOpHalt dt d s
  | .opRun dt d => Sys2Proof.Machine.execOpRun dt d s
  | .opMatch dt d => Sys2Proof.Machine.execOpMatch dt d s
  | .opWaitt dt d => Sys2Proof.Machine.execOpWaitt dt d s
  | .opLoop dt d => Sys2Proof.Machine.execOpLoop dt d s
  | .opEndl dt d => Sys2Proof.Machine.execOpEndl dt d s
  | .opJump dt d => Sys2Proof.Machine.execOpJump dt d s
  | .opCall dt d => Sys2Proof.Machine.execOpCall dt d s
  | .opRet dt d => Sys2Proof.Machine.execOpRet dt d s
  | .opBrfail dt d => Sys2Proof.Machine.execOpBrfail dt d s
  | .opMark dt d => Sys2Proof.Machine.execOpMark dt d s
  | .opLearn dt d => Sys2Proof.Machine.execOpLearn dt d s
  | .opTsel dt d => Sys2Proof.Machine.execOpTsel dt d s
  | .opCustom dt d => Sys2Proof.Machine.execOpCustom dt d s
  | .resultWaitRelease dt d => Sys2Proof.Machine.execResultWaitRelease dt d s
  | .umodeSeq dt d up => Sys2Proof.Machine.execUmodeSeq dt d up s
  | .umodeJmp dt d up => Sys2Proof.Machine.execUmodeJmp dt d up s
  | .umodeCall dt d up => Sys2Proof.Machine.execUmodeCall dt d up s
  | .umodeRet dt d up => Sys2Proof.Machine.execUmodeRet dt d up s
  | .umodeBr dt d up => Sys2Proof.Machine.execUmodeBr dt d up s
  | .umodeMway dt d up => Sys2Proof.Machine.execUmodeMway dt d up s
  | .umodeLoop dt d up => Sys2Proof.Machine.execUmodeLoop dt d up s
  | .umodeWait dt d up => Sys2Proof.Machine.execUmodeWait dt d up s
  | .vendorReloadComplete dt copyOk readOk => Sys2Proof.Machine.execVendorReloadComplete dt copyOk readOk s
  | .aluNop dt d f => Sys2Proof.Machine.execAluNop dt d f s
  | .aluPass dt d f => Sys2Proof.Machine.execAluPass dt d f s
  | .aluAdd dt d f => Sys2Proof.Machine.execAluAdd dt d f s
  | .aluAdc dt d f => Sys2Proof.Machine.execAluAdc dt d f s
  | .aluSub dt d f => Sys2Proof.Machine.execAluSub dt d f s
  | .aluSbc dt d f => Sys2Proof.Machine.execAluSbc dt d f s
  | .aluAnd dt d f => Sys2Proof.Machine.execAluAnd dt d f s
  | .aluOr dt d f => Sys2Proof.Machine.execAluOr dt d f s
  | .aluXor dt d f => Sys2Proof.Machine.execAluXor dt d f s
  | .aluAndn dt d f => Sys2Proof.Machine.execAluAndn dt d f s
  | .aluShl dt d f => Sys2Proof.Machine.execAluShl dt d f s
  | .aluShr dt d f => Sys2Proof.Machine.execAluShr dt d f s
  | .aluAsr dt d f => Sys2Proof.Machine.execAluAsr dt d f s
  | .aluRor dt d f => Sys2Proof.Machine.execAluRor dt d f s
  | .aluCmp dt d f => Sys2Proof.Machine.execAluCmp dt d f s
  | .aluTst dt d f => Sys2Proof.Machine.execAluTst dt d f s
  | .aluMin dt d f => Sys2Proof.Machine.execAluMin dt d f s
  | .aluMax dt d f => Sys2Proof.Machine.execAluMax dt d f s
  | .aluClz dt d f => Sys2Proof.Machine.execAluClz dt d f s
  | .aluPopc dt d f => Sys2Proof.Machine.execAluPopc dt d f s
  | .portMrd dt d space bank => Sys2Proof.Machine.execPortMrd dt d space bank s
  | .portMwr dt d space bank => Sys2Proof.Machine.execPortMwr dt d space bank s
  | .portDisp dt d cont pareg nreg => Sys2Proof.Machine.execPortDisp dt d cont pareg nreg s
  | .portQpop dt d qid => Sys2Proof.Machine.execPortQpop dt d qid s
  | .portQpush dt d qid => Sys2Proof.Machine.execPortQpush dt d qid s
  | .portEvent dt d cls code => Sys2Proof.Machine.execPortEvent dt d cls code s
  | .seqctlTsel dt d a => Sys2Proof.Machine.execSeqctlTsel dt d a s
  | .seqctlMark dt d m a => Sys2Proof.Machine.execSeqctlMark dt d m a s
  | .seqctlHalt dt d => Sys2Proof.Machine.execSeqctlHalt dt d s
  | .portTbset dt d a => Sys2Proof.Machine.execPortTbset dt d a s
  | .portShwr dt d pareg sreg whdr k16 pmask => Sys2Proof.Machine.execPortShwr dt d pareg sreg whdr k16 pmask s
  | .portStew dt d parg => Sys2Proof.Machine.execPortStew dt d parg s
  | .dpsTargetReg dt d n v => Sys2Proof.Machine.execDpsTargetReg dt d n v s
  | .dpsFfofsReg dt d n v => Sys2Proof.Machine.execDpsFfofsReg dt d n v s
  | .auxPlayReg dt d n v => Sys2Proof.Machine.execAuxPlayReg dt d n v s
  | .auxHaltReg dt d n v => Sys2Proof.Machine.execAuxHaltReg dt d n v s
  | .adcStartReg dt d n v => Sys2Proof.Machine.execAdcStartReg dt d n v s
  | .tmuStartReg dt d n v => Sys2Proof.Machine.execTmuStartReg dt d n v s
  | .tmuHaltReg dt d n v => Sys2Proof.Machine.execTmuHaltReg dt d n v s
  | .instrOtherReg dt d unit reg => Sys2Proof.Machine.execInstrOtherReg dt d unit reg s
  | .microImage h kind n blk img => Sys2Proof.Machine.execMicroImage h kind n blk img s
  | .microImageList h => Sys2Proof.Machine.execMicroImageList h s
  | .microImageDrop h n => Sys2Proof.Machine.execMicroImageDrop h n s
  | .microLoad h nano a blk => Sys2Proof.Machine.execMicroLoad h nano a blk s
  | .microWord h a v lo => Sys2Proof.Machine.execMicroWord h a v lo s
  | .microDispatchWrite h e v => Sys2Proof.Machine.execMicroDispatchWrite h e v s
  | .microDispatchList h => Sys2Proof.Machine.execMicroDispatchList h s
  | .microRead h nano a n => Sys2Proof.Machine.execMicroRead h nano a n s
  | .microCheck h => Sys2Proof.Machine.execMicroCheck h s
  | .microClear h => Sys2Proof.Machine.execMicroClear h s
  | .bankStripe h l => Sys2Proof.Machine.execBankStripe h l s
  | .dataSheets h pa n blk => Sys2Proof.Machine.execDataSheets h pa n blk s
  | .dataSheet h pa sn ts flags codes => Sys2Proof.Machine.execDataSheet h pa sn ts flags codes s
  | .dataRead h pa n => Sys2Proof.Machine.execDataRead h pa n s
  | .seqBank h v => Sys2Proof.Machine.execSeqBank h v s
  | .seqLoad h a blk => Sys2Proof.Machine.execSeqLoad h a blk s
  | .seqOp h a op => Sys2Proof.Machine.execSeqOp h a op s
  | .seqEntry h a => Sys2Proof.Machine.execSeqEntry h a s
  | .seqList h r => Sys2Proof.Machine.execSeqList h r s
  | .seqCost h => Sys2Proof.Machine.execSeqCost h s
  | .ref h => Sys2Proof.Machine.execRef h s
  | .refSelect h src force => Sys2Proof.Machine.execRefSelect h src force s
  | .loopLock dt => Sys2Proof.Machine.execLoopLock dt s
  | .refinUsable dt cls => Sys2Proof.Machine.execRefinUsable dt cls s
  | .refLost dt => Sys2Proof.Machine.execRefLost dt s
  | .timebaseHold dt => Sys2Proof.Machine.execTimebaseHold dt s
  | .trigInEdge dt rising fine => Sys2Proof.Machine.execTrigInEdge dt rising fine s
  | .chain h => Sys2Proof.Machine.execChain h s
  | .chainRole h r force => Sys2Proof.Machine.execChainRole h r force s
  | .chainCal h => Sys2Proof.Machine.execChainCal h s
  | .chainGroup h g on src => Sys2Proof.Machine.execChainGroup h g on src s
  | .chainFrameSend dt => Sys2Proof.Machine.execChainFrameSend dt s
  | .heartbeatFrame dt f => Sys2Proof.Machine.execHeartbeatFrame dt f s
  | .groupStartFrame dt f => Sys2Proof.Machine.execGroupStartFrame dt f s
  | .calibrationFrame dt f => Sys2Proof.Machine.execCalibrationFrame dt f s
  | .chainLost dt lane => Sys2Proof.Machine.execChainLost dt lane s
  | .chainTbLoad dt => Sys2Proof.Machine.execChainTbLoad dt s
  | .tsetCount h n => Sys2Proof.Machine.execTsetCount h n s
  | .tsetPeriod h sn v => Sys2Proof.Machine.execTsetPeriod h sn v s
  | .tsetPinFields h sn l f => Sys2Proof.Machine.execTsetPinFields h sn l f s
  | .tsetCopy h sn r => Sys2Proof.Machine.execTsetCopy h sn r s
  | .tsetShow h sn l => Sys2Proof.Machine.execTsetShow h sn l s
  | .tsetDeskew h l f => Sys2Proof.Machine.execTsetDeskew h l f s
  | .tsetDeskewMeasure h l => Sys2Proof.Machine.execTsetDeskewMeasure h l s
  | .tsetDeskewShow h => Sys2Proof.Machine.execTsetDeskewShow h s
  | .fDll dt ch => Sys2Proof.Machine.execFDll dt ch s
  | .dllLocked dt ch => Sys2Proof.Machine.execDllLocked dt ch s
  | .pinName h ch name => Sys2Proof.Machine.execPinName h ch name s
  | .pinRest h l r => Sys2Proof.Machine.execPinRest h l r s
  | .pinShow h l => Sys2Proof.Machine.execPinShow h l s
  | .level h l f => Sys2Proof.Machine.execLevel h l f s
  | .levelPmu h l f => Sys2Proof.Machine.execLevelPmu h l f s
  | .levelShow h l => Sys2Proof.Machine.execLevelShow h l s
  | .levelTick dt => Sys2Proof.Machine.execLevelTick dt s
  | .rangeDwellEnd dt ch => Sys2Proof.Machine.execRangeDwellEnd dt ch s
  | .pmuReconnectEnd dt ch => Sys2Proof.Machine.execPmuReconnectEnd dt ch s
  | .fPinDrvi dt ch => Sys2Proof.Machine.execFPinDrvi dt ch s
  | .pmuClampLimit dt ch released => Sys2Proof.Machine.execPmuClampLimit dt ch released s
  | .feWarm dt fe => Sys2Proof.Machine.execFeWarm dt fe s
  | .fPinHot dt fe => Sys2Proof.Machine.execFPinHot dt fe s
  | .broke h => Sys2Proof.Machine.execBroke h s
  | .brokeShow h idx n => Sys2Proof.Machine.execBrokeShow h idx n s
  | .brokeRead h idx n => Sys2Proof.Machine.execBrokeRead h idx n s
  | .brokeCount h l => Sys2Proof.Machine.execBrokeCount h l s
  | .brokeClear h => Sys2Proof.Machine.execBrokeClear h s
  | .capture h => Sys2Proof.Machine.execCapture h s
  | .captureShow h idx n => Sys2Proof.Machine.execCaptureShow h idx n s
  | .captureRead h idx n => Sys2Proof.Machine.execCaptureRead h idx n s
  | .captureClear h => Sys2Proof.Machine.execCaptureClear h s
  | .bankPower h l p => Sys2Proof.Machine.execBankPower h l p s
  | .bankZero h l => Sys2Proof.Machine.execBankZero h l s
  | .bankShow h l => Sys2Proof.Machine.execBankShow h l s
  | .bankPool h => Sys2Proof.Machine.execBankPool h s
  | .dpsFields h n f => Sys2Proof.Machine.execDpsFields h n f s
  | .dpsMatrix h n m v => Sys2Proof.Machine.execDpsMatrix h n m v s
  | .dpsFftable h n idx blk => Sys2Proof.Machine.execDpsFftable h n idx blk s
  | .dpsShow h n => Sys2Proof.Machine.execDpsShow h n s
  | .dpsTarget h n v => Sys2Proof.Machine.execDpsTarget h n v s
  | .dpsFfofs h n k => Sys2Proof.Machine.execDpsFfofs h n k s
  | .dpsRead h n => Sys2Proof.Machine.execDpsRead h n s
  | .learnParams h n f => Sys2Proof.Machine.execLearnParams h n f s
  | .learnRead h n => Sys2Proof.Machine.execLearnRead h n s
  | .learnLoad h n blk => Sys2Proof.Machine.execLearnLoad h n blk s
  | .learnClear h n => Sys2Proof.Machine.execLearnClear h n s
  | .controlPeriod dt n m => Sys2Proof.Machine.execControlPeriod dt n m s
  | .fDpsOv dt n => Sys2Proof.Machine.execFDpsOv dt n s
  | .fDpsHot dt n => Sys2Proof.Machine.execFDpsHot dt n s
  | .dpsClampLimit dt n released => Sys2Proof.Machine.execDpsClampLimit dt n released s
  | .dpsRangeDwellEnd dt n => Sys2Proof.Machine.execDpsRangeDwellEnd dt n s
  | .auxFields h n f => Sys2Proof.Machine.execAuxFields h n f s
  | .auxEntry h n idx f => Sys2Proof.Machine.execAuxEntry h n idx f s
  | .auxListWrite h n idx blk => Sys2Proof.Machine.execAuxListWrite h n idx blk s
  | .auxListRead h n idx k => Sys2Proof.Machine.execAuxListRead h n idx k s
  | .auxShow h n => Sys2Proof.Machine.execAuxShow h n s
  | .auxPlay h n => Sys2Proof.Machine.execAuxPlay h n s
  | .auxHalt h n => Sys2Proof.Machine.execAuxHalt h n s
  | .auxRead h n => Sys2Proof.Machine.execAuxRead h n s
  | .auxStartTick dt n => Sys2Proof.Machine.execAuxStartTick dt n s
  | .auxEntryBoundary dt n => Sys2Proof.Machine.execAuxEntryBoundary dt n s
  | .auxListEnd dt n => Sys2Proof.Machine.execAuxListEnd dt n s
  | .mkFall dt n => Sys2Proof.Machine.execMkFall dt n s
  | .auxSpanDwellEnd dt n => Sys2Proof.Machine.execAuxSpanDwellEnd dt n s
  | .adcFields h n f => Sys2Proof.Machine.execAdcFields h n f s
  | .adcEntry h n idx f => Sys2Proof.Machine.execAdcEntry h n idx f s
  | .adcSources h => Sys2Proof.Machine.execAdcSources h s
  | .adcShow h n => Sys2Proof.Machine.execAdcShow h n s
  | .adcStart h n => Sys2Proof.Machine.execAdcStart h n s
  | .adcResults h n k => Sys2Proof.Machine.execAdcResults h n k s
  | .adcRead h n k => Sys2Proof.Machine.execAdcRead h n k s
  | .adcStatus h n => Sys2Proof.Machine.execAdcStatus h n s
  | .adcTimerTick dt n => Sys2Proof.Machine.execAdcTimerTick dt n s
  | .adcScanStart dt n => Sys2Proof.Machine.execAdcScanStart dt n s
  | .adcConversionDone dt n m => Sys2Proof.Machine.execAdcConversionDone dt n m s
  | .tmuFields h n f => Sys2Proof.Machine.execTmuFields h n f s
  | .tmuShow h n => Sys2Proof.Machine.execTmuShow h n s
  | .tmuStart h n => Sys2Proof.Machine.execTmuStart h n s
  | .tmuHalt h n => Sys2Proof.Machine.execTmuHalt h n s
  | .tmuClear h n => Sys2Proof.Machine.execTmuClear h n s
  | .tmuStat h n => Sys2Proof.Machine.execTmuStat h n s
  | .tmuResults h n k => Sys2Proof.Machine.execTmuResults h n k s
  | .tmuRead h n k => Sys2Proof.Machine.execTmuRead h n k s
  | .tmuStatus h n => Sys2Proof.Machine.execTmuStatus h n s
  | .tmuStartEdge dt n t di => Sys2Proof.Machine.execTmuStartEdge dt n t di s
  | .tmuStopEdge dt n t di => Sys2Proof.Machine.execTmuStopEdge dt n t di s
  | .tmuTimeout dt n => Sys2Proof.Machine.execTmuTimeout dt n s
  | .tmuFreqStamp dt n k t di => Sys2Proof.Machine.execTmuFreqStamp dt n k t di s
  | .tmuGateClose dt n => Sys2Proof.Machine.execTmuGateClose dt n s
  | .fTmuLock dt n => Sys2Proof.Machine.execFTmuLock dt n s
  | .tmuRelock dt n => Sys2Proof.Machine.execTmuRelock dt n s
  | .eventMapEvt h n d cls hold => Sys2Proof.Machine.execEventMapEvt h n d cls hold s
  | .eventMapModule h n cls hold => Sys2Proof.Machine.execEventMapModule h n cls hold s
  | .eventMapTrigOut h n d m => Sys2Proof.Machine.execEventMapTrigOut h n d m s
  | .eventMapFailOut h d => Sys2Proof.Machine.execEventMapFailOut h d s
  | .eventMapMk h n d => Sys2Proof.Machine.execEventMapMk h n d s
  | .eventUnmap h l => Sys2Proof.Machine.execEventUnmap h l s
  | .eventClear h n => Sys2Proof.Machine.execEventClear h n s
  | .eventShow h => Sys2Proof.Machine.execEventShow h s
  | .eventGrantPort h => Sys2Proof.Machine.execEventGrantPort h s
  | .eventRevokePort h => Sys2Proof.Machine.execEventRevokePort h s
  | .evtPulseEnd dt n => Sys2Proof.Machine.execEvtPulseEnd dt n s
  | .eventLineSend dt line => Sys2Proof.Machine.execEventLineSend dt line s
  | .trace h d => Sys2Proof.Machine.execTrace h d s
  | .traceShow h d idx n => Sys2Proof.Machine.execTraceShow h d idx n s
  | .traceRead h d idx n => Sys2Proof.Machine.execTraceRead h d idx n s
  | .traceSelect h f => Sys2Proof.Machine.execTraceSelect h f s
  | .traceGrantPort h => Sys2Proof.Machine.execTraceGrantPort h s
  | .traceRevokePort h => Sys2Proof.Machine.execTraceRevokePort h s
  | .traceGrantObserver h n => Sys2Proof.Machine.execTraceGrantObserver h n s
  | .traceRevokeObserver h n => Sys2Proof.Machine.execTraceRevokeObserver h n s
  | .traceEnable h d n => Sys2Proof.Machine.execTraceEnable h d n s
  | .traceDisable h d n => Sys2Proof.Machine.execTraceDisable h d n s
  | .tracePort h d on => Sys2Proof.Machine.execTracePort h d on s
  | .traceSlot dt => Sys2Proof.Machine.execTraceSlot dt s
  | .count h d l => Sys2Proof.Machine.execCount h d l s
  | .countModule h l => Sys2Proof.Machine.execCountModule h l s
  | .countClear h l => Sys2Proof.Machine.execCountClear h l s
  | .moduleCounterUpdate dt m => Sys2Proof.Machine.execModuleCounterUpdate dt m s
  | .lineEditing dt line b => Sys2Proof.Machine.execLineEditing dt line b s
  | .armComplete dt d => Sys2Proof.Machine.execArmComplete dt d s
  | .furnishSaveComplete dt d => Sys2Proof.Machine.execFurnishSaveComplete dt d s
  | .microImageStored dt => Sys2Proof.Machine.execMicroImageStored dt s
  | .deskewMeasureComplete dt d res => Sys2Proof.Machine.execDeskewMeasureComplete dt d res s
  | .bankZeroComplete dt d => Sys2Proof.Machine.execBankZeroComplete dt d s

end Sys2Proof.Machine
end

