-- ==== Sys2Proof/Machine/Step.lean ====
section
/-! DEFINITION. One step: the command at the front of the queue, or a line that a session has held back. -/

namespace Sys2Proof.Machine

/-- One step: exec of the command at the front of the queue on the state with the queue's rest. On an empty queue the line that has
waited longest of those that may begin does so (R123, R125, log 3), and with none the module idles. -/
def step (s : State) : Host.Outcome State Fault Refusal :=
  match s.pending with
  | c :: r => exec c { s with pending := r }
  | [] => match heldNext s with
    | some (c, s') => exec c s'
    | none => .next s

/-- The command that a table word spells, put at the front of the queue; the table gives no bits, so no word spells one. -/
def State.withFetchWord (s : State) (nbits w : Nat) : State :=
  match decodeTableWord nbits w with
  | some c => { s with pending := c :: s.pending }
  | none => s

end Sys2Proof.Machine
end

