-- ==== Sys2Proof/Machine/Outward.lean ====
section
/-! DEFINITION. What the module shows at its connectors as a function of its state: READY, REF-OUT, KEEPER, TXD, the DPS discharge, and
what its USB functions say of themselves. No command reads these; they are what a partner of the module sees. -/

namespace Sys2Proof.Machine

/-- R55, R57, R68 | a J1 or J2 output: not driven, low or high -/
inductive Level where | hiz | low | high
deriving DecidableEq, Repr

/-- A driven output, or one of a module without power. -/
def driven (s : State) (b : Bool) : Level := if s.md.power then (if b then .high else .low) else .hiz

/-- R68, R69, R101 | READY: high exactly in WARMING and READY, low in every other state while the module is powered -/
def readyOut (s : State) : Level := driven s (isUp s)

/-- R60, R68, R224 | REF-OUT carries its 10 MHz while the loop is locked or in holdover; off while the timebase holds, unpowered, in reset,
during a start, and in SAFE and DEGRADED-PENDING -/
def refOutRuns (s : State) : Bool := s.md.power && isUp s && (s.rf.lock = .locked || s.rf.lock = .holdover)

/-- R63, R64 | KEEPER: from its first rising edge on it rises at every multiple of 1,250 ticks and falls 625 ticks later -/
def keeperOut (s : State) : Level := driven s (s.md.keeper && s.md.keeperT ≤ now s && now s % 1250 < 625)

/-- R64 | whether KEEPER rises at a count of the timebase -/
def keeperRises (s : State) (t : Nat) : Bool := s.md.power && s.md.keeper && s.md.keeperT ≤ t && t % 1250 = 0

/-- R64 | whether KEEPER falls at a count of the timebase -/
def keeperFalls (s : State) (t : Nat) : Bool := s.md.power && s.md.keeper && s.md.keeperT ≤ t && t % 1250 = 625

/-- R388, R458, R531 | whether some pulse of a width is high at an instant -/
def pulseAt (w t : Nat) (l : List Nat) : Bool := l.any (fun r => r ≤ t && t < r + w)

/-- R388 | FAIL-OUT at a fine step: 16 ticks from each rise on, and what merges with it -/
def failOutAt (s : State) (t : Nat) : Level := driven s (pulseAt 16384 t s.ph.foUp)

/-- R531 | TRIG-OUTn at a fine step -/
def trigOutAt (s : State) (n t : Nat) : Level := driven s (pulseAt 16384 t (tget s.ph.toUp n []))

/-- R458 | MKn at a tick -/
def mkAt (s : State) (n t : Nat) : Level := driven s (pulseAt 16 t (tget s.ph.mkUp n []))

/-- R68, R106 | TXD between characters: idle high once it is driven -/
def txdOut (s : State) : Level := if s.md.power && s.md.txd then .high else .hiz

/-- R68, R99 | ohms from a force output that is off to GND: the discharge, or the permanent resistor -/
def dpsOhms (s : State) (n : Nat) : Nat := if (getDps s n).dis100 then 100 else 10000

/-- R245 | fine steps by which a slave without calibration lags the master: its cumulative delay as last measured -/
def chainLag (s : State) : Nat := if s.nv.chain = 2 && !s.ch.cal then s.ch.delay else 0

/-- R245 | the master's instant, in fine steps, at which an instant of this module falls -/
def masterInstant (s : State) (t : Nat) : Nat := t + chainLag s

/-! ### USB (R111) -/

/-- R111 | an endpoint of a CDC-ACM function -/
inductive Endpoint where | bulkIn (packet : Nat) | bulkOut (packet : Nat) | notification
deriving DecidableEq, Repr

/-- R111 | the endpoints of every USB function -/
def usbEndpoints : List Endpoint := [.bulkIn 512, .bulkOut 512, .notification]

/-- R111 | the serial-number string: 16 upper-case hex digits, not grouped -/
def usbSerial (s : State) : List Nat :=
  (List.range 16).map (fun i => let n := s.nv.serial / 16 ^ (15 - i) % 16; if n < 10 then 48 + n else 55 + n)

/-- R111 | SET_LINE_CODING is accepted and changes nothing -/
def setLineCoding (_rate : Nat) (s : State) : State := s

end Sys2Proof.Machine
end

