-- ==== Sys2Proof/Safety.lean ====
section
/-! DEFINITION. What counts as a safe run, and the terms in which claims speak of command lines: a line that a session accepts,
the state in which its command runs, and the states that a reply and a reply to come leave. -/

namespace Sys2Proof

open Machine

/-- The steps of a run from a state, as many as asked for, end in a next state. -/
def Safe (s : State) (n : Nat) : Prop := ∃ t, core.run n s = .next t

/-- The memories of the module are in canonical form: the vat, the pads, the stores with their parity bits, and the retention copy. -/
structure MemoriesCanonical (s : State) : Prop where
  vat : Memory.wf s.vat
  tpad : Memory.wf s.tpad
  cep : Memory.wf s.cep
  mpad : Memory.wf s.mpad
  ust : Memory.wf s.ust
  nst : Memory.wf s.nst
  upar : Memory.wf s.upar
  npar : Memory.wf s.npar
  keepU : Memory.wf s.md.keepU
  keepN : Memory.wf s.md.keepN

/-! ### Command lines (R116 to R123, R134 to R139) -/

/-- The state in which the command of a line runs: its time has passed, the line has arrived and has taken its place. -/
def begun (h : Hdr) (s : State) : State :=
  let s := advance s h.dt
  (newSlot (modLn (setLn s h.line { getLn s h.line with rxT := s.wall, part := [], crT := none }) h.line macTake) h.line (h.text.length + 1)).2

/-- R118 | a line as its command reads it: without the suffix of SEAL mode. -/
def seen (h : Hdr) (s : State) : Hdr := h.plain (getLn s h.line).sm.isSome

/-- Checks 1 to 3 of R122, on a session with nothing outstanding and with no line due before it: the session exists, the line is whole,
well formed, not empty, and carries the right MAC in SEAL mode. -/
structure Arrives (h : Hdr) (s : State) : Prop where
  own : s.resume = none
  up : (getLn s h.line).up = true
  whole : (getLn s h.line).skip = false
  idle : (getLn s h.line).slots = []
  first : heldReady s = []
  short : (seen h s).text.length ≤ 1024
  chars : lineChars h.text = true
  form : badTag (seen h s).text = none
  word : (tokens (seen h s).text).isEmpty = false
  mac : macOk (getLn s h.line) h.text = true

/-- The line carries no tag, or one that its tag memory does not hold. -/
def Fresh (h : Hdr) (s : State) : Prop :=
  ∀ t, lineTag (seen h s).text = some t → findTag s (tagMemOf h.line (getLn s h.line).role) t = none

/-- Checks 1 to 9 of R122 for a line of a form: it arrives, has a new tag or none, fits the form, and may be issued by the role
in this module state. -/
structure Accepts (f : Form) (h : Hdr) (s : State) : Prop extends Arrives h s where
  pass : precheck f (seen h s) (begun h s) = .ok ⟨⟩
  fresh : Fresh h (begun h s)

/-- The state after a reply: `s` as the command found it, `r` with its effect, `x` what a block adds to the normalised text. -/
def replied (h : Hdr) (x : List Nat) (s r : State) (b : List Line) (fin : Line) : State :=
  let n := (getLn s h.line).nslot - 1
  match lineTag (seen h s).text with
  | some t =>
    let m := tagMemOf h.line (getLn s h.line).role
    answer (endTag (beginTag r m t (normText (seen h s).text ++ x)) m t b fin) h.line n b fin
  | none => answer r h.line n b fin

/-- The state after the start of a command whose reply comes later. -/
def awaits (h : Hdr) (x : List Nat) (s r : State) (k : JobKind) (late : Option Int) : State :=
  let m := tagMemOf h.line (getLn s h.line).role
  let r := match lineTag (seen h s).text with | some t => beginTag r m t (normText (seen h s).text ++ x) | none => r
  { r with jobs := r.jobs ++ [{ kind := k, line := h.line, slot := (getLn s h.line).nslot - 1, tag := (lineTag (seen h s).text).map (fun t => (m, t)), late := late }] }

/-- A command whose line is accepted replies at once, with this effect. -/
def Replies (c : Instr) (f : Form) (h : Hdr) (s r : State) (b : List Line) (fin : Line) : Prop :=
  Accepts f h s → exec c s = .next (replied h [] (begun h s) r b fin)

/-- A command whose line is accepted starts with this effect, and its reply comes later. -/
def Awaits (c : Instr) (f : Form) (h : Hdr) (s r : State) (k : JobKind) : Prop :=
  Accepts f h s → exec c s = .next (awaits h [] (begun h s) r k none)

/-! ### Lines with a DATA block (R141 to R145) -/

/-- The state in which the command of a line with a block runs. -/
def begunBlk (h : Hdr) (b : Blk) (s : State) : State := (blkMacs (begun h s) h.line (blkAll b)).1

/-- A block that arrives whole and right, with its payload: MACs, size, lines and CRC. -/
structure BlkIs (h : Hdr) (b : Blk) (s : State) (p : List Nat) : Prop where
  macs : (blkMacs (begun h s) h.line (blkAll b)).2 = false
  size : 1 ≤ b.hdr.n ∧ b.hdr.n ≤ 1048576
  data : blkBytes { b with rows := rowsPlain (getLn s h.line).sm.isSome b.rows } = .ok p

/-- What `Accepts` says, for a line with a block: checks and tag as the END line finds them. -/
structure AcceptsBlk (f : Form) (h : Hdr) (b : Blk) (s : State) : Prop where
  line : Accepts f h s
  pass : precheck f (seen h s) (begunBlk h b s) = .ok ⟨⟩
  fresh : Fresh h (begunBlk h b s)

/-- A command with a block whose line is accepted replies at once, with this effect. -/
def RepliesBlk (c : Instr) (f : Form) (h : Hdr) (b : Blk) (s r : State) (l : List Line) (fin : Line) : Prop :=
  AcceptsBlk f h b s → exec c s = .next (replied h (blkText b) (begunBlk h b s) r l fin)

/-- A command whose line is accepted is refused with an error line; nothing else comes of it. -/
def Refuses (c : Instr) (f : Form) (h : Hdr) (s : State) (e : Line) : Prop :=
  Accepts f h s → exec c s = .next (replied h [] (begun h s) (begun h s) [] e)

/-! ### Threads (R261, R282) -/

/-- The thread of a deckle may take a step, runs stock ops, and stands at an op that reads without error. -/
structure AtOp (dt : Nat) (d : Fin 8) (s : State) (o : Op) : Prop where
  run : threadOk (advance s dt) (getDk s d) = true
  stock : (getDk s d).thr.cust = false
  op : fetchOp (advance s dt) d = (advance s dt, some o)

/-- The thread of a deckle may take a step and waits for nothing; the part of a step that a nanoword holds is in no fence and
has nothing to wait for. -/
structure AtPart (dt : Nat) (d : Fin 8) (s : State) (n : NWord) : Prop where
  run : threadOk (advance s dt) (getDk s d) = true
  idle : (getDk s d).thr.wait = none
  inside : partFence (getDk s d) d n = none
  ready : portWait (getDk s d) n = none

/-- The nanoword of an ALU row. -/
def AluF.nword (code : Nat) (f : AluF) : NWord :=
  { aluop := code, asel := f.asel, bsel := f.bsel, dsel := f.dsel, upd := f.upd, u0op := f.u0op, u1op := f.u1op, k16 := f.k16 }

/-- A row of the table performs the ALU part with an operation, on operands as they stand at the start of the step. -/
def AluRowRuns (c : Nat → Fin 8 → AluF → Instr) (code : Nat) (op : AluOp) : Prop :=
  ∀ dt d f s, AtPart dt d s (AluF.nword code f) → f.asel ≤ 27 → f.bsel ≤ 27 → f.dsel ≤ 22 →
    exec (c dt d f) s =
      .next (aluPart (advance s dt) d op (source (advance s dt) (getDk s d) f.imm f.k16 f.asel)
        (source (advance s dt) (getDk s d) f.imm f.k16 f.bsel) (getDk s d).thr.c f false none).1

/-- The thread of a deckle may take a step in customer code and stands at a microword and its nanoword that pass every check of
R302 and wait for nothing. -/
structure AtWord (dt : Nat) (d : Fin 8) (s : State) (x : UWord) (n : NWord) : Prop where
  run : threadOk (advance s dt) (getDk s d) = true
  cust : (getDk s d).thr.cust = true
  parity : fetchBad (advance s dt) (getDk s d).thr.upc = (false, false)
  word : readU (advance s dt) (getDk s d).thr.upc = x
  nano : readN (advance s dt) x.nano = n
  inside : (if vendorWord (getDk s d).thr.upc then none else fence (runCtx (getDk s d) d (x.targets (getDk s d).thr.upc)) x n) = none
  call : x.mode = 2 → (getDk s d).thr.ms.length < 8
  ret : x.mode = 3 → (getDk s d).thr.ms.isEmpty = false
  ready : stepWait (advance s dt) (getDk s d) x n = none

end Sys2Proof
end

