-- ==== Sys2Proof/Certificates/Slice0/Obligations.lean ====
section
/-! DEFINITION. The statements for the provers, each a Prop. What a statement says is in its docstring, with the rules of the
spec that it formalises or the chapters that it rests on. -/

section

open Sys2Proof Sys2Proof.Machine

/-- Each event of a start, from power input to the clear window's end, has its effect. POWER_INPUT_RISE restarts an unpowered
module; RAILS_IN_TOLERANCE counts the start and enters BOOT; FIRMWARE_SLOT_VERIFY enters VERIFY with the accepted slot or stays
with F-BOOT; F_BOOT_REPEAT sends the line; VERIFY_COMPLETE enters LOAD; LOAD_COMPLETE enters SELF-TEST; SELF_TEST_COMPLETE
without a failure enters WARMING or READY; SLOT_RESTORE_COMPLETE ends a restore; OWNER_CLEAR_WINDOW_END closes the window after
30 s. (Rests on 03_power_to_ready.) -/
def Obligations.StartCompletes : Prop :=
  (∀ dt s, s.md.power = false →
    exec (.powerInputRise dt) s =
      .next (let r := restart { advance s dt with md := { s.md with oven := false } }
             if s.md.resetLow then { r with md := { r.md with st := .inReset } } else r)) ∧
  (∀ dt s, s.md.st = .powerOn →
    exec (.railsInTolerance dt) s =
      .next { advance s dt with md := { s.md with st := .boot }, nv := { s.nv with starts := min (s.nv.starts + 1) (2 ^ 32 - 1) } }) ∧
  (∀ dt s b fw, s.md.st = .boot → s.md.fboot = false → bootSlot s = some (b, fw) → s.md.early = none →
    exec (.firmwareSlotVerify dt) s =
      .next (startRef { advance s dt with md := { s.md with slotB := b, runFw := fw, runMc := s.nv.uc, st := .verify } })) ∧
  (∀ dt s, s.md.st = .boot → s.md.fboot = false → bootSlot s = none →
    exec (.firmwareSlotVerify dt) s = .next { advance s dt with md := { s.md with fboot := true } }) ∧
  (∀ dt s, s.md.st = .boot → s.md.fboot = true →
    exec (.fBootRepeat dt) s = .next (sendLine { advance s dt with md := { s.md with txd := true } } 0 [w "!FAULT", w "F-BOOT"])) ∧
  (∀ dt s, s.md.st = .verify → imagesOk s = true →
    exec (.verifyComplete dt) s = .next { advance s dt with md := { s.md with st := .load } }) ∧
  (∀ dt s, s.md.st = .load →
    exec (.loadComplete dt true) s =
      .next (let r := writeVendor { advance s dt with md := { s.md with pl := patchLevel s } }
             banksUp (keepVendor { r with md := { r.md with st := .selfTest } }))) ∧
  (∀ dt obs s, s.md.st = .selfTest → s.md.latch = false → (testItems.map (reportItem obs)).all (fun r => r.v = .pass) = true →
    exec (.selfTestComplete dt obs) s =
      .next (enterUp (openLines (endRef (takeReport (advance s dt) (testItems.map (reportItem obs))))) startFields)) ∧
  (∀ dt d s, s.md.st = .warming ∨ s.md.st = .ready →
    exec (.slotRestoreComplete dt d) s = .next (endRestore (advance s dt) d)) ∧
  (∀ dt s t, s.md.endT = some t → t + 30 * Config.sec ≤ s.wall + dt →
    exec (.ownerClearWindowEnd dt) s = .next { advance s dt with md := { s.md with clearWin := false } })

/-- Power loss, reset, module faults, notes of the module, WARM and ACCEPT DEGRADED have their effect. Each event of the module
named here answers the next state its rule gives: the safe-state actions and the off or reset state, the discharge after the
hold-up, SAFE on F-PWR, F-HOT, F-SUPPLY and the input limiter, the owner's notes, WARM set and cleared, KEEPER-LOAD, and ACCEPT
DEGRADED on exactly the failed units. (Rests on 03_power_to_ready, 02_module_and_connectors, 19_faults_and_events,
07_time_and_reference.) -/
def Obligations.ModuleEventsComplete : Prop :=
  (∀ dt s, s.md.power = true →
    exec (.powerLoss dt) s =
      .next (let r := goDark (advance s dt)
             { r with md := { r.md with st := .off, power := false, holdUp := some r.wall, latch := false, latchCause := "", secFail := false, oven := false } })) ∧
  (∀ dt s t, s.md.holdUp = some t → s.md.power = false → t + 2 * Config.ms ≤ s.wall + dt →
    exec (.holdUpEnd dt) s =
      .next { advance s dt with md := { s.md with holdUp := none }, dps := [0, 1, 2, 3].map (fun n => (n, { getDps s n with dis100 := false })) }) ∧
  (∀ dt s, s.md.power = true → s.md.st ≠ .inReset →
    exec (.resetNLow dt) s =
      .next (let r := goDark { advance s dt with md := { s.md with resetLow := true } }
             { r with md := { r.md with st := .inReset } })) ∧
  (∀ dt s, s.md.st = .inReset →
    exec (.resetNHigh dt) s = .next (restart { advance s dt with md := { s.md with resetLow := false } })) ∧
  (∀ dt s, s.md.st = .degraded ∨ s.md.st = .warming ∨ s.md.st = .ready →
    exec (.fPwr dt) s = .next (enterSafe (advance s dt) "F-PWR" true []) ∧
    exec (.fHot dt) s = .next (enterSafe (advance s dt) "F-HOT" false []) ∧
    exec (.fSupply dt) s = .next (enterSafe (advance s dt) "F-SUPPLY" false []) ∧
    exec (.inputCurrentLimit dt) s = .next (enterSafe (advance s dt) "F-SUPPLY" false [])) ∧
  (∀ dt s, linesOpen s = true →
    exec (.coreWarm dt) s = .next (ownerEvent (advance s dt) .note [w "CORE-WARM"]) ∧
    exec (.supplyRailCore dt) s = .next (ownerEvent (advance s dt) .note [w "SUPPLY", kw "RAIL" "CORE"])) ∧
  (∀ dt mv s, linesOpen s = true → mv < 19800 ∨ 28200 < mv →
    exec (.supplyRailInput dt mv) s = .next (ownerEvent (advance s dt) .note [w "SUPPLY", kw "RAIL" "INPUT", kv "V" [.fx mv 3]])) ∧
  (∀ dt s, s.nv.variant = .o → s.md.power = true → s.rf.lock = .locked → s.rf.active = some .int →
    exec (.warmSet dt) s = .next (setWarm { advance s dt with md := { s.md with oven := true } } true)) ∧
  (∀ dt s, s.nv.variant = .o → s.rf.lock = .locked → s.rf.active = some .int →
    exec (.warmLost dt) s = .next (setWarm { advance s dt with md := { s.md with oven := false } } false)) ∧
  (∀ dt s, s.md.keeper = true →
    exec (.keeperLoad dt) s =
      .next (deckles.foldl (fun a d => if liveOut (advance s dt) d then queueEv a d false .note [w "!NOTE", w "KEEPER-LOAD"] else a)
        (ownerEvent (advance s dt) .note [w "KEEPER-LOAD"]))) ∧
  (∀ h units s r, Accepts { word := "ACCEPT", roles := [.o] } h s → (begun h s).md.st = .degraded → units ≠ [] →
    namesExactly units (failedUnits (begun h s)) = true →
    r = replied h [] (begun h s) (let u := units.foldl withdraw (begun h s); { u with md := { u.md with withdrawn := units } })
      [] ([w "OK", w "ACCEPT", w "DEGRADED"] ++ units.map w) →
    r.md.st = .degraded → r.md.withdrawn = units → exec (.acceptDegraded h units) s = .next (enterUp r (fun _ => [])))

/-- Events on the lines begin and end sessions, pause and resume output, edit a typed line, and expire nonces, lockouts and
tags. Each event on a line answers the next state its rule gives: DTR set opens a session on a free USB line, DTR cleared, bus
loss, break, idle time and a blocked line end it, XOFF and XON pause and resume, an overrun of a full input buffer answers E431,
a typed character is kept and echoed, a new baud rate applies after 20 ms, and nonces, lockouts and tag entries expire. (Rests
on 04_noram_line, 01_secrecy_and_roles.) -/
def Obligations.LineEventsComplete : Prop :=
  (∀ dt n s l, l = (n : Fin 9).val + 1 → linesOpen s = true → s.md.usb = true → (getLn s l).up = false →
    exec (.usbDtrSet dt n) s =
      .next (setLn (advance s dt) l { up := true, rxT := s.wall + dt, baud := (getLn s l).baud, nslot := (getLn s l).nslot, tx := (getLn s l).tx })) ∧
  (∀ dt n s, exec (.usbDtrClear dt n) s = .next (closeLine (advance s dt) (n + 1))) ∧
  (∀ dt s, exec (.usbBusLoss dt) s = .next ([1, 2, 3, 4, 5, 6, 7, 8, 9].foldl closeLine (advance s dt))) ∧
  (∀ dt s, exec (.conBreak dt) s = .next (modLn (endSession (advance s dt) 0) 0 (fun x => { x with baud := 115200, baudNext := none }))) ∧
  (∀ dt l s, (getLn s (l : Fin 10)).up = true → (getLn s l).rxT + (getLn s l).idle * Config.sec ≤ s.wall + dt →
    exec (.idleTimeout dt l) s = .next (endSession (advance s dt) l)) ∧
  (∀ dt l s, exec (.sendBlockedTimeout dt l) s = .next (endSession (dropOut (advance s dt) l) l)) ∧
  (∀ dt l s, (getLn s (l : Fin 10)).up = true → (getLn s l).xon = true → (getLn s l).machine = false →
    exec (.xoffReceived dt l) s = .next (setLn (advance s dt) l { getLn s l with paused := true })) ∧
  (∀ dt l s, (getLn s (l : Fin 10)).paused = true →
    exec (.xonReceived dt l) s =
      .next (modLn (resumeOut (advance s dt) l) l (fun x => { x with baudNext := x.baudNext.map (fun e => (e.1, max e.2 (s.wall + dt))) }))) ∧
  (∀ dt s, (getLn s 0).up = true → 4096 < bufBytes (getLn s 0) + 1048 →
    exec (.conOverrun dt) s =
      .next (let p := newSlot (setLn (advance s dt) 0 { getLn s 0 with part := [], rxT := s.wall + dt }) 0
             answer p.2 0 p.1 [] e431)) ∧
  (∀ dt l b s, (getLn s (l : Fin 10)).up = true → (getLn s l).machine = false → (getLn s l).echo = true → (getLn s l).xon = false →
    b ≠ 3 → b ≠ 8 → b ≠ 10 → b ≠ 13 → b ≠ 18 → b ≠ 21 → b ≠ 127 →
    exec (.lineEditing dt l b) s = .next (flowControl (sendRaw (setLn (advance s dt) l { getLn s l with part := (getLn s l).part ++ [b] }) l [b]) l)) ∧
  (∀ dt s b t, (getLn s 0).baudNext = some (b, t) → (getLn s 0).paused = false → t + 20 * Config.ms ≤ s.wall + dt →
    exec (.baudChangeApply dt) s = .next (setLn (advance s dt) 0 { getLn s 0 with baud := b, baudNext := none })) ∧
  (∀ dt l s n b t, (getLn s (l : Fin 10)).chal = some (n, b, t) → t + 30 * Config.sec ≤ s.wall + dt →
    exec (.nonceExpiry dt l) s = .next (setLn (advance s dt) l { getLn s l with chal := none })) ∧
  (∀ dt g s n t, tget? s.nv.lock (Target.byte g) = some (n, t) → t ≤ s.wall + dt →
    exec (.lockoutExpiry dt g) s = .next { advance s dt with nv := { s.nv with lock := tset s.nv.lock g.byte (n, 0) } }) ∧
  (∀ dt m s, exec (.tagEntryExpiry dt m) s =
    .next (setTags (advance s dt) m ((getTags s m).filter (fun e => e.reply.isNone || s.wall + dt < e.done + 60 * Config.sec))))

/-- HELLO to TIME reply with what the module knows and change nothing but the reply. HELLO, HELLO ECHO, HELP, IDENT, IDENT CERT,
IDENT ATTEST, STATUS, STATUS METER, SELFTEST and TIME, once their line is accepted, reply with the lines their rules give; of
the state only the reply, its tag entry and, for IDENT ATTEST, the counter of free values change. A line with an unknown command
word is refused with E404; a block that never ends is refused with E408, and one that !ABORT ends with E415 ABORTED. (Rests on
22_command_index, 04_noram_line, 01_secrecy_and_roles, 03_power_to_ready, 07_time_and_reference.) -/
def Obligations.IdentityLinesReply : Prop :=
  (∀ h s x, getLn (begun h s) h.line = x →
    Replies (.hello h) { word := "HELLO", roles := allRoles, ro := true } h s (begun h s) []
      [w "OK", w "HELLO", w "HQ-48", kv "SN" [serialAtom s.nv.serial], kv "ROLE" (roleName x.role), kv "LINE" (lineName h.line),
       kw "MODE" (if x.machine then "MACHINE" else "TYPED")]) ∧
  (∀ h b s p, BlkIs h b s p →
    RepliesBlk (.helloEcho h b) { word := "HELLO", roles := allRoles, ro := true } h b s (begunBlk h b s) (blkLines p)
      [w "OK", w "HELLO", w "ECHO", kn "BYTES" p.length]) ∧
  (∀ h s l, l = commandWords.filter (helpWord (begun h s) (getLn (begun h s) h.line)) →
    Replies (.help h none) { word := "HELP", roles := allRoles, ro := true, prov := true } h s (begun h s)
      (l.map (fun c => [w "HP", w c])) [w "OK", w "HELP", kn "N" l.length]) ∧
  (∀ h c s u l, upWord c = u → u ∈ commandWords → l = index.filter (fun r => r.word == u) →
    Replies (.help h (some c)) { word := "HELP", roles := allRoles, ro := true, prov := true } h s (begun h s)
      (l.map (fun r => [w "HP", w r.form, kw "ROLE" r.role, kw "STATES" r.states, kw "MARK" r.mark])) [w "OK", w "HELP", kn "N" l.length]) ∧
  (∀ h s, Replies (.ident h) { word := "IDENT", roles := allRoles, ro := true, prov := true } h s (begun h s) []
    [w "OK", w "IDENT", w s.nv.variant.name, kv "SN" [serialAtom s.nv.serial], kv "FW" (verAtoms s.md.runFw.ver),
     kv "MC" (verAtoms s.md.runMc.ver), kn "PL" s.md.pl, kb "OWNED" s.nv.owner.isSome, kw "STATE" s.md.st.name]) ∧
  (∀ h s, Replies (.identCert h) { word := "IDENT", roles := allRoles, ro := true, prov := true } h s (begun h s)
    (blkLines (certificate s)) [w "OK", w "IDENT", w "CERT", kn "BYTES" (certificate s).length]) ∧
  (∀ h n s, n.digits % 4 = 0 → 4 ≤ n.digits → n.digits ≤ 32 → n.val < 16 ^ n.digits →
    Replies (.identAttest h n) { word := "IDENT", roles := allRoles, ro := true, prov := true } h s { begun h s with free := s.free + 1 }
      (statement (begun h s) n :: blkLines (signature s.nv.devKey (lineBytes (statement (begun h s) n)) s.free)) [w "OK", w "IDENT", w "ATTEST"]) ∧
  (∀ h s, Replies (.status h) { word := "STATUS", roles := allRoles, ro := true, prov := true } h s (begun h s)
    (statusLines (begun h s) (getLn (begun h s) h.line).role) [w "OK", w "STATUS"]) ∧
  (∀ h s, Replies (.statusMeter h) { word := "STATUS", roles := [.o], ro := true } h s (begun h s)
    (moduleLine (begun h s) :: ownerLines (begun h s) ++ meterLines (begun h s)) [w "OK", w "STATUS"]) ∧
  (∀ h s, Replies (.selftest h) { word := "SELFTEST", roles := allRoles, ro := true } h s (begun h s)
    (testItems.map (fun n => let r := itemOf s n
      [w "ST", w n, w r.v.name] ++ (if r.units.isEmpty then [] else [{ val := nameList r.units }]) ++
        (if r.unt.isEmpty then [] else [w "UNTESTED", { val := nameList r.unt }])))
    [w "OK", w "SELFTEST", kw "STATE" s.md.st.name, kn "FAILED" (failedCount s)]) ∧
  (∀ h s, Replies (.time h) { word := "TIME", roles := allRoles, ro := true } h s (begun h s) [] [w "OK", w "TIME", kt "TB" (advance s h.dt).rf.tb]) ∧
  (∀ h s, Arrives h s → Fresh h (begun h s) →
    exec (.unknownCommand h) s = .next (replied h [] (begun h s) (begun h s) [] e404)) ∧
  (∀ h hd rows s s0, Arrives h s → blkMacs (begun h s) h.line (hd.row :: rows) = (s0, false) → Fresh h s0 → 10 * Config.sec < h.dt →
    exec (.dataBlockTimeout h hd rows) s =
      .next (modLn (replied h (32 :: decBytes hd.n) s0 s0 [] (blkFault false hd (rowsPlain (getLn s h.line).sm.isSome rows) e408)) h.line
        (fun x => { x with skip := x.up }))) ∧
  (∀ h hd rows stop s s0, Arrives h s → blkMacs (begun h s) h.line (hd.row :: (rows ++ [stop])) = (s0, false) → Fresh h s0 →
    exec (.dataBlockAbort h hd (rows ++ [stop])) s =
      .next (replied h (32 :: decBytes hd.n) s0 s0 [] (blkFault false hd (rowsPlain (getLn s h.line).sm.isSome rows) e415aborted)))

/-- MODE shows and changes the settings of its own session only. MODE, MODE MACHINE, TYPED, SEAL, ECHO, XON, IDLE and BAUD, once
their line is accepted, reply and change the one setting of the one session named; BAUD on a USB line has no effect, and on CON
the rate is kept for 20 ms after the reply has been sent. That MODE TYPED is refused while a session is in SEAL mode is the
choice of log 15. (Rests on 04_noram_line, 01_secrecy_and_roles.) -/
def Obligations.ModeReplies : Prop :=
  (∀ h s s0 x, begun h s = s0 → getLn s0 h.line = x →
    Replies (.mode h) { modeForm with ro := true } h s s0 []
      ([w "OK", w "MODE", kv "LINE" (lineName h.line), kv "ROLE" (roleName x.role), kw "MODE" (if x.machine then "MACHINE" else "TYPED"),
        kw "ECHO" (onOff x.echo), kw "XON" (onOff x.xon), kn "IDLE" x.idle] ++ if (h.line : Nat) = 0 then [kn "BAUD" x.baud] else [])) ∧
  (∀ h s, Replies (.modeMachine h) modeForm h s (modLn (resumeOut (begun h s) h.line) h.line (fun x => { x with machine := true, xoff := false })) []
    [w "OK", w "MODE", w "MACHINE"]) ∧
  (∀ h s, (getLn (begun h s) h.line).sm = none →
    Replies (.modeTyped h) modeForm h s (modLn (begun h s) h.line (fun x => { x with machine := false })) [] [w "OK", w "MODE", w "TYPED"]) ∧
  (∀ h s x n k, getLn (begun h s) h.line = x → x.machine = true → x.sm = none → x.nonce = some n → roleKey (begun h s) x.role = some k →
    Replies (.modeSeal h) modeForm h s (modLn (begun h s) h.line (fun x => { x with sm := some { key := sealKey k.k n } })) [] [w "OK", w "MODE", w "SEAL"]) ∧
  (∀ h on s, Replies (.modeEcho h on) modeForm h s (modLn (begun h s) h.line (fun x => { x with echo := on })) [] [w "OK", w "MODE", kw "ECHO" (onOff on)]) ∧
  (∀ h on s, Replies (.modeXon h on) modeForm h s (modLn (begun h s) h.line (fun x => { x with xon := on })) [] [w "OK", w "MODE", kw "XON" (onOff on)]) ∧
  (∀ h v s n, readRange 2 .s 60 86400 v = .ok (n : Nat) →
    Replies (.modeIdle h v) modeForm h s (modLn (begun h s) h.line (fun x => { x with idle := n })) [] [w "OK", w "MODE", kn "IDLE" n]) ∧
  (∀ h v s n, readNat 2 0 (10 ^ 12) v = .ok n → n ∈ bauds →
    Replies (.modeBaud h v) modeForm h s (if (h.line : Nat) = 0 then modLn (begun h s) 0 (fun x => { x with
        baudNext := some (n, s.wall + h.dt + conTicks (lineBytes [w "OK", w "MODE", kn "BAUD" n]).length x.baud) }) else begun h s)
      [] [w "OK", w "MODE", kn "BAUD" n])

/-- OWNER, DECKLE KEY and LOGIN forms set the keys and roles they name. OWNER TAKE, REKEY and OBSERVER KEY, DECKLE KEY, LOGIN,
LOGIN RESP, LOGIN REKEY and LOGOUT, once accepted, change exactly the key or session field their rule gives, and clear the
failures of a target whose key they set (log 98); OWNER RELEASE and CLEAR begin the reclaim of every deckle and complete once
all are CLOSED; 50 ms after LOGIN RESP a wrong response is answered E401 and a right one for an observer takes the role. (Rests
on 01_secrecy_and_roles, 04_noram_line.) -/
def Obligations.RolesAndKeysReply : Prop :=
  (∀ h k s, k.digits = 64 → (h.line : Nat) = 0 → s.nv.owner = none →
    Replies (.ownerTake h k) { word := "OWNER", roles := [.a] } h s
      (let b := clearFail (begun h s) 0x40; { b with nv := { b.nv with owner := some { k := k.val, setAt := now b } } }) [] [w "OK", w "OWNER", w "TAKE"]) ∧
  (∀ h wr c s k, unwrapKey (begun h s) h "OWNER-REKEY" 3 wr c = .ok k →
    Replies (.ownerRekey h wr c) (ownerForm "OWNER") h s
      (let b := clearFail (begun h s) 0x40; { b with nv := { b.nv with owner := some { k := k, setAt := now b } } }) [] [w "OK", w "OWNER", w "REKEYED"]) ∧
  (∀ h n wr c s k, n < 8 → unwrapKey (begun h s) h (labelled "OBSERVER-KEY" n) 5 wr c = .ok k →
    Replies (.ownerObserverKey h n wr c) (ownerForm "OWNER") h s
      (let b := clearFail (begun h s) (0x80 + n); { b with nv := { b.nv with obs := tset b.nv.obs n { k := k, setAt := now b } } }) []
      [w "OK", w "OWNER", w "OBSERVER", { val := [.s "OB", .d n] }, w "KEY"]) ∧
  (∀ h s r, Accepts (ownerForm "OWNER") h s →
    r = awaits h [] (begun h s) (if deckles.all (fun d => (getDk (begun h s) d).st = .closed) then begun h s else deckles.foldl reclaim (begun h s))
      (.release [w "OK", w "OWNER", w "RELEASED"]) none →
    exec (.ownerRelease h) s = .next (finishRelease r)) ∧
  (∀ h s r t, Accepts { word := "OWNER", roles := [.a] } h s → h.line = 0 → s.md.clearWin = true → s.md.endT = some t →
    s.wall + h.dt ≤ t + 30 * Config.sec →
    r = awaits h [] (begun h s) (if deckles.all (fun d => (getDk (begun h s) d).st = .closed) then begun h s else deckles.foldl reclaim (begun h s))
      (.release [w "OK", w "OWNER", w "CLEARED"]) none →
    exec (.ownerClear h) s = .next (finishRelease r)) ∧
  (∀ h d wr c s k, d < 8 → wr.digits = 64 → c.digits = 16 → (getDk s d).st = .closed →
    unwrapKey (begun h s) h (labelled "DECKLE-KEY" d) 4 wr c = .ok k →
    Replies (.deckleKey h d wr c) (ownerForm "DECKLE") h s
      (let b := clearFail (begun h s) d; { b with nv := { b.nv with dk := tset b.nv.dk d { k := k, prov := true, setAt := now b } } }) []
      [w "OK", w "DECKLE", { val := [.d d] }, w "KEY", w "PROVISIONAL", kt "KEYSET" (now (begun h s))]) ∧
  (∀ h g s, Target.inRange g = true → (g ≠ .owner ∨ (h.line : Nat) ≤ 1) → lockLeft (begun h s) g.byte = 0 →
    Replies (.login h g) { word := "LOGIN", roles := allRoles } h s
      (modLn { begun h s with free := s.free + 1 } h.line (fun x => { x with chal := some ((Config.nonce s.free).toNat, g.byte, s.wall + h.dt) })) []
      [w "CHAL", { val := [.sec (Config.nonce s.free).toNat 8] }]) ∧
  (∀ h a s n b t k, a.digits = 32 → (getLn (begun h s) h.line).chal = some (n, b, t) → nonceOld (begun h s) t = false →
    targetKey (begun h s) (targetOf b) = some k → a.val = rightResponse k.k n b h.line s.nv.serial →
    Awaits (.loginResp h a) { word := "LOGIN", roles := allRoles } h s
      (modLn (modLn (begun h s) h.line (fun x => { x with chal := none })) h.line (fun x => { x with resp := some (true, b, n, s.wall + h.dt) }))
      (.login h.line)) ∧
  (∀ dt l s b n t, (getLn s (l : Fin 10)).resp = some (false, b, n, t) → t + 49 * Config.ms ≤ s.wall + dt →
    exec (.loginReply dt l) s =
      .next (finishJob (modLn (advance s dt) l (fun x => { x with resp := none })) (fun k => k == .login l) [] e401)) ∧
  (∀ dt l s b n t i r k, (getLn s (l : Fin 10)).resp = some (true, b, n, t) → t + 49 * Config.ms ≤ s.wall + dt →
    targetOf b = .observer i → tget? s.nv.obs i = some k → (getLn s l).role = .anon →
    r = clearFail (modLn (advance s dt) l (fun x => { x with resp := none })) b →
    exec (.loginReply dt l) s =
      .next (finishJob (modLn r l (fun x => { x with role := .observer i, nonce := some n, prov := false })) (fun k => k == .login l) []
        [w "OK", { val := [.s "OB", .d i] }])) ∧
  (∀ h wr c s k d, myDk (begun h s) h = d → unwrapKey (begun h s) h "TENANT-REKEY" 3 wr c = .ok k →
    Replies (.loginRekey h wr c) { word := "LOGIN", prov := true } h s
      (let b := clearFail (begun h s) d; modLn { b with nv := { b.nv with dk := tset b.nv.dk d { k := k, setAt := now b } } } h.line (fun x => { x with prov := false })) []
      [w "OK", dTok d, w "REKEYED", kt "KEYSET" (now (begun h s))]) ∧
  (∀ h s, Replies (.logout h) { word := "LOGOUT", roles := allRoles, prov := true } h s
    (tenantGone (modLn (begun h s) h.line (fun x => { x with role := .anon, nonce := none, prov := false, sm := none, chal := none }))
      (getLn (begun h s) h.line).role) [] [w "OK", w "LOGOUT"])

/-- DECKLE OPEN, GRANT, CLOSE, RECLAIM, REARM and LIST, couches and zeroing have their effect. DECKLE OPEN on a CLOSED deckle
with a key and free units enters OPEN with the grant read, starts the couches and awaits them; GRANT zeroes what leaves and
holds the deckle REASON=GRANT; CLOSE and RECLAIM begin zeroing and await it; COUCH_COMPLETE ends a couch and ZEROING_COMPLETE
zeroes the deckle and ends its sessions, here with no command waiting for them; REARM clears every rearm mark; LIST shows.
(Rests on 05_deckles_and_furnishes, 01_secrecy_and_roles, 14_vat_and_pad_banks.) -/
def Obligations.DeckleCommandsComplete : Prop :=
  (∀ h d g s s0 l n, begun h s = s0 → d < 8 → readGrant false 4 g = .ok l →
    ["CH", "BANKS", "SHARE"].find? (fun k => !(l.any (fun r => r.key == k))) = none → (getDk s0 d).st = .closed →
    (tget? s0.nv.dk d).isSome = true → n = applyGrant {} l → grantChecks s0 d l n = .ok () →
    ∀ r, r = modDk (beginCouch s0 n.banks (some d)) d (fun k =>
        { k with st := .opened, grant := n, why := none, sealN := none, work := {}, act := {}, shad := {},
                 trace := { k.trace with lastTime := some (now (beginCouch s0 n.banks (some d))) } }) →
    Awaits (.deckleOpen h d g) (ownerForm "DECKLE") h s r
      (.couch d [w "OK", w "DECKLE", { val := [.d d] }, w "OPEN", kn "CH" n.ch.length, kn "BANKS" n.banks.length,
        eighths "SHARE" n.share, eighths "FREE" (8 - shareTotal r)])) ∧
  (∀ dt b s r, r = couchDone (advance s dt) (b : Fin 64) → r.jobs = [] →
    exec (.couchComplete dt b) s = .next r) ∧
  (∀ h d g s s0 l k n r, begun h s = s0 → d < 8 → readGrant true 4 g = .ok l → getDk s0 d = k → k.st = .opened ∨ k.st = .held → k.arming = none →
    n = applyGrant k.grant l → n.ch ≠ [] → n.banks ≠ [] → grantChecks s0 d l n = .ok () → (heldSlots s0 d).length ≤ n.slots →
    r = holdDeckle (cancelWarm (modDk (beginCouch (beginCouch
          (keep (forEach (allKinds.map (fun u => (u, (k.grant.of u).filter (fun x => !(n.of u).contains x)))) s0 (fun s e => zeroUnits s d e.1 e.2)))
          (k.grant.banks.filter (fun b => !n.banks.contains b)) none) (n.banks.filter (fun b => !k.grant.banks.contains b)) (some d))
        d (fun k => { k with grant := n })) d "GRANT") d .grant →
    couchesOf r d = [] →
    Replies (.deckleGrant h d g) (ownerForm "DECKLE") h s r []
      ([w "OK", w "DECKLE", { val := [.d d] }, w "GRANT"] ++ grantFields n l ++ [eighths "FREE" (8 - shareTotal r)])) ∧
  (∀ h d s, d < 8 → (getDk (begun h s) d).st = .opened ∨ (getDk (begun h s) d).st = .held → (getDk (begun h s) d).arming = none →
    Awaits (.deckleClose h d) (ownerForm "DECKLE") h s (beginZero (begun h s) d)
      (.zero d [w "OK", w "DECKLE", { val := [.d d] }, w "CLOSED"])) ∧
  (∀ h d s, d < 8 → (getDk (begun h s) d).st.isOpen = true →
    Awaits (.deckleReclaim h d) (ownerForm "DECKLE") h s (reclaim (begun h s) d)
      (.zero d [w "OK", w "DECKLE", { val := [.d d] }, w "RECLAIMED"])) ∧
  (∀ dt d s r, (getDk s (d : Fin 8)).st = .zeroing → r = zeroDeckle (tellReclaimed (advance s dt) d) d →
    r.jobs = [] → exec (.zeroingComplete dt d) s = .next (finishRelease r)) ∧
  (∀ h s, Replies (.deckleRearm h) (ownerForm "DECKLE") h s
    (deckles.foldl (fun s d => modDk s d (fun k => { k with rearm := false })) (begun h s)) [] [w "OK", w "DECKLE", w "REARM"]) ∧
  (∀ h s, Replies (.deckleList h none) { ownerForm "DECKLE" with ro := true } h s (begun h s)
    (deckles.map (deckleLine (begun h s))) [w "OK", w "DECKLE"]) ∧
  (∀ h d s, d < 8 → Replies (.deckleList h (some d)) { ownerForm "DECKLE" with ro := true } h s (begun h s)
    [deckleLine (begun h s) d] [w "OK", w "DECKLE"])

/-- AT keeps, cancels and executes actions. AT with a tick at least 2,500 ticks ahead keeps the action under a free ID; AT
CANCEL of a pending action at least 2,500 ticks ahead removes it; AT_ACTION_DUE executes an action whose tick has come, or puts
it off while the vendor region is reloaded; VENDOR_RELOAD_COMPLETE without an error counts the reload, rewrites the vendor
region from the retention copy, tells the owner and takes the actions put off. (Rests on 04_noram_line, 07_time_and_reference,
10_customer_microcode.) -/
def Obligations.AtCommandsComplete : Prop :=
  (∀ h t late c s s0 d k n id, begun h s = s0 → myDk s0 h = d → getDk s0 d = k → atTick s0 h t = .ok n →
    checkSched k (if late then 4 else 3) c = .ok () → k.ats.length < 16 → now s0 + 2500 ≤ n → id = freeId k 16 k.atNext →
    Replies (.atSchedule h t late c) (tenantForm "AT") h s
      (setDk s0 d { k with ats := k.ats ++ [{ id := id, t := n, act := c }], atNext := idAfter id }) []
      [w "OK", w "AT", dTok d, kn "ID" id, kt "T" n]) ∧
  (∀ dt d id s a, (getDk s (d : Fin 8)).ats.find? (fun a => a.id == id) = some a → atDue (advance s dt) d a = true → s.md.reload = false →
    exec (.atActionDue dt d id) s = .next (takeAction (advance s dt) d a)) ∧
  (∀ dt d id s a, (getDk s (d : Fin 8)).ats.find? (fun a => a.id == id) = some a → atDue (advance s dt) d a = true → s.md.reload = true →
    exec (.atActionDue dt d id) s =
      .next (setDk { advance s dt with md := { s.md with deferred := s.md.deferred ++ [((d : Nat), id)] } } d
        { getDk s d with ats := (getDk s d).ats.map (fun b => if b.id == id then { b with late := true } else b) })) ∧
  (∀ h n s s0 d k a, begun h s = s0 → myDk s0 h = d → getDk s0 d = k → 1 ≤ n → n ≤ 255 → k.ats.find? (fun a => a.id == n) = some a →
    now s0 + 2500 ≤ a.t →
    Replies (.atCancel h n) (tenantForm "AT") h s (setDk s0 d { k with ats := k.ats.filter (fun x => x.id != n) }) []
      [w "OK", w "AT", w "CANCEL", dTok d, kn "ID" n]) ∧
  (∀ dt s r r1, s.md.reload = true →
    r = { advance s dt with md := { s.md with reload := false, vreload := min (s.md.vreload + 1) 65535 } } →
    r1 = ownerEvent (rewriteVendor r) .fault [w "F-MCHK", kw "REGION" "VENDOR", w "RELOADED"] →
    exec (.vendorReloadComplete dt true true) s = .next (takeDeferred (levelUpdate r1 (now r1))))

/-- The FURNISH commands seal, save, load, mark, drop, edit, revert and show. SEAL of a valid furnish sets the seal; SAVE writes
the slot and awaits its CRC; LOAD of a good slot takes its furnish, validates and seals; START marks a start slot; DROP erases a
slot and its mark; SLOTS and SHOW show; SET edits OPTIONS as R167 says; REVERT makes the shadow the active furnish again;
FURNISH_SAVE_COMPLETE and SLOT_ERASE_COMPLETE end what they name. (Rests on 05_deckles_and_furnishes, 22_command_index.) -/
def Obligations.FurnishCommandsComplete : Prop :=
  (∀ h s s0 d r, begun h s = s0 → myDk s0 h = d → (getDk s0 d).st = .opened ∨ (getDk s0 d).st = .held → (getDk s0 d).arming = none →
    validate s0 d (getDk s0 d).grant (getDk s0 d).work = none → r = setSeal s0 d →
    Replies (.furnishSeal h) (tenantForm "FURNISH") h s r []
      [w "OK", w "FURNISH", w "SEAL", dTok d, kn "SEAL" ((getDk r d).sealN.getD 0), kv "CRC" [.hx (getDk r d).crc 8]]) ∧
  (∀ h n s s0 d x r, begun h s = s0 → myDk s0 h = d → ownSlot s0 d 3 n = .ok x → (getDk s0 d).st = .opened ∨ (getDk s0 d).st = .held →
    (getDk s0 d).arming = none → x.ok = true → validate (cancelWarm (loadSlot s0 d x) d "EDIT") d (getDk s0 d).grant x.f = none →
    r = loadSeal (cancelWarm (loadSlot s0 d x) d "EDIT") d x →
    Replies (.furnishLoad h n) (tenantForm "FURNISH") h s r []
      ([w "OK", w "FURNISH", w "LOAD", dTok d, kn "SLOT" n] ++ sealToks ((getDk r d).sealN.getD 0) (getDk r d).crc)) ∧
  (∀ h n s s0 d k, begun h s = s0 → myDk s0 h = d → getDk s0 d = k → n < 16 → slotErasing s0 n = false →
    (tget? s0.nv.slots n).map (fun x => x.own) = some d → k.st = .opened → k.sealN.isSome = true → k.arming = none →
    Awaits (.furnishSave h n) (tenantForm "FURNISH") h s { s0 with nv := { s0.nv with slots := tset s0.nv.slots n (slotOf s0 d) } } (.save d n)) ∧
  (∀ dt d s j l n r, s.jobs = j :: l → j.kind = .save (d : Fin 8) n →
    r = slotDone (advance s dt) n →
    exec (.furnishSaveComplete dt d) s =
      .next (completeJob r j [] ([w "OK", w "FURNISH", w "SAVE", dTok d, kn "SLOT" n] ++ sealToks (tget r.nv.slots n {}).sealN (tget r.nv.slots n {}).crc))) ∧
  (∀ h n s s0 d x, begun h s = s0 → myDk s0 h = d → ownSlot s0 d 3 n = .ok x → (getDk s0 d).st = .opened →
    Replies (.furnishStart h (some n)) (tenantForm "FURNISH") h s (setDk s0 d { getDk s0 d with startSlot := some n }) []
      [w "OK", w "FURNISH", w "START", dTok d, kn "SLOT" n]) ∧
  (∀ h s s0 d, begun h s = s0 → myDk s0 h = d → (getDk s0 d).st = .opened →
    Replies (.furnishStart h none) (tenantForm "FURNISH") h s (setDk s0 d { getDk s0 d with startSlot := none }) []
      [w "OK", w "FURNISH", w "START", dTok d, kw "SLOT" "NONE"]) ∧
  (∀ h n s s0 d x, begun h s = s0 → myDk s0 h = d → ownSlot s0 d 3 n = .ok x → (getDk s0 d).st = .opened →
    Replies (.furnishDrop h n) (tenantForm "FURNISH") h s
      (setDk (dropSlot s0 n) d { getDk s0 d with startSlot := if (getDk s0 d).startSlot = some n then none else (getDk s0 d).startSlot }) []
      [w "OK", w "FURNISH", w "DROP", dTok d, kn "SLOT" n]) ∧
  (∀ dt n s, exec (.slotEraseComplete dt n) s =
    .next { advance s dt with nv := { s.nv with erasing := tdel s.nv.erasing n } }) ∧
  (∀ h s s0 d k l, begun h s = s0 → myDk s0 h = d → getDk s0 d = k → l = s0.nv.slots.filter (fun e => e.2.own = d) →
    Replies (.furnishSlots h) (readForm "FURNISH") h s s0
      (l.map (fun e => [w "FS", { val := [.d e.1] }] ++ sealToks e.2.sealN e.2.crc ++ [kb "START" (k.startSlot = some e.1), kn "MIB" e.2.mib]))
      [w "OK", w "FURNISH", w "SLOTS", dTok d, kn "N" l.length, kn "FREE" (k.grant.slots - l.length)]) ∧
  (∀ h x f s s0 d k g r t, begun h s = s0 → myDk s0 h = d → getDk s0 d = k → optionHead (x : Fld).key = "" →
    (numbered 3 (x :: f)).find? (fun e => optionHead e.2.key != "") = none → foldFields optionField 3 id (x :: f) = .ok g →
    holds k .v ((x :: f).flatMap fieldBanks) = .ok () →
    edit s0 d (some "OPTIONS") g = .ok (r, t) →
    Replies (.furnishSet h (x :: f)) (tenantForm "FURNISH") h s r [] ([w "OK", w "FURNISH", w "SET", dTok d] ++ t)) ∧
  (∀ h s s0 d, begun h s = s0 → myDk s0 h = d → (getDk s0 d).st.shadowed = true →
    Replies (.furnishRevert h) (tenantForm "FURNISH") h s
      (setDk s0 d { getDk s0 d with shad := (getDk s0 d).act, dirty := false, need := [], staged := [], stagedN := 0 }) []
      [w "OK", w "FURNISH", w "REVERT", dTok d]) ∧
  (∀ h x s s0 d k l, begun h s = s0 → myDk s0 h = d → getDk s0 d = k → x ∈ sections → x ≠ "PATTERN" →
    l = (sectionText (shown s0 d true) d k.editing x).map (fun t => [w "FU", w x] ++ t) →
    Replies (.furnishShow h (some x) true) (readForm "FURNISH") h s s0 l
      [w "OK", w "FURNISH", w "SHOW", dTok d, w "SHADOW", kn "N" l.length]) ∧
  (∀ h s s0 s1 d k l, begun h s = s0 → myDk s0 h = d → getDk s0 d = k →
    s1 = forEach ((k.editing.stripe ++ k.editing.prog.toList).filter k.grant.banks.contains) s0 wakeBank →
    imageOk (shown s1 d true) k (k.editing.within k.grant) = .ok () →
    l = (sectionText (shown s1 d true) d k.editing "PATTERN").map (fun t => [w "FU", w "PATTERN"] ++ t) →
    Replies (.furnishShow h (some "PATTERN") true) (readForm "FURNISH") h s s1 l
      [w "OK", w "FURNISH", w "SHOW", dTok d, w "SHADOW", kn "N" l.length])

/-- ARM, RUN, TRIG, STOP, STOP OFF and PRESS, and what completes them, have their effect. ARM that passes its checks begins the
arm and awaits it, and ARM_COMPLETE leaves the deckle ARMED with its reply; an ARM that must wait for WARM says WAITWARM; RUN
and TRIG of an ARMED deckle start the run; STOP ends a wait for WARM, stops an ARMED deckle and of a RUNNING one awaits its
boundary; STOP OFF begins the outputs' way down and STOP_OFF_COMPLETE leaves the deckle OPEN; PRESS that validates is taken from
the end of a placed quire's first sheet and awaits its boundary, PRESS_BOUNDARY applies it and PRESS_NOBOUNDARY refuses it after
10 ms. (Rests on 05_deckles_and_furnishes, 06_clockless_core, 07_time_and_reference, 03_power_to_ready.) -/
def Obligations.RunCommandsComplete : Prop :=
  (∀ h s s0 d, begun h s = s0 → myDk s0 h = d → armState s0 d = .ok () → armLock s0 = .ok () → mustWait s0 d = false → armChecks s0 d = .ok () →
    Awaits (.arm h) (tenantForm "ARM") h s (armBegin s0 d) (.arm d)) ∧
  (∀ h s s0 d, begun h s = s0 → myDk s0 h = d → armState s0 d = .ok () → armLock s0 = .ok () → mustWait s0 d = true →
    Replies (.arm h) (tenantForm "ARM") h s (setDk s0 d { getDk s0 d with waitWarm := true }) [] [w "OK", w "ARM", dTok d, w "WAITWARM"]) ∧
  (∀ dt d s t r, (getDk s (d : Fin 8)).arming = some t →
    r = keep (setSt (modDk (armUnits (advance s dt) d) d (fun k => { k with arming := none })) d .armed) → hasJob r (fun j => j == .arm d) = true →
    exec (.armComplete dt d) s = .next (finishJob r (fun j => j == .arm d) [] [w "OK", w "ARM", dTok d, kt "SETTLED" t])) ∧
  (∀ h s s0 d, begun h s = s0 → myDk s0 h = d → (getDk s0 d).st = .armed →
    Replies (.run h) (tenantForm "RUN") h s (beginRun s0 d (ceilTo (now s0 + 2500) 1250 * 1024) none) [] [w "OK", w "RUN", dTok d]) ∧
  (∀ h s s0 d t, begun h s = s0 → myDk s0 h = d → (getDk s0 d).st = .armed → cmdGroup s0 (getDk s0 d) = none → t = ceilTo (now s0 + 2500) 1250 →
    Replies (.trig h) (tenantForm "TRIG") h s (incr (beginRun s0 d ((t + 35) * 1024) (some (t * 1024))) d 25) [] [w "OK", w "TRIG", dTok d]) ∧
  (∀ h s s0 d, begun h s = s0 → myDk s0 h = d → (getDk s0 d).waitWarm = true →
    Replies (.stop h) (tenantForm "STOP") h s (modDk s0 d (fun k => { k with waitWarm := false })) []
      [w "OK", w "STOP", dTok d, kw "WAITWARM" "CANCELLED"]) ∧
  (∀ h s s0 d, begun h s = s0 → myDk s0 h = d → (getDk s0 d).waitWarm = false → (getDk s0 d).st = .armed →
    Replies (.stop h) (tenantForm "STOP") h s (stopArmed s0 d) [] (stopLine (getDk (stopArmed s0 d) d) d)) ∧
  (∀ h s s0 d, begun h s = s0 → myDk s0 h = d → (getDk s0 d).waitWarm = false → (getDk s0 d).st = .running →
    Awaits (.stop h) (tenantForm "STOP") h s (modSeq s0 d (fun q => { q with stops := q.stops ++ [.stop] })) (.stop d)) ∧
  (∀ h s s0 d, begun h s = s0 → myDk s0 h = d → (getDk s0 d).st = .running → (getDk s0 d).arming = none →
    Awaits (.stopOff h) (tenantForm "STOP") h s (modSeq s0 d (fun q => { q with stops := q.stops ++ [.off] })) (.stopOff d)) ∧
  (∀ h s s0 d, begun h s = s0 → myDk s0 h = d → (getDk s0 d).st = .armed → (getDk s0 d).arming = none →
    Awaits (.stopOff h) (tenantForm "STOP") h s (beginOff (stopArmed s0 d) d) (.stopOff d)) ∧
  (∀ dt d s s0 k r, advance s dt = s0 → getDk s0 (d : Fin 8) = k → hasJob s0 (fun j => j == .stopOff d) = true → k.st ≠ .running → tdrBusy s0 d = false → ramping s0 d = false →
    k.mchk = false → k.dirty = false →
    r = setSt (modDk (modDk (outputsOff s0 d) d (fun k => { k with cause := none, mchk := false })) d (fun k => { k with why := none })) d .opened →
    (getDk (outputsOff s0 d) d).dirty = false →
    exec (.stopOffComplete dt d) s = .next (finishJobs r (fun j => j == .stopOff d) [] (stopLine k d))) ∧
  (∀ h s s0 d, begun h s = s0 → myDk s0 h = d → (getDk s0 d).st.live = true → (getDk s0 d).arming = none → (getDk s0 d).press = none →
    (getDk s0 d).need.find? (fun i => i != auxList || listBusy s0 (getDk s0 d) (getDk s0 d).shad) = none →
    validatePress s0 d (getDk s0 d).grant (getDk s0 d).shad (getDk s0 d).act = none →
    Awaits (.press h) (tenantForm "PRESS") h s (modDk s0 d (fun k => { k with press := some (validated s0 k, k.shad) })) (.press d)) ∧
  (∀ dt d s t f, (getDk s (d : Fin 8)).st = .armed ∨ (getDk s d).st = .stopped → (getDk s d).press = some (t, f) →
    exec (.pressBoundary dt d) s =
      .next (let r := commitPress (advance s dt) d (now (advance s dt)) f
             endPlays (finishJobs r.1 (fun j => j == .press d) []
               [w "OK", w "PRESS", dTok d, kt "BOUNDARY" (now (advance s dt)), kt "SETTLED" r.2]) d)) ∧
  (∀ dt d s t f, (getDk s (d : Fin 8)).st = .running → (getDk s d).press = some (t, f) → t + 12500000 ≤ now (advance s dt) →
    pressReached (getDk s d) = none →
    exec (.pressNoboundary dt d) s =
      .next (endPlays (finishJobs (setDk (advance s dt) d { getDk s d with press := none }) (fun j => j == .press d) [] e424) d))

/-- The TSET commands edit and show timing sets and deskew; delay lines lose and regain lock. TSET COUNT, PERIOD, pin fields,
COPY and DESKEW edit the furnish that R167 says with exactly the fields given; SHOW and DESKEW SHOW show the furnish in force;
DESKEW MEASURE of a STOPPED deckle puts the pins at VIL and awaits its result, whose round trips become the deskew of the
shadow; F_DLL unlocks a line with its note or fault and DLL_LOCKED locks it again. (Rests on 11_calender_and_formats,
22_command_index.) -/
def Obligations.TsetCommandsComplete : Prop :=
  (∀ h n s s0 d r t, begun h s = s0 → myDk s0 h = d → 1 ≤ n → n ≤ 32 →
    edit s0 d (some "TSET-COUNT") (fun f => { f with tcount := n, tsets := f.tsets.filter (fun e => e.1 < n) }) = .ok (r, t) →
    Replies (.tsetCount h n) (tenantForm "TSET") h s r [] ([w "OK", w "TSET", dTok d, w "COUNT"] ++ t)) ∧
  (∀ h i v s s0 d p r t, begun h s = s0 → myDk s0 h = d → i < (getDk s0 d).editing.tcount → readFine 3 0 2147483647 v = .ok p →
    edit s0 d none (fun f => { f with tsets := tset f.tsets i { f.tset i with period := p.toNat } }) = .ok (r, t) →
    Replies (.tsetPeriod h i v) (tenantForm "TSET") h s r [] ([w "OK", w "TSET", dTok d, { val := [.d i] }] ++ t)) ∧
  (∀ h i l f s s0 d g cs r t, begun h s = s0 → myDk s0 h = d → i < (getDk s0 d).editing.tcount → f ≠ [] → foldFields tpinField 4 id f = .ok g →
    chansOf (getDk s0 d) 3 l = .ok cs →
    edit s0 d none (fun x => { x with tsets := tset x.tsets i { x.tset i with pin := cs.foldl (fun p c => tset p c (g (tget p c {}))) (x.tset i).pin } }) = .ok (r, t) →
    Replies (.tsetPinFields h i l f) (tenantForm "TSET") h s r [] ([w "OK", w "TSET", dTok d, { val := [.d i] }] ++ t)) ∧
  (∀ h i j s s0 d r t, begun h s = s0 → myDk s0 h = d → i < (getDk s0 d).editing.tcount → j < (getDk s0 d).editing.tcount →
    edit s0 d none (fun f => { f with tsets := tset f.tsets i (f.tset j) }) = .ok (r, t) →
    Replies (.tsetCopy h i j) (tenantForm "TSET") h s r [] ([w "OK", w "TSET", dTok d, { val := [.d i] }] ++ t)) ∧
  (∀ h i s s0 d k x, begun h s = s0 → myDk s0 h = d → getDk s0 d = k → i < k.inForce.tcount → x = k.inForce.tset i →
    Replies (.tsetShow h i none) (readForm "TSET") h s s0
      ([w "TS", { val := [.d i] }, kn "PERIOD" x.period] ::
        (sortNat k.grant.ch).map (fun c => [w "TP", { val := [.d i] }, uTok .ch c] ++ tpinLine x c true))
      [w "OK", w "TSET", w "SHOW", dTok d, { val := [.d i] }, kn "N" (sortNat k.grant.ch).length]) ∧
  (∀ h l f s s0 d g cs r t, begun h s = s0 → myDk s0 h = d → f ≠ [] → foldFields deskewField 4 id f = .ok g → unitsOf (getDk s0 d) 3 .ch l = .ok cs →
    edit s0 d none (fun x => { x with dsk := cs.foldl (fun p c => tset p c (g (tget p c {}))) x.dsk }) = .ok (r, t) →
    Replies (.tsetDeskew h l f) (tenantForm "TSET") h s r [] ([w "OK", w "TSET", dTok d, w "DESKEW"] ++ t)) ∧
  (∀ h l s s0 d cs, begun h s = s0 → myDk s0 h = d → unitsOf (getDk s0 d) 4 .ch l = .ok cs → (getDk s0 d).st = .stopped →
    Awaits (.tsetDeskewMeasure h l) (tenantForm "TSET") h s
      (keep (forEach cs s0 (fun s c => modPin s c (fun p => if p.dead || p.px then p else { p with drv := .vil, on := true })))) (.deskew d cs)) ∧
  (∀ dt (d : Fin 8) res s j l cs s0 s1, s.jobs = j :: l → j.kind = .deskew d cs → (getDk s d).st = .stopped → advance s dt = s0 →
    s1 = modDk (forEach cs s0 (fun s c => modPin s c (fun p => pinRest p (restOf (getDk s0 d) c)))) d (fun k => { k with dirty := true, shad := { k.shad with
        dsk := (cs.filterMap (fun c => (tripOf res c).map (fun rt => (c, rt)))).foldl (fun p e => tset p e.1 { drv := -halfTrip e.2, cmp := halfTrip e.2 }) k.shad.dsk } }) →
    exec (.deskewMeasureComplete dt d res) s =
      .next ((fun r : State => if hasJob r (fun j => j == .stopOff d) then beginOff r d else r) (completeJob (keep s1) j
        (cs.map (fun c => [w "TD", uTok .ch c] ++ (match tripOf res c with
          | some rt => [kv "RT" [.d rt], kv "DRV" [.d (-halfTrip rt)], kv "CMP" [.d (halfTrip rt)]]
          | none => [w "NONE"])))
        [w "OK", w "TSET", w "DESKEW", w "MEASURE", dTok d, kn "N" cs.length, w "SHADOW"]))) ∧
  (∀ h s s0 d k, begun h s = s0 → myDk s0 h = d → getDk s0 d = k →
    Replies (.tsetDeskewShow h) (readForm "TSET") h s s0
      (k.grant.ch.map (fun c => [w "DS", uTok .ch c, kv "DRV" [.d (tget k.inForce.dsk c {}).drv], kv "CMP" [.d (tget k.inForce.dsk c {}).cmp]]))
      [w "OK", w "TSET", w "DESKEW", w "SHOW", dTok d, kn "N" k.grant.ch.length]) ∧
  (∀ dt c s d r, (getPin s (c : Fin 48)).dll = true → (advance s dt).rf.lock ≠ .holdover → holder s .ch (c : Fin 48) = some d → r = setPin (advance s dt) c { getPin s c with dll := false } →
    exec (.fDll dt c) s = .next (detect r d .dll [kv "CH" (unitName .ch c)])) ∧
  (∀ dt c s r, (getPin s (c : Fin 48)).dll = false → holder s .ch c = none → linesOpen s = true →
    r = setPin (advance s dt) c { getPin s c with dll := true } →
    exec (.dllLocked dt c) s = .next (ownerEvent r .note [w "DLL-LOCKED", kv "CH" (unitName .ch c)]))

/-- PIN and LEVEL commands edit and show the pin settings; level ticks, dwells and pin protection act on the pins they name. PIN
NAME and REST, LEVEL and LEVEL PMU edit the furnish that R167 says in exactly the channels named; PIN SHOW and LEVEL SHOW show
the furnish in force; LEVEL_TICK applies the entries that are due at the last level tick (a multiple of 1,250 ticks); dwells and
the reconnection of a PMU end; F-PIN turns the channel or the die off and faults the deckles that hold it; a PMU at its clamp
gives LIMIT once; FE_WARM tells the owner once. (Rests on 12_pin_front_end, 22_command_index.) -/
def Obligations.PinCommandsComplete : Prop :=
  (∀ h c n s s0 d r t, begun h s = s0 → myDk s0 h = d → pinNameOk n = true → c < 48 → c ∈ (getDk s0 d).grant.ch →
    edit s0 d none (fun f => { f with pins := tset f.pins c { tget f.pins c {} with name := n } }) = .ok (r, t) →
    Replies (.pinName h c n) (tenantForm "PIN") h s r [] ([w "OK", w "PIN", dTok d, kn "N" 1] ++ t)) ∧
  (∀ h l v x s s0 d cs r t, begun h s = s0 → myDk s0 h = d → pick 3 [("HIZ", Rest.hiz), ("LOW", .low), ("HIGH", .high), ("TERM", .term)] v = .ok x →
    unitsOf (getDk s0 d) 2 .ch l = .ok cs →
    edit s0 d none (fun f => { f with pins := cs.foldl (fun p c => tset p c { tget p c {} with rest := x }) f.pins }) = .ok (r, t) →
    Replies (.pinRest h l v) (tenantForm "PIN") h s r [] ([w "OK", w "PIN", dTok d, kn "N" (sortNat cs).length] ++ t)) ∧
  (∀ h s s0 d k, begun h s = s0 → myDk s0 h = d → getDk s0 d = k →
    Replies (.pinShow h none) (readForm "PIN") h s s0
      ((sortNat k.grant.ch).map (fun c => [w "PN", uTok .ch c, kn "P" (pinIndex k c), nameTok (tget k.inForce.pins c {}).name, kw "REST" (tget k.inForce.pins c {}).rest.name]))
      [w "OK", w "PIN", w "SHOW", dTok d, kn "N" (sortNat k.grant.ch).length]) ∧
  (∀ h l f s s0 d g cs r t, begun h s = s0 → myDk s0 h = d → f ≠ [] → foldFields levelField 3 id f = .ok g → unitsOf (getDk s0 d) 2 .ch l = .ok cs →
    edit s0 d none (fun x => { x with lev := cs.foldl (fun p c => tset p c (g (tget p c {}))) x.lev }) = .ok (r, t) →
    Replies (.level h l f) (tenantForm "LEVEL") h s r [] ([w "OK", w "LEVEL", dTok d, { val := rangeList l }] ++ t)) ∧
  (∀ h l f s s0 d g cs r t, begun h s = s0 → myDk s0 h = d → f ≠ [] → pmuFields f = .ok g → unitsOf (getDk s0 d) 2 .ch l = .ok cs →
    edit s0 d none (fun x => { x with lev := cs.foldl (fun p c => tset p c (g (tget p c {}))) x.lev }) = .ok (r, t) →
    Replies (.levelPmu h l f) (tenantForm "LEVEL") h s r [] ([w "OK", w "LEVEL", dTok d, { val := rangeList l }] ++ t)) ∧
  (∀ h s s0 d k, begun h s = s0 → myDk s0 h = d → getDk s0 d = k →
    Replies (.levelShow h none) (readForm "LEVEL") h s s0 ((sortNat k.grant.ch).map (fun c => levelLine c (tget k.inForce.lev c {})))
      [w "OK", w "LEVEL", w "SHOW", dTok d, kn "N" (sortNat k.grant.ch).length]) ∧
  (∀ dt s s0, advance s dt = s0 → s.md.reload = false → s.rf.run = true →
    exec (.levelTick dt) s = .next (keep { s0 with pin := tmap s0.pin (fun p => dueLevels (now s0 / 1250 * 1250) (now s0 / 1250 * 1250) p.lq p) })) ∧
  (∀ dt c s, (getPin s (c : Fin 48)).dwell.isSome = true ∨ (getPin s c).cdwell.isSome = true →
    exec (.rangeDwellEnd dt c) s = .next (keep (setPin (advance s dt) c (endDwell (now (advance s dt) / 1250 * 1250) (now (advance s dt)) (getPin s c))))) ∧
  (∀ dt c s t, (getPin s (c : Fin 48)).recon = some t → t + 6250 ≤ now (advance s dt) →
    exec (.pmuReconnectEnd dt c) s = .next (setPin (advance s dt) c { getPin s c with recon := none, px := false })) ∧
  (∀ dt c s d r, (getPin s (c : Fin 48)).on = true → holder s .ch c = some d → r = setPin (advance s dt) c (killPin (getPin s c)) →
    exec (.fPinDrvi dt c) s = .next (keep (detect r d .pin [kw "CAUSE" "DRVI", kv "CH" (unitName .ch c)]))) ∧
  (∀ dt c s d r, (getPin s (c : Fin 48)).lim = false → (getPin s c).cur.pmu = .fv → holder s .ch c = some d →
    r = setPin (advance s dt) c { getPin s c with lim := true } →
    exec (.pmuClampLimit dt c false) s = .next (event r d .limit [w "PMU", kv "CH" (unitName .ch c), kw "CLAMP" "I"])) ∧
  (∀ dt n s r, (getFe s (n : Fin 6)).warm = false → linesOpen s = true →
    r = { advance s dt with fe := tset s.fe n { getFe s n with warm := true } } →
    exec (.feWarm dt n) s = .next (ownerEvent r .note [w "FE-WARM", kv "FE" [.s "FE", .d n]])) ∧
  (∀ dt n s cs r, cs = (List.range 8).map (fun i => 8 * (n : Fin 6).val + i) →
    r = forEach cs { advance s dt with fe := tset s.fe n { getFe s n with hot := true } } (fun s c => modPin s c killPin) →
    exec (.fPinHot dt n) s = .next (keep ((deckles.filter (fun d => cs.any (fun c => (getDk r d).grant.ch.contains c))).foldl
      (fun s d => detect s d .pin [kw "CAUSE" "HOT", kv "FE" [.s "FE", .d n]]) r)))

/-- BANK, BROKE and CAPTURE commands have their effect. BANK POWER brings the banks named to the state named and BANK ZERO of an
OPEN or HELD deckle awaits its completion, which zeroes them; BANK SHOW and POOL show; BROKE and CAPTURE report the logs, SHOW
and READ give their records, COUNT the fail counts, and CLEAR zeroes the log, its queue, positions and counters. BANK POWER
answers at once and COMPLETE of a stopped run at the open instant is a free bit: choices of the model's log. (Rests on
14_vat_and_pad_banks, 13_fail_capture, 22_command_index.) -/
def Obligations.BankAndLogCommandsComplete : Prop :=
  (∀ h l p s s0 d b, begun h s = s0 → myDk s0 h = d → unitsOf (getDk s0 d) 3 .v l = .ok b → (getDk s0 d).st ∈ powerStates p → (getDk s0 d).arming = none →
    Replies (.bankPower h l p) (tenantForm "BANK") h s (forEach (sortNat b) (if p = .off then clearSeal s0 d "EDIT" else s0) (putPower p)) []
      [w "OK", w "BANK", w "POWER", dTok d, kn "N" (sortNat b).length]) ∧
  (∀ h l s s0 d b, begun h s = s0 → myDk s0 h = d → unitsOf (getDk s0 d) 3 .v l = .ok b → (getDk s0 d).st = .opened ∨ (getDk s0 d).st = .held →
    (getDk s0 d).arming = none →
    Awaits (.bankZero h l) (tenantForm "BANK") h s (clearSeal s0 d "EDIT") (.bankZero d (sortNat b))) ∧
  (∀ dt d s l r, zeroing (advance s dt) (d : Fin 8) = some l → r = forEach l (advance s dt) (fun s b => if (getBk s b).wd then s else zeroBank s b) →
    exec (.bankZeroComplete dt d) s =
      .next (finishJob r (fun x => match x with | .bankZero e _ => e == d.val | _ => false) [] [w "OK", w "BANK", w "ZERO", dTok d, kn "N" l.length])) ∧
  (∀ h s s0 d k l, begun h s = s0 → myDk s0 h = d → getDk s0 d = k → l = sortNat k.grant.banks →
    Replies (.bankShow h none) (readForm "BANK") h s s0
      (l.map (fun n => [w "BK", uTok .v n, kv "ROLE" (bankRoles k.inForce n), kw "POWER" (getBk s0 n).pow.name,
        kv "TSMASK" [.hx (getBk s0 n).tsm 8], kv "TMASK" [.hx (getBk s0 n).tm 12]]))
      [w "OK", w "BANK", w "SHOW", dTok d, kn "N" l.length]) ∧
  (∀ h s free, free = banksThat (begun h s) (fun x => x.own.isNone && x.couch.isNone && !x.wd) →
    Replies (.bankPool h) { ownerForm "BANK" with ro := true } h s (begun h s)
      ([[w "BP", kv "FREE" (unitList .v free)], [w "BP", kv "WITHDRAWN" (unitList .v (banksThat (begun h s) (fun x => x.wd)))],
        [w "BP", kv "ZEROING" (unitList .v (banksThat (begun h s) (fun x => x.couch.isSome)))]] ++
       (deckles.filter (fun d => (getDk (begun h s) d).st ≠ .closed)).map (fun d =>
         [w "BP", dTok d, kv "BANKS" (unitList .v ((getDk (begun h s) d).grant.banks.filter (fun b => (getBk (begun h s) b).couch.isNone)))]))
      [w "OK", w "BANK", w "POOL", kn "FREE" free.length]) ∧
  (∀ h s s0 d k c r, begun h s = s0 → myDk s0 h = d → getDk s0 d = k → k.st ∈ anySt → complete s0 k = (c, r) →
    Replies (.broke h) (readForm "BROKE") h s r [] [w "OK", w "BROKE", dTok d, kv "BANK" (bankOr (logBank k k.act.bbank)), kw "MODE" k.act.bmode.name,
      kn "RECORDS" (tget k.cnt 3 0), kn "LOST" (tget k.cnt 4 0), kb "FULL" k.res.bfull, kb "COMPLETE" c]) ∧
  (∀ h s s0 d k c r, begun h s = s0 → myDk s0 h = d → getDk s0 d = k → k.st ∈ anySt → complete s0 k = (c, r) →
    Replies (.capture h) (readForm "CAPTURE") h s r [] [w "OK", w "CAPTURE", dTok d, kv "BANK" (bankOr (logBank k k.act.cbank)), kw "MODE" k.act.cmode.name,
      kn "ENTRIES" (tget k.cnt 5 0), kn "LOST" (tget k.cnt 6 0), kb "FULL" k.res.cfull, kb "COMPLETE" c]) ∧
  (∀ h i n s s0 d k r l, begun h s = s0 → myDk s0 h = d → getDk s0 d = k → k.st ∈ anySt → i < 16384 → 1 ≤ n → n ≤ 256 →
    showLog s0 (logBank k k.act.bbank) 16384 64 i n (brLine k) = .ok (r, l) →
    Replies (.brokeShow h (some i) (some n)) (readForm "BROKE") h s r l [w "OK", w "BROKE", w "SHOW", dTok d, kn "N" l.length]) ∧
  (∀ h i n s s0 d k r l m, begun h s = s0 → myDk s0 h = d → getDk s0 d = k → k.st ∈ anySt → i < 16384 → 1 ≤ n → n ≤ 16384 - i →
    readLog s0 (logBank k k.act.bbank) 64 i n = .ok (r, l, m) →
    Replies (.brokeRead h (some i) (some n)) (readForm "BROKE") h s r l [w "OK", w "BROKE", w "READ", dTok d, kn "N" m]) ∧
  (∀ h s s0 d k, begun h s = s0 → myDk s0 h = d → getDk s0 d = k → k.st ∈ anySt →
    Replies (.brokeCount h none) (readForm "BROKE") h s s0
      ((sortNat k.grant.ch).map (fun n => [w "FC", { key := String.ofList ((Tok.bytes { val := unitName .ch n }).map Char.ofNat), val := [.d (tget k.res.fc n 0 : Nat)] }]))
      [w "OK", w "BROKE", w "COUNT", dTok d, kn "SHEETS" k.res.sheets]) ∧
  (∀ h i n s s0 d k r l, begun h s = s0 → myDk s0 h = d → getDk s0 d = k → k.st ∈ anySt → i < 32768 → 1 ≤ n → n ≤ 256 →
    showLog s0 (logBank k k.act.cbank) 32768 32 i n (cpLine k) = .ok (r, l) →
    Replies (.captureShow h (some i) (some n)) (readForm "CAPTURE") h s r l [w "OK", w "CAPTURE", w "SHOW", dTok d, kn "N" l.length]) ∧
  (∀ h i n s s0 d k r l m, begun h s = s0 → myDk s0 h = d → getDk s0 d = k → k.st ∈ anySt → i < 32768 → 1 ≤ n → n ≤ 32768 - i →
    readLog s0 (logBank k k.act.cbank) 32 i n = .ok (r, l, m) →
    Replies (.captureRead h (some i) (some n)) (readForm "CAPTURE") h s r l [w "OK", w "CAPTURE", w "READ", dTok d, kn "N" m]) ∧
  (∀ h s s0 d k, begun h s = s0 → myDk s0 h = d → getDk s0 d = k → k.st ∈ clearStates →
    Replies (.brokeClear h) (tenantForm "BROKE") h s
      (modRes (modDk (match logBank k k.act.bbank with | some n => zeroBank s0 n | none => s0) d (fun k => { k with cnt := tdel (tdel (tdel k.cnt 2) 3) 4 })) d
        (fun x => { x with fc := [], sheets := 0, bq := [], blost := false, bpos := 0, brec := 0, bfull := false })) []
      [w "OK", w "BROKE", w "CLEAR", dTok d]) ∧
  (∀ h s s0 d k, begun h s = s0 → myDk s0 h = d → getDk s0 d = k → k.st ∈ clearStates →
    Replies (.captureClear h) (tenantForm "CAPTURE") h s
      (modRes (modDk (match logBank k k.act.cbank with | some n => zeroBank s0 n | none => s0) d (fun k => { k with cnt := tdel (tdel k.cnt 5) 6 })) d
        (fun x => { x with cq := [], clost := false, cpos := 0, crec := 0, cfull := false })) []
      [w "OK", w "CAPTURE", w "CLEAR", dTok d])

/-- BANK STRIPE, DATA and SEQ commands write, read and report the pattern. BANK STRIPE, SEQ BANK, SEQ ENTRY edit the furnish;
DATA SHEETS and DATA SHEET write whole sheet words where no program slot lies, SEQ LOAD and SEQ OP write ops, each at once in
OPEN and HELD and staged otherwise, as putSheets and putOps say; DATA READ, SEQ LIST and SEQ COST report. (Rests on
08_sheets_quires_sequences, 06_clockless_core, 14_vat_and_pad_banks.) -/
def Obligations.PatternCommandsComplete : Prop :=
  (∀ h l s s0 d b r t, begun h s = s0 → myDk s0 h = d → expand 3 .v l = .ok b → repeated [] b = none → (∀ x ∈ b, x ∈ (getDk s0 d).grant.banks) →
    edit s0 d (some "BANK-STRIPE") (fun f => { f with stripe := b }) = .ok (r, t) →
    Replies (.bankStripe h l) (tenantForm "BANK") h s r [] ([w "OK", w "BANK", w "STRIPE", dTok d, kn "N" b.length] ++ t)) ∧
  (∀ h pa n blk s s0 d p r t, BlkIs h blk s p → begunBlk h blk s = s0 → myDk s0 h = d →
    quireRange (getDk s0 d) (getDk s0 d).editing 3 pa n = .ok () → quiresHeld (getDk s0 d) (getDk s0 d).editing pa n = .ok () → p.length = n * (4 * (getDk s0 d).width) →
    notProgram (getDk s0 d) (getDk s0 d).editing pa n = .ok () → quiresFault (getDk s0 d) pa (splitNums ((getDk s0 d).width / 8) p.length p) = none →
    putSheets s0 d "DATA-SHEETS" (32 * pa) (splitNums ((getDk s0 d).width / 8) p.length p) = .ok (r, t) →
    RepliesBlk (.dataSheets h pa n blk) (tenantForm "DATA") h blk s r [] ([w "OK", w "DATA", w "SHEETS", dTok d, kn "PA" pa, kn "N" n] ++ t)) ∧
  (∀ h pa i ts codes cs s s0 d k r t, begun h s = s0 → myDk s0 h = d → getDk s0 d = k → pa < patternSize k.editing k.width → i < 32 → ts < 32 →
    (codes : String).toList.filterMap codeOf = cs → cs.length = codes.length → codes.length = k.grant.ch.length →
    quiresHeld k k.editing pa 1 = .ok () → notProgram k k.editing pa 1 = .ok () → putSheets s0 d "DATA-SHEET" (32 * pa + i) [sheetOf ts 0 cs] = .ok (r, t) →
    Replies (.dataSheet h pa i ts [] codes) (tenantForm "DATA") h s r [] ([w "OK", w "DATA", w "SHEET", dTok d, kn "PA" pa, kn "S" i] ++ t)) ∧
  (∀ h pa n s s0 d k l r, begun h s = s0 → myDk s0 h = d → getDk s0 d = k → quireRange k k.inForce 3 pa n = .ok () → quiresHeld k k.inForce pa n = .ok () → n * (4 * k.width) ≤ 1048576 →
    l = (List.range n).map (fun i => quireAddr k.inForce k.width (pa + i)) → r = forEach l s0 (fun s a => wakeBank s (a / 2 ^ 20)) →
    l.forM (fun a => readOk r a (4 * k.width)) = .ok () →
    Replies (.dataRead h pa n) (readForm "DATA") h s r (blkLines (l.flatMap (fun a => memBytes r.vat a (4 * k.width))))
      [w "OK", w "DATA", w "READ", dTok d, kn "PA" pa, kn "N" n]) ∧
  (∀ h v s s0 d r t, begun h s = s0 → myDk s0 h = d → v ≤ 63 → v ∈ (getDk s0 d).grant.banks →
    edit s0 d (some "SEQ-BANK") (fun f => { f with prog := some v }) = .ok (r, t) →
    Replies (.seqBank h v) (tenantForm "SEQ") h s r [] ([w "OK", w "SEQ", w "BANK", dTok d, uTok .v v] ++ t)) ∧
  (∀ h a blk s s0 d p r t, BlkIs h blk s p → begunBlk h blk s = s0 → myDk s0 h = d → p.length % 8 = 0 → a < 131072 → a + p.length / 8 ≤ 131072 → progHeld (getDk s0 d) (getDk s0 d).editing = .ok () →
    putOps s0 d "SEQ-LOAD" a (splitNums 8 p.length p) = .ok (r, t) →
    RepliesBlk (.seqLoad h a blk) (tenantForm "SEQ") h blk s r [] ([w "OK", w "SEQ", w "LOAD", dTok d, kn "OP" a, kn "N" (p.length / 8)] ++ t)) ∧
  (∀ h a x o s s0 d r t, begun h s = s0 → myDk s0 h = d → a < 131072 → assemble 4 x = .ok o → putOps s0 d "SEQ-OP" a [o.word] = .ok (r, t) →
    Replies (.seqOp h a x) (tenantForm "SEQ") h s r [] ([w "OK", w "SEQ", w "OP", dTok d, { val := [.d a] }, kv "ENC" [.hx o.word 16]] ++ t)) ∧
  (∀ h a s s0 d r t, begun h s = s0 → myDk s0 h = d → a < 131072 → edit s0 d (some "SEQ-ENTRY") (fun f => { f with entry := a }) = .ok (r, t) →
    Replies (.seqEntry h a) (tenantForm "SEQ") h s r [] ([w "OK", w "SEQ", w "ENTRY", dTok d, { val := [.d a] }] ++ t)) ∧
  (∀ h a b v s s0 d f r, begun h s = s0 → myDk s0 h = d → (getDk s0 d).inForce = f → a ≤ b → b < 131072 → progHeld (getDk s0 d) f = .ok () → f.prog = some v → r = wakeBank s0 v →
    bankErr r (opAddr v a) (8 * (b + 1 - a)) = none →
    Replies (.seqList h (some (a, b))) (readForm "SEQ") h s r ((List.range (b + 1 - a)).map (fun i =>
        let o := readOp r f (a + i)
        [w "SQ", { val := [.d (a + i : Nat)] }, { val := [.hx o.word 16] }] ++ opText o))
      [w "OK", w "SEQ", w "LIST", dTok d, kn "N" (b + 1 - a)]) ∧
  (∀ h s s0 d k, begun h s = s0 → myDk s0 h = d → getDk s0 d = k → progHeld k k.inForce = .ok () → programReadable s0 k.inForce = none →
    Replies (.seqCost h) (readForm "SEQ") h s s0 [] (costLine d (admission s0 d k.grant k.inForce)))

/-- The MICRO commands store images, write and read the slices, and report. MICRO IMAGE of a container that passes its checks
begins its store and awaits it, and MICRO_IMAGE_STORED ends it; LIST lists the stored images, DROP removes a patch; LOAD, WORD,
DISPATCH and CLEAR write the slice or the table, at once in OPEN and HELD and staged otherwise; READ, DISPATCH LIST and CHECK
report. (Rests on 10_customer_microcode, 22_command_index.) -/
def Obligations.MicroCommandsComplete : Prop :=
  (∀ h kind n blk c s s0 p x, BlkIs h blk s p → begunBlk h blk s = s0 → (n.isSome = true ↔ kind = ImgKind.patch) → n.getD 0 < 16 →
    imageChecks s0 kind (n.getD 0) p c = .ok () → x = imageOf kind p c →
    AcceptsBlk (ownerForm "MICRO") h blk s →
    exec (.microImage h kind n blk c) s = .next (awaits h (blkText blk) s0 (beginStore s0 kind (n.getD 0) x)
      (.image [w "OK", w "MICRO", w "IMAGE", w kind.name, kn "RBI" x.rbi, kw "EFFECTIVE" "RESTART"]) none)) ∧
  (∀ dt s k n x l j rest t r, s.md.storing = (k, n, x) :: l → r = endStore (advance s dt) k n x → r.jobs = j :: rest → j.kind = .image t →
    exec (.microImageStored dt) s = .next (completeJob r j [] t)) ∧
  (∀ h s l, l = (s.nv.fwA.map (imageLine [w "FW", w "A"])).toList ++ (s.nv.fwB.map (imageLine [w "FW", w "B"])).toList ++
      [imageLine [w "UCODE"] s.nv.uc] ++ s.nv.patches.map (fun e => imageLine [w "PATCH", { val := [.d e.1] }] e.2) →
    Replies (.microImageList h) { ownerForm "MICRO" with ro := true } h s (begun h s) l [w "OK", w "MICRO", w "IMAGE", w "LIST", kn "N" l.length]) ∧
  (∀ h n s, n < 16 → Replies (.microImageDrop h n) (ownerForm "MICRO") h s
    { begun h s with nv := { s.nv with patches := tdel s.nv.patches n } } [] [w "OK", w "MICRO", w "IMAGE", w "DROP", w "PATCH", { val := [.d n] }]) ∧
  (∀ h nano a blk s s0 d p sz o r t, BlkIs h blk s p → begunBlk h blk s = s0 → myDk s0 h = d → sz = (if nano then 16 else 4) → p.length % sz = 0 →
    a < (if nano then 4096 else 16384) → sliceRange d 4 nano a (p.length / sz) = .ok o → writeSlice s0 d nano o p = .ok (r, t) →
    RepliesBlk (.microLoad h nano a blk) (tenantForm "MICRO") h blk s r []
      ([w "OK", w "MICRO", w "LOAD", dTok d, storeTok nano, { val := [.d a] }, kn "N" (p.length / sz)] ++ t)) ∧
  (∀ h a v s s0 d o r t, begun h s = s0 → myDk s0 h = d → (v : Hex).val < 2 ^ 32 → sliceRange d 4 false a 1 = .ok o →
    writeSlice s0 d false o (leNats 4 v.val) = .ok (r, t) →
    Replies (.microWord h a v none) (tenantForm "MICRO") h s r [] ([w "OK", w "MICRO", w "WORD", dTok d, storeTok false, { val := [.d a] }] ++ t)) ∧
  (∀ h a v lo s s0 d o r t, begun h s = s0 → myDk s0 h = d → (v : Hex).val < 2 ^ 64 → (lo : Hex).val < 2 ^ 64 → sliceRange d 4 true a 1 = .ok o →
    writeSlice s0 d true o (leNats 8 lo.val ++ leNats 8 v.val) = .ok (r, t) →
    Replies (.microWord h a v (some lo)) (tenantForm "MICRO") h s r [] ([w "OK", w "MICRO", w "WORD", dTok d, storeTok true, { val := [.d a] }] ++ t)) ∧
  (∀ h e v s s0 d r t, begun h s = s0 → myDk s0 h = d → e < 32 → (v : Hex).val < 2 ^ 32 → v.val / 2 ^ 10 % 2 ^ 18 = 0 → writeOrStage s0 d "MICRO-LOAD" 4 (.disp e v.val) id = .ok (r, t) →
    Replies (.microDispatchWrite h e v) (tenantForm "MICRO") h s
      (modEditing r d (fun f => { f with ctab := if v.val = 0 then tdel f.ctab e else tset f.ctab e v.val })) []
      ([w "OK", w "MICRO", w "DISPATCH", dTok d, { val := [.d e] }] ++ t)) ∧
  (∀ h s s0 d, begun h s = s0 → myDk s0 h = d →
    Replies (.microDispatchList h) (readForm "MICRO") h s s0
      ((List.range 32).map (fun (e : Nat) => [w "MD", { val := [.d (e : Nat)] }, { val := [.hx (tget (getDk s0 d).inForce.ctab (e : Nat) 0) 8] }]))
      [w "OK", w "MICRO", w "DISPATCH", dTok d, kn "N" 32]) ∧
  (∀ h nano a n s s0 d o, begun h s = s0 → myDk s0 h = d → 1 ≤ n → sliceRange d 4 nano a n = .ok o →
    Replies (.microRead h nano a n) (readForm "MICRO") h s s0
      (blkLines (if nano then memBytes s0.nst (16 * (sliceN d + o)) (16 * n) else memBytes s0.ust (4 * (sliceU d + o)) (4 * n)))
      [w "OK", w "MICRO", w "READ", dTok d, storeTok nano, { val := [.d a] }, kn "N" n]) ∧
  (∀ h s s0 d f sites, begun h s = s0 → myDk s0 h = d → (getDk s0 d).inForce = f → progHeld (getDk s0 d) f = .ok () → programReadable s0 f = none →
    sites = sitesOf s0 d (getDk s0 d).grant f (progOf s0 d (getDk s0 d).grant f) → microFault s0 sites = none →
    admitted s0 d (getDk s0 d).grant f "PATTERN" = none →
    Replies (.microCheck h) (readForm "MICRO") h s s0 (sites.map (siteLine s0))
      [w "OK", w "MICRO", w "CHECK", dTok d, kn "SITES" sites.length, kv "AN" [.d s0.md.runFw.ver.1, .s ".", .d s0.md.runFw.ver.2.1]]) ∧
  (∀ h s s0 d r t, begun h s = s0 → myDk s0 h = d → writeOrStage s0 d "MICRO-LOAD" 0 .clear (fun s => applyStaged s d .clear) = .ok (r, t) →
    Replies (.microClear h) (tenantForm "MICRO") h s (modEditing r d (fun f => { f with ctab := [] })) [] ([w "OK", w "MICRO", w "CLEAR", dTok d] ++ t))

/-- Each stock op, taken by a thread that stands at it, has its effect. A thread that may take a step and stands at NOP, HALT,
RUN, MATCH, WAITT, LOOP, ENDL, JUMP, CALL, RET, BRFAIL, MARK, LEARN, TSEL or a defined custom op executes it: the dispatch, loop
counter, stack, mark, mask, timing-set override or jump of its rule, its steps counted and the next op taken, at the loop depth
it has in the program, as opEnd says; RESULT_WAIT_RELEASE ends a wait whose results are in. (Rests on
08_sheets_quires_sequences, 10_customer_microcode, 06_clockless_core.) -/
def Obligations.StockOpsComplete : Prop :=
  (∀ dt d s o s0 k, AtOp dt d s o → advance s dt = s0 → getDk s d = k → o.code = 0x00 →
    exec (.opNop dt d) s = .next (opEnd s0 d 0x00 1 (k.thr.ip + 1))) ∧
  (∀ dt d s o s0 k, AtOp dt d s o → advance s dt = s0 → getDk s d = k → o.code = 0x01 →
    exec (.opHalt dt d) s = .next (modDk (opEnd s0 d 0x01 1 (k.thr.ip + 1)) d (fun k =>
      { k with thr := { k.thr with active := false }, seq := { k.seq with halting := true } }))) ∧
  (∀ dt d s o s0 k, AtOp dt d s o → advance s dt = s0 → getDk s d = k → o.code = 0x10 → k.seq.dreg = none →
    exec (.opRun dt d) s =
      .next (opEnd (dispatch (incr (endWait s0 d) d 11) d o.a (o.b % 2 ^ 16 + 1) false (o.flag % 2 = 1) none) d 0x10 1 (k.thr.ip + 1))) ∧
  (∀ dt d s o s0 k, AtOp dt d s o → advance s dt = s0 → getDk s d = k → o.code = 0x11 → k.thr.mt = none → k.seq.dreg = none →
    exec (.opMatch dt d) s =
      .next (matchRep (modSeq (incr (endWait (modSeq s0 d (fun q => { q with lim2 := true })) d) d 11) d (fun q => { q with matched := none })) d o.a
        { first := k.seq.nextD, reps := 0 })) ∧
  (∀ dt d s o s0 k m, AtOp dt d s o → advance s dt = s0 → getDk s d = k → o.code = 0x11 → k.thr.mt = some m → k.seq.dreg = none → 3 ≤ m.reps →
    resultsIn k.seq = true → k.seq.matched.any (fun j => j + 3 ≤ k.seq.nextD) = true →
    exec (.opMatch dt d) s = .next (modThr (goOp (endWait s0 d) d (k.thr.ip + 1)) d (fun t => { t with mt := none }))) ∧
  (∀ dt d s o s0 k, AtOp dt d s o → advance s dt = s0 → getDk s d = k → o.code = 0x12 → k.seq.dreg = none →
    exec (.opWaitt dt d) s =
      .next (let r := incr (endWait s0 d) d 11
             opEnd (dispatch r d o.a (waittReps o (quireLen k.act k.seq.tsel (readQuire r k.act k.width o.a))) true true none) d 0x12 2 (k.thr.ip + 1))) ∧
  (∀ dt d s o s0 k, AtOp dt d s o → advance s dt = s0 → getDk s d = k → o.code = 0x20 → k.thr.depth < 4 →
    exec (.opLoop dt d) s =
      .next (opEnd (modThr s0 d (fun t => { t with lc := tset t.lc t.depth o.b, learn := learnLoop s0 d k })) d 0x20 1 (k.thr.ip + 1))) ∧
  (∀ dt d s o s0 k c, AtOp dt d s o → advance s dt = s0 → getDk s d = k → o.code = 0x21 → 0 < k.thr.depth → tget k.thr.lc (k.thr.depth - 1) 0 = c → 0 < c →
    exec (.opEndl dt d) s =
      .next (opEnd (modThr s0 d (fun t => { t with lc := tset t.lc (k.thr.depth - 1) (c - 1), learn := learnTurn t.learn (k.thr.depth - 1) })) d 0x21 1
        (o.b % 2 ^ 17))) ∧
  (∀ dt d s o s0 k, AtOp dt d s o → advance s dt = s0 → getDk s d = k → o.code = 0x21 → 0 < k.thr.depth → tget k.thr.lc (k.thr.depth - 1) 0 = 0 →
    exec (.opEndl dt d) s =
      .next (opEnd (modThr s0 d (fun t => { t with lc := tset t.lc (k.thr.depth - 1) 0, learn := learnTurn t.learn (k.thr.depth - 1) }))
        d 0x21 1 (k.thr.ip + 1))) ∧
  (∀ dt d s o s0, AtOp dt d s o → advance s dt = s0 → o.code = 0x22 →
    exec (.opJump dt d) s = .next (opEnd s0 d 0x22 1 (o.b % 2 ^ 17))) ∧
  (∀ dt d s o s0 k, AtOp dt d s o → advance s dt = s0 → getDk s d = k → o.code = 0x23 → k.thr.os.length < 16 →
    exec (.opCall dt d) s =
      .next (opEnd (modDk (modThr s0 d (fun t => { t with os := (t.ip + 1, t.depth) :: t.os })) d (fun k => cntMax k 15 k.thr.os.length)) d 0x23 2 (o.b % 2 ^ 17))) ∧
  (∀ dt d s o s0 k r e l, AtOp dt d s o → advance s dt = s0 → getDk s d = k → o.code = 0x24 → k.thr.os = (r, e) :: l →
    exec (.opRet dt d) s = .next (opEnd (modThr s0 d (fun t => { t with os := l })) d 0x24 2 r)) ∧
  (∀ dt d s o s0 k bit, AtOp dt d s o → advance s dt = s0 → getDk s d = k → o.code = 0x25 → resultsIn k.seq = true →
    bit = (if o.flag / 2 % 2 = 1 then k.seq.sfail else qfailOf k.seq) → o.flag / 4 % 2 = 0 →
    exec (.opBrfail dt d) s =
      .next (opEnd (endWait (modSeq s0 d (fun q => { q with lim2 := true })) d) d 0x25 2
        (if (bit != decide (o.flag % 2 = 1)) = true then o.b % 2 ^ 17 else k.thr.ip + 1))) ∧
  (∀ dt d s o s0 k, AtOp dt d s o → advance s dt = s0 → getDk s d = k → o.code = 0x30 →
    exec (.opMark dt d) s = .next (opEnd (modSeq s0 d (fun q => armMark q (o.flag % 8) (o.b % 32))) d 0x30 1 (k.thr.ip + 1))) ∧
  (∀ dt d s o s0 k, AtOp dt d s o → advance s dt = s0 → getDk s d = k → o.code = 0x31 →
    exec (.opLearn dt d) s = .next (opEnd (modThr s0 d (fun t => { t with lmask := o.b % 16 })) d 0x31 1 (k.thr.ip + 1))) ∧
  (∀ dt d s o s0 k, AtOp dt d s o → advance s dt = s0 → getDk s d = k → o.code = 0x32 →
    exec (.opTsel dt d) s = .next (opEnd (modSeq s0 d (fun q => { q with tsel := o.b % 32 })) d 0x32 1 (k.thr.ip + 1))) ∧
  (∀ dt d s o s0 k e, AtOp dt d s o → advance s dt = s0 → getDk s d = k → 0xE0 ≤ o.code → tget k.act.ctab (o.code - 0xE0) 0 = e → e / 2 ^ 31 % 2 = 1 →
    exec (.opCustom dt d) s =
      .next (modDk (modThr (scratch (traceRoutine (stepsRun s0 d 2) d 0x200 k.thr.ip 2) d) d (fun t =>
        { t with g := tset (tset (tset (tset t.g 11 (BitVec.ofNat 32 o.flag)) 12 (BitVec.ofNat 32 o.b)) 13 (BitVec.ofNat 32 o.a)) 14
                        (BitVec.ofNat 32 (t.ip + 1)),
                 u0 := o.flag % 2 = 1, u1 := o.flag / 2 % 2 = 1, ms := [{ addr := 0, vendor := true }], upc := sliceU d + e % 1024,
                 cust := true, lmask := 0 })) d (fun k => cntMax k 14 k.thr.ms.length))) ∧
  (∀ dt d s, (getDk s (d : Fin 8)).thr.wait = some .brfail → threadOk (advance s dt) (getDk s d) = true → resultsIn (getDk s d).seq = true →
    exec (.resultWaitRelease dt d) s = .next (endWait (advance s dt) d))

/-- The sequencer's own events, when due, have their effect. With room in the lead the headbox writes the next quire of the
dispatch register onto the felts; at the decision point of a running deckle the first quire on the felts is placed whole, and an
empty felt faults the deckle with FELT-STARVED; at a boundary at which a stop waits the deckle stops; a queued broke record
drains into the next 64 bytes of its bank and a capture entry into the next 32; of FAIL-OUT and TRIG-OUT every rise is dropped
whose pulse is over; a waiting FAIL-OUT mapping applies at once when its deckle does not run. (Rests on
08_sheets_quires_sequences, 06_clockless_core, 13_fail_capture, 16_aux_stimulus, 19_faults_and_events.) -/
def Obligations.SequencerEventsComplete : Prop :=
  (∀ dt d s s0 k x, advance s dt = s0 → getDk s0 (d : Fin 8) = k → k.seq.dreg = some x → lead k.seq (now s0) < leadLimit k.seq → k.seq.bad = none → k.seq.stops = [] →
    k.st = .running → bankErr s0 (quireAddr k.act k.width x.pa) (4 * k.width) = none → k.thr.wait = none →
    exec (.headboxQuireWrite dt d) s =
      .next (modSeq s0 d (fun z => { z with
        felts := z.felts ++ [{ pa := x.pa, q := k.seq.nextD - x.left, seg := x.pos, sheets := readQuire s0 k.act k.width x.pa, marks := x.marks,
                               tsel := x.tsel, learn := x.learn, rep := x.rep, ffofs := x.ffofs }],
        dreg := x.rest }))) ∧
  (∀ dt d obs s s0 k q l, pressDue (advance s dt) (d : Fin 8) = s0 → getDk s0 d = k → k.st = .running → s0.rf.run = true → k.seq.start ≤ now s0 * 1024 + 16384 →
    k.seq.stops = [] → stopPending k = false → k.seq.felts = q :: l → s0.ph.fo ≠ some d.val →
    exec (.quireDecision dt d obs) s = .next (placeQuire (pressAhead s0 d q) d (furnishFor k q) q obs)) ∧
  (∀ dt d obs s s0 k, pressDue (advance s dt) (d : Fin 8) = s0 → getDk s0 d = k → k.st = .running → s0.rf.run = true → k.seq.start ≤ now s0 * 1024 + 16384 →
    k.seq.stops = [] → stopPending k = false → k.seq.halting = false → k.seq.felts = [] → k.seq.bad = none →
    exec (.quireDecision dt d obs) s = .next (detect s0 d .felt [w "FELT-STARVED"])) ∧
  (∀ dt d s s0 k, advance s dt = s0 → getDk s0 (d : Fin 8) = k → k.st = .running → k.seq.start ≤ now s0 * 1024 → k.seq.stops ≠ [] →
    exec (.quireBoundaryStop dt d) s = .next (endPlays (stopDeckle (fillLog (pressDue s0 d) d) d) d)) ∧
  (∀ dt d s s0 k r l b, advance s dt = s0 → getDk s0 (d : Fin 8) = k → k.res.bq = r :: l → k.act.bbank = some b → k.act.bmode = .first → k.res.bpos < 16383 →
    exec (.brokeDrain dt d false) s =
      .next (modRes (putBank (modRes (wakeBank s0 b) d (fun x => { x with bq := l })) b (64 * k.res.bpos) r.bytes) d
        (fun x => { x with bpos := x.bpos + 1, brec := x.brec + 1 }))) ∧
  (∀ dt d s s0 k r l b, advance s dt = s0 → getDk s0 (d : Fin 8) = k → k.res.cq = r :: l → k.act.cbank = some b → k.act.cmode = .first → k.res.cpos < 32767 →
    exec (.brokeDrain dt d true) s =
      .next (modRes (putBank (modRes (wakeBank s0 b) d (fun x => { x with cq := l })) b (32 * k.res.cpos) r.bytes) d
        (fun x => { x with cpos := x.cpos + 1, crec := x.crec + 1 }))) ∧
  (∀ dt s s0, advance s dt = s0 →
    exec (.failOutFall dt) s = .next { s0 with ph := { s0.ph with foUp := s0.ph.foUp.filter (fun r => now s0 * 1024 + 1023 < r + 16384) } }) ∧
  (∀ dt s s0 d, advance s dt = s0 → s0.ph.fo = some d → (getDk s0 d).st ≠ .running →
    exec (.failOutRemapApply dt) s = .next (applyFailOut s0)) ∧
  (∀ dt n s s0 l, advance s dt = s0 → tget? s0.ph.toUp (n : Fin 4) = some l →
    exec (.trigOutFall dt n) s =
      .next { s0 with ph := { s0.ph with toUp := tset s0.ph.toUp n (l.filter (fun r => now s0 * 1024 + 1023 < r + 16384)) } })

/-- PACE, REF, REF SELECT, TRIG-IN and the events of pace and reference have their effect. PACE SET of the pace in force
replies, and of another pace stores it and awaits it, PACE_REACHED makes it the pace with its replies and notes; PACE and REF
show what they show; a monitor window reports and derates and below one half faults F-PACE; REF SELECT of a source not in use
begins the switch and the lock ends it; a change of what REF-IN shows is recorded, and is the loss of the reference where the
loop is locked to it and it is no longer usable; the loss of the active reference puts the loop into holdover; the HQ-48/X
timebase holds 100 us later; an edge of TRIG-IN starts the deckles, groups and units that wait for it. (Rests on
07_time_and_reference, 06_clockless_core.) -/
def Obligations.PaceAndReferenceComplete : Prop :=
  (∀ h p s s0, begun h s = s0 → p = s0.nv.pace → s0.pc.next = none →
    Replies (.paceSet h p) { word := "PACE", roles := [.o] } h s s0 [] [w "OK", w "PACE", w p.name]) ∧
  (∀ h p s s0, begun h s = s0 → p ≠ s0.nv.pace → s0.nv.pace.floor ≤ p.floor →
    Awaits (.paceSet h p) { word := "PACE", roles := [.o] } h s { s0 with nv := { s0.nv with pace := p }, pc := { s0.pc with next := some p, low := some (s0.pc.next.toList.foldl slower (s0.pc.low.getD s0.nv.pace)) } } (.pace p)) ∧
  (∀ dt s s0 p, { advance s dt with pc := { s.pc with now := p, next := none, low := none, skip := true, hi := (0, 0) } } = s0 → s.pc.next = some p →
    exec (.paceReached dt) s =
      .next (noteAll ([Pace.eco, .nominal, .swift].foldl (fun s q => finishJobs s (fun j => j == .pace q) [] [w "OK", w "PACE", w q.name]) s0)
        [w "PACE", w p.name])) ∧
  (∀ h s s0, begun h s = s0 → (getLn s0 h.line).role ≠ .owner →
    Replies (.pace h) { word := "PACE", roles := [.o, .t], ro := true } h s s0 [] [w "OK", w "PACE", w s0.nv.pace.name, kv "D" [.fx (5 * s0.pc.d20 : Nat) 2]]) ∧
  (∀ dt ratio s s0, reportRatio (advance s dt) ratio = s0 → (advance s dt).rf.run = true → s0.pc.next = none → s0.pc.skip = false → 1 / 2 ≤ ratio →
    exec (.monitorWindowEnd dt ratio) s = .next (derate s0 ratio)) ∧
  (∀ dt ratio s s0, reportRatio (advance s dt) ratio = s0 → (advance s dt).rf.run = true → s0.pc.next = none → s0.pc.skip = false → ratio < 1 / 2 →
    exec (.monitorWindowEnd dt ratio) s = .next (moduleFault (derate s0 ratio) "F-PACE" false)) ∧
  (∀ h s s0, begun h s = s0 →
    Replies (.ref h) { word := "REF", roles := [.o, .t], ro := true } h s s0 []
      [w "OK", w "REF", kw "SEL" s0.nv.sel.name, kw "ACTIVE" (activeName s0), kw "IN" s0.rf.cls.name, kw "OVEN" (ovenName s0),
       kb "WARM" s0.md.warm, kw "LOCK" s0.rf.lock.name]) ∧
  (∀ h src force s s0, begun h s = s0 → src ≠ .chain → isSlave s0 = false → (src ≠ .int ∨ s0.nv.variant = .o) → refInUse s0 src = false →
    (src ≠ .ext ∨ s0.rf.usable = true) → (force = true ∨ anyInUse s0 = false) →
    Awaits (.refSelect h src force) { word := "REF", roles := [.o] } h s (beginSwitch s0 src) (.ref src false)) ∧
  (∀ h src force s s0, begun h s = s0 → src ≠ .chain → isSlave s0 = false → (src ≠ .int ∨ s0.nv.variant = .o) → refInUse s0 src = true →
    Replies (.refSelect h src force) { word := "REF", roles := [.o] } h s s0 [] [w "OK", w "REF", kw "SEL" src.name, kw "ACTIVE" src.name]) ∧
  (∀ dt s s0 src, advance s dt = s0 → s0.rf.moving = some src → s0.rf.loss = false → s0.rf.lock = .unlocked → s.pc.repT = none →
    exec (.loopLock dt) s =
      .next (answerSwitches (setWarm { s0 with rf := { s0.rf with active := some src, lock := .locked, run := true, moving := none, hoT := none },
                                               pc := { s0.pc with repT := some s0.wall } }
        (warmAtLock { s0 with rf := { s0.rf with active := some src, lock := .locked, run := true, moving := none, hoT := none },
                              pc := { s0.pc with repT := some s0.wall } } src)))) ∧
  (∀ dt cls held s s0, advance s dt = s0 → s0.rf.active ≠ some .ext → s.nv.sel ≠ .ext →
    exec (.refinUsable dt ⟨cls, held⟩) s = .next { s0 with rf := { s0.rf with cls := cls, usable := held && (cls = .m10 || cls = .m100) } }) ∧
  (∀ dt cls held s s0, advance s dt = s0 → s0.rf.active = some .ext → s0.rf.lock = .locked → (held = false ∨ (cls ≠ .m10 ∧ cls ≠ .m100)) →
    exec (.refinUsable dt ⟨cls, held⟩) s = .next (refLoss s0 cls)) ∧
  (∀ dt s s0, advance s dt = s0 → s0.rf.lock = .locked → (s0.rf.active = some .ext ∨ s0.rf.active = some .chain) → exec (.refLost dt) s = .next (refLoss s0 .none)) ∧
  (∀ dt s s0 t, advance s dt = s0 → s0.rf.hoT = some t → s.nv.variant = .x → s0.rf.lock = .holdover → s0.rf.loss = true → s0.rf.moving = none →
    t + 100 * Config.us ≤ s0.wall →
    exec (.timebaseHold dt) s =
      .next (answerSwitches (setWarm (forEach deckles { s0 with rf := { s0.rf with run := false, lock := .held, active := none, hoT := none } } holdDeckleOutputs)
        false))) ∧
  (∀ dt rising fine s s0 src, advance s dt = s0 → s0.rf.run = true → src = (if rising = true then Trig.trigin else .triginF) →
    exec (.trigInEdge dt rising fine) s =
      .next (forEach deckles (trigInGroups src (now s0) (fine % 1024) (forEach deckles s0 (trigInDeckle src (now s0) (fine % 1024))))
        (fun s d => startUnits s d src (after16 (now s0 * 1024 + fine % 1024))))) ∧
  (∀ src t f s d, (getDk s d).act.trig = src → (getDk s d).arming = none → (getDk s d).st = .armed →
    trigInDeckle src t f s d =
      event (incr (beginRun s d ((t + 35) * 1024 + f) none) d 25) d .note [w "TRIGGERED", kt "TB" t, kn "FINE" f])

/-- CHAIN commands and the frames of the chain have their effect. CHAIN shows the role, hop and calibration; CHAIN ROLE MASTER
or OFF takes at once and SLAVE begins the switch to the chain reference; CHAIN CAL awaits its frame; CHAIN GROUP maps or unmaps
a group; the master sends a waiting frame or a heartbeat; a slave re-drives heartbeats and counts two in a row, takes group
starts and calibration, and loses its heartbeat; a deferred timebase load takes place when no deckle is in use. (Rests on
07_time_and_reference, 22_command_index.) -/
def Obligations.ChainComplete : Prop :=
  (∀ h s s0, begun h s = s0 → (getLn s0 h.line).role = .owner →
    Replies (.chain h) { word := "CHAIN", roles := [.o, .t], ro := true } h s s0 []
      [w "OK", w "CHAIN", kw "ROLE" (chainName s0.nv.chain), kn "HOP" s0.ch.hop, kw "CAL" (if s0.ch.cal then "YES" else "NO"),
       kw "HB" (if s0.ch.hb then "OK" else "LOST"), kv "GROUPS" (listAtoms (s0.ch.groups.map (fun e => [Atom.d e.1])))]) ∧
  (∀ h r force s s0, begun h s = s0 → r ≠ .slave →
    Replies (.chainRole h r force) { word := "CHAIN", roles := [.o] } h s (setRole s0 r) [] [w "OK", w "CHAIN", kw "ROLE" r.name]) ∧
  (∀ h force s s0, begun h s = s0 → refInUse s0 .chain = false → (force = true ∨ anyInUse s0 = false) →
    Awaits (.chainRole h .slave force) { word := "CHAIN", roles := [.o] } h s (beginSwitch (setRole s0 .slave) .chain) (.ref .chain true)) ∧
  (∀ h s s0, begun h s = s0 → s0.nv.chain = 1 → anyInUse s0 = false →
    Awaits (.chainCal h) { word := "CHAIN", roles := [.o] } h s s0 .cal) ∧
  (∀ h g s s0, begun h s = s0 → 1 ≤ g → g ≤ 15 → deckles.any (fun d => (getDk s0 d).inUse && (getDk s0 d).act.group = some g) = false →
    Replies (.chainGroup h g true none) { word := "CHAIN", roles := [.o] } h s { s0 with ch := { s0.ch with groups := tset s0.ch.groups g .cmd } } []
      [w "OK", w "CHAIN", w "GROUP", { val := [.d g] }, w "ON"]) ∧
  (∀ h g s s0, begun h s = s0 → 1 ≤ g → g ≤ 15 → deckles.any (fun d => (getDk s0 d).inUse && (getDk s0 d).act.group = some g) = false →
    Replies (.chainGroup h g false none) { word := "CHAIN", roles := [.o] } h s { s0 with ch := { s0.ch with groups := tdel s0.ch.groups g } } []
      [w "OK", w "CHAIN", w "GROUP", { val := [.d g] }, w "OFF"]) ∧
  (∀ dt s s0, advance s dt = s0 → s.nv.chain = 1 → s0.rf.run = true → j4Ok s = true → frameTime s0 = true → s.ch.due = [] →
    exec (.chainFrameSend dt) s = .next { s0 with ch := { s0.ch with sentT := some (now s0), sent := Frame.sealed { ty := 0, tb := now s0 } :: s0.ch.sent, j4 := true } }) ∧
  (∀ dt s s0 f r, advance s dt = s0 → s.nv.chain = 1 → s0.rf.run = true → j4Ok s = true → frameTime s0 = true → s.ch.due = f :: r →
    exec (.chainFrameSend dt) s =
      .next { s0 with ch := { s0.ch with due := r, sentT := some (now s0), sent := Frame.sealed { f with tb := now s0 } :: s0.ch.sent, j4 := true } }) ∧
  (∀ dt f s s0, redrive (advance s dt) f = s0 → isSlave s = true → f.valid = true → f.ty = 0 → s0.rf.lock = .locked → s0.rf.active = some .chain →
    s0.ch.hb = false → s0.ch.good = 0 →
    exec (.heartbeatFrame dt f) s =
      .next { s0 with ch := { s0.ch with good := 1, agree := now s0 ≤ f.tb + Config.hopDelay + 1 ∧ f.tb + Config.hopDelay ≤ now s0 + 1 } }) ∧
  (∀ dt f s s0 a, redrive (advance s dt) f = s0 → isSlave s = true → f.valid = true → f.ty = 0 → s0.rf.lock = .locked → s0.rf.active = some .chain →
    s0.ch.hb = false → s0.ch.good ≠ 0 →
    a = (decide (now s0 ≤ f.tb + Config.hopDelay + 1 ∧ f.tb + Config.hopDelay ≤ now s0 + 1) && s0.ch.agree) →
    exec (.heartbeatFrame dt f) s = .next (takeHeartbeat { s0 with ch := { s0.ch with good := 2, agree := a } } (f.tb + Config.hopDelay) a)) ∧
  (∀ dt f s s0, redrive (advance s dt) f = s0 → isSlave s = true → f.valid = true → f.ty = 2 → (tget? s0.ch.groups f.group).isSome = true →
    exec (.groupStartFrame dt f) s = .next (groupStart s0 f.group f.arg (f.fine % 1024))) ∧
  (∀ dt f s s0, advance s dt = s0 → f.valid = true → f.ty = 3 → s.nv.chain = 1 → hasJob s (fun j => j == .cal) = true →
    exec (.calibrationFrame dt f) s =
      .next (finishJobs (sendFrame { s0 with ch := { s0.ch with cal := true, delay := 0, hop := 0 } } { ty := 3, tb := now s0, arg := f.arg })
        (fun j => j == .cal) [] [w "OK", w "CHAIN", w "CAL"])) ∧
  (∀ dt lane s s0, loseHeartbeat (advance s dt) = s0 → isSlave s = true → 0 < lane → s0.rf.lock = .locked → s0.rf.active = some .chain →
    exec (.chainLost dt lane) s = .next (refLoss s0 .none)) ∧
  (∀ dt s s0, loseHeartbeat (advance s dt) = s0 → isSlave s = true →
    exec (.chainLost dt 0) s =
      .next (forEach deckles s0 (fun s d =>
        if (getDk s d).inUse && (getDk s d).act.group.isSome then detect s d .chain [w "CHAIN-LOST"] else s))) ∧
  (∀ dt s s0 x, advance s dt = s0 → s.ch.defer = some x → anyInUse s0 = false →
    exec (.chainTbLoad dt) s = .next (loadTb s0 ((now s0 : Int) + x).toNat))

/-- A customer microword of each sequencing mode, when the thread stands at it, executes as a step. For SEQ, JMP, CALL, RET, BR,
MWAY, LOOP and WAIT words: a thread in customer code that may take a step and stands at a good word of that mode, in no fence,
within the limits of its stack and with nothing to wait for, executes the step of the word. (Rests on 09_microengine,
10_customer_microcode.) -/
def Obligations.MicrowordsExecute : Prop :=
  (∀ dt d s x n, AtWord dt d s x n → x.mode = 0 → exec (.umodeSeq dt (some d) none) s = .next (runStep (advance s dt) d x n)) ∧
  (∀ dt d s x n, AtWord dt d s x n → x.mode = 1 → exec (.umodeJmp dt (some d) none) s = .next (runStep (advance s dt) d x n)) ∧
  (∀ dt d s x n, AtWord dt d s x n → x.mode = 2 → exec (.umodeCall dt (some d) none) s = .next (runStep (advance s dt) d x n)) ∧
  (∀ dt d s x n, AtWord dt d s x n → x.mode = 3 → exec (.umodeRet dt (some d) none) s = .next (runStep (advance s dt) d x n)) ∧
  (∀ dt d s x n, AtWord dt d s x n → x.mode = 4 → exec (.umodeBr dt (some d) none) s = .next (runStep (advance s dt) d x n)) ∧
  (∀ dt d s x n, AtWord dt d s x n → x.mode = 5 → exec (.umodeMway dt (some d) none) s = .next (runStep (advance s dt) d x n)) ∧
  (∀ dt d s x n, AtWord dt d s x n → x.mode = 6 → exec (.umodeLoop dt (some d) none) s = .next (runStep (advance s dt) d x n)) ∧
  (∀ dt d s x n, AtWord dt d s x n → x.mode = 7 → exec (.umodeWait dt (some d) none) s = .next (runStep (advance s dt) d x n))

/-- Each ALU operation of the table, in a step of a thread that may take it, has its effect. For each of the twenty ALU
operations, with defined source and destination codes: the ALU part applies the operation to sources A and B and to C2 as they
stand at the start of the step, updates the flags if UPD is 1, applies U0OP and U1OP, and writes the destination. (Rests on
09_microengine.) -/
def Obligations.AluOperationsComplete : Prop :=
  AluRowRuns (fun dt d f => .aluNop dt d f) 0 .nop ∧
  AluRowRuns (fun dt d f => .aluPass dt d f) 1 .pass ∧
  AluRowRuns (fun dt d f => .aluAdd dt d f) 2 .add ∧
  AluRowRuns (fun dt d f => .aluAdc dt d f) 3 .adc ∧
  AluRowRuns (fun dt d f => .aluSub dt d f) 4 .sub ∧
  AluRowRuns (fun dt d f => .aluSbc dt d f) 5 .sbc ∧
  AluRowRuns (fun dt d f => .aluAnd dt d f) 6 .and ∧
  AluRowRuns (fun dt d f => .aluOr dt d f) 7 .or ∧
  AluRowRuns (fun dt d f => .aluXor dt d f) 8 .xor ∧
  AluRowRuns (fun dt d f => .aluAndn dt d f) 9 .andn ∧
  AluRowRuns (fun dt d f => .aluShl dt d f) 10 .shl ∧
  AluRowRuns (fun dt d f => .aluShr dt d f) 11 .shr ∧
  AluRowRuns (fun dt d f => .aluAsr dt d f) 12 .asr ∧
  AluRowRuns (fun dt d f => .aluRor dt d f) 13 .ror ∧
  AluRowRuns (fun dt d f => .aluCmp dt d f) 14 .cmp ∧
  AluRowRuns (fun dt d f => .aluTst dt d f) 15 .tst ∧
  AluRowRuns (fun dt d f => .aluMin dt d f) 16 .min ∧
  AluRowRuns (fun dt d f => .aluMax dt d f) 17 .max ∧
  AluRowRuns (fun dt d f => .aluClz dt d f) 18 .clz ∧
  AluRowRuns (fun dt d f => .aluPopc dt d f) 19 .popc

/-- Each port action of the table, in a step of a thread that may take it, has its effect. For MRD and MWR of the thread pad,
DISP, QPOP of a result queue, QPUSH of the deckle's own queues, EVENT, SEQCTL TSEL, MARK and HALT, TBSET, SHWR within the
pattern and STEW: a thread that may take a step, in no fence and with nothing to wait for, performs the action. (Rests on
09_microengine, 10_customer_microcode, 08_sheets_quires_sequences.) -/
def Obligations.PortActionsComplete : Prop :=
  (∀ dt (d : Fin 8) (b : Fin 64) s s0 k, advance s dt = s0 → getDk s d = k → AtPart dt d s { pclass := 1, parg := pfield 90 1 + pfield 84 b } →
    k.thr.mar.toNat / 4 * 4 < 2 ^ 15 →
    exec (.portMrd dt d 1 b) s =
      .next (modThr s0 d (fun t => { t with mdr := BitVec.ofNat 32 (mnum s0.tpad (d * 2 ^ 15 + k.thr.mar.toNat / 4 * 4) 4) }))) ∧
  (∀ dt (d : Fin 8) (b : Fin 64) s s0 k, advance s dt = s0 → getDk s d = k → AtPart dt d s { pclass := 2, parg := pfield 90 1 + pfield 84 b } →
    k.thr.mar.toNat / 4 * 4 < 2 ^ 15 →
    exec (.portMwr dt d 1 b) s =
      .next { s0 with tpad := mputNum s0.tpad (d * 2 ^ 15 + k.thr.mar.toNat / 4 * 4) 4 k.thr.mdr.toNat }) ∧
  (∀ dt (d : Fin 8) cont (p n : Fin 16) s s0 k, advance s dt = s0 → getDk s d = k →
    AtPart dt d s { pclass := 3, parg := pfield 91 (if cont = true then 1 else 0) + pfield 87 p + pfield 83 n } →
    exec (.portDisp dt d cont p n) s =
      .next (dispatch (incr s0 d 11) d (k.thr.reg p).toNat ((k.thr.reg n).toNat + 1) false cont none)) ∧
  (∀ dt (d : Fin 8) (q : Fin 128) s s0 k x l, advance s dt = s0 → getDk s d = k → AtPart dt d s { pclass := 4, parg := pfield 84 q } →
    48 ≤ q.val → q.val ≤ 95 → tget k.res.rings (q.val - 48) [] = x :: l →
    exec (.portQpop dt d q) s =
      .next (modRes (modThr s0 d (fun t => { t with qin := x, qe := false })) d (fun z => { z with rings := tset z.rings (q.val - 48) l }))) ∧
  (∀ dt (d : Fin 8) (q : Fin 128) s s0 k, advance s dt = s0 → getDk s d = k → AtPart dt d s { pclass := 5, parg := pfield 84 q } → q.val = 112 + d →
    exec (.portQpush dt d q) s =
      .next (pushBroke s0 d { tb := now s0, kind := 4, rqn := k.seq.nextD, seg := k.seq.segpos, fail := k.thr.mdr.toNat })) ∧
  (∀ dt (d : Fin 8) (q : Fin 128) s s0 k, advance s dt = s0 → getDk s d = k → AtPart dt d s { pclass := 5, parg := pfield 84 q } → q.val = 120 + d →
    exec (.portQpush dt d q) s = .next (pushCapture s0 d { rqn := k.seq.nextD, flags := 2, hi := k.thr.mdr.toNat })) ∧
  (∀ dt (d : Fin 8) (c : Fin 4) (x : Fin 256) s s0 k, advance s dt = s0 → getDk s d = k → AtPart dt d s { pclass := 7, parg := pfield 90 c + pfield 82 x } →
    exec (.portEvent dt d c x) s =
      .next (uevent s0 d (classOf c) [w "UEVENT", kv "C" [.raw (hexBytes true 2 x)], kv "V" [.hx k.thr.mdr.toNat 8]])) ∧
  (∀ dt (d : Fin 8) a s s0, advance s dt = s0 → AtPart dt d s { pclass := 8, parg := pfield 89 0 } →
    exec (.seqctlTsel dt d a) s = .next (modSeq s0 d (fun q => { q with tsel := a.toNat % 32 }))) ∧
  (∀ dt (d : Fin 8) (m : Fin 8) a s s0, advance s dt = s0 → AtPart dt d s { pclass := 8, parg := pfield 89 1 + pfield 86 m } →
    exec (.seqctlMark dt d m a) s = .next (modSeq s0 d (fun q => armMark q m (a.toNat % 32)))) ∧
  (∀ dt (d : Fin 8) s s0, advance s dt = s0 → AtPart dt d s { pclass := 8, parg := pfield 89 2 } →
    exec (.seqctlHalt dt d) s =
      .next (modDk s0 d (fun k => { k with thr := { k.thr with active := false }, seq := { k.seq with halting := true } }))) ∧
  (∀ dt (d : Fin 8) a s s0, advance s dt = s0 → AtPart dt d s { pclass := 9 } →
    exec (.portTbset dt d a) s = .next (modThr s0 d (fun t => { t with tbc := (now s0 + a.toNat) % 2 ^ 64 }))) ∧
  (∀ dt (d : Fin 8) (p r : Fin 16) whdr (k16 : BitVec 16) (pmask : BitVec 48) s s0 k x, advance s dt = s0 → getDk s d = k →
    AtPart dt d s { pclass := 10, parg := pfield 87 p + pfield 83 r + pfield 82 (if whdr = true then 1 else 0), k16 := k16.toNat, pmask := pmask.toNat } →
    (k.thr.reg p).toNat < patternSize k.act k.width →
    x = mnum s0.vat (sheetAddr k.act k.width (k.thr.reg p).toNat ((k.thr.reg r).toNat % 32)) (k.width / 8) →
    exec (.portShwr dt d p r whdr k16 pmask) s =
      .next (writeSheet s0 d k.act (k.thr.reg p).toNat ((k.thr.reg r).toNat % 32)
        (shwrWord k x ((k.thr.reg r).toNat / 256 % 16) pmask.toNat (if whdr = true then some (k16.toNat % 256) else none)))) ∧
  (∀ dt (d : Fin 8) (a : BitVec 28) s s0, advance s dt = s0 → AtPart dt d s { pclass := 15, parg := a.toNat } →
    exec (.portStew dt d a) s = .next { s0 with md := { s0.md with mailbox := s0.md.mailbox ++ [(a.toNat, (getDk s d).thr.mdr.toNat)] } })

/-- The DPS and LEARN commands, the control period and the DPS events have their effect. DPS fields, MATRIX, FFTABLE and LEARN
parameters edit the tenant's furnish; SHOW, READ and LEARN READ reply; TARGET and FFOFS act at once on a live deckle; LEARN LOAD
and CLEAR write the learning memory; a control period of a regulating channel computes its demand and its observer state;
overvoltage and overheat open the force switch; the clamp limit event is sent once; the range dwell ends. (Rests on
15_dut_power, 05_deckles_and_furnishes, 22_command_index.) -/
def Obligations.DpsCommandsComplete : Prop :=
  (∀ h n f g s s0 d r t, begun h s = s0 → foldFields dpsField 3 id f = .ok g → f.isEmpty = false → ownUnit s0 h .dps n = .ok d →
    edit s0 d none (putDps n g) = .ok (r, t) →
    Replies (.dpsFields h n f) (tenantForm "DPS") h s r [] ([w "OK", w "DPS", dTok d, dpsAtoms n] ++ t)) ∧
  (∀ h n m v x s s0 d r t, begun h s = s0 → ["A", "B", "C", "L", "K", "N"].contains m = true → v.mapM (readEntry 5) = .ok x → v ≠ [] → v.length ≤ 36 →
    ownUnit s0 h .dps n = .ok d → edit s0 d none (putDps n (putMatrix m x)) = .ok (r, t) →
    Replies (.dpsMatrix h n m v) (tenantForm "DPS") h s r [] ([w "OK", w "DPS", dTok d, dpsAtoms n, w "MATRIX", w m] ++ t)) ∧
  (∀ h n i b p s s0 d r t, begunBlk h b s = s0 → BlkIs h b s p → readUnit 2 .dps n = .ok () → i < 4096 → p.length % 4 = 0 → i + p.length / 4 ≤ 4096 →
    ownUnit s0 h .dps n = .ok d → edit s0 d none (putDps n (fun c => { c with fft := mput c.fft (4 * i) (toBytes p) })) = .ok (r, t) →
    RepliesBlk (.dpsFftable h n i b) (tenantForm "DPS") h b s r [] ([w "OK", w "DPS", dTok d, dpsAtoms n, w "FFTABLE"] ++ t)) ∧
  (∀ h n s s0 d, begun h s = s0 → ownUnit s0 h .dps n = .ok d →
    Replies (.dpsShow h n) (readForm "DPS") h s s0 (dpsText n (tget (getDk s0 d).inForce.dps n {})) [w "OK", w "DPS", w "SHOW", dTok d, dpsAtoms n]) ∧
  (∀ h n v q s s0 d, begun h s = s0 → myDk s0 h = d → readUnit 2 .dps n = .ok () → readRange 3 .V 0 7 v = .ok q → holds (getDk s0 d) .dps [n] = .ok () →
    (getDk s0 d).st.live = true → q ≤ (getDps s0 n).cfg.vmax - 1 / 10 →
    Replies (.dpsTarget h n v) (tenantForm "DPS") h s (targetNow s0 n q (nextPeriod s0)).1 []
      [w "OK", w "DPS", dTok d, dpsAtoms n, kv "TARGET" [voltEcho v], kt "ARRIVE" (targetNow s0 n q (nextPeriod s0)).2.1,
       kt "SETTLED" (targetNow s0 n q (nextPeriod s0)).2.2]) ∧
  (∀ h n v q s s0 d, begun h s = s0 → myDk s0 h = d → readUnit 2 .dps n = .ok () → readNat 3 0 4095 v = .ok q → holds (getDk s0 d) .dps [n] = .ok () →
    (getDk s0 d).st.live = true →
    Replies (.dpsFfofs h n v) (tenantForm "DPS") h s (modDps s0 n (fun x => { x with ffCmd := some q, ffNext := none })) []
      [w "OK", w "DPS", dTok d, dpsAtoms n, kn "FFOFS" q]) ∧
  (∀ h n s s0 d x, begun h s = s0 → ownUnit s0 h .dps n = .ok d → getDps s0 n = x → x.clamp = .none → x.learning = false → x.fb = false → x.cfg.remote = true →
    Replies (.dpsRead h n) (readForm "DPS") h s s0 []
      [w "OK", w "DPS", dTok d, dpsAtoms n, kv "V" [f32Fix x.vs 1 4],
       kv "I" [sig6 (roundRat (f32Rat x.io / (x.cfg.range / 10000)) * (x.cfg.range / 10000) * 1000), .s "mA"],
       kv "SLOPE" [.fx (slopeOf x).1 1], kw "STATE" (slopeOf x).2, kv "RANGE" (rangeAtoms x.cfg.range), kw "CLAMP" "NONE", kw "LEARN" "OFF",
       kw "SENSE" "REMOTE", kt "TB" x.tb]) ∧
  (∀ h n f g s s0 d r t, begun h s = s0 → (∀ x ∈ f, x.key = "GAIN" ∨ x.key = "QA" ∨ x.key = "QF") → foldFields dpsField 3 id f = .ok g → f.isEmpty = false →
    ownUnit s0 h .dps n = .ok d → edit s0 d none (putDps n g) = .ok (r, t) →
    Replies (.learnParams h n f) (tenantForm "LEARN") h s r [] ([w "OK", w "LEARN", dTok d, dpsAtoms n] ++ t)) ∧
  (∀ h n s s0 d, begun h s = s0 → ownUnit s0 h .dps n = .ok d →
    Replies (.learnRead h n) (readForm "LEARN") h s s0 (blkLines (memBytes s0.cep (learnBase n) 16384)) [w "OK", w "LEARN", w "READ", dTok d, dpsAtoms n]) ∧
  (∀ h n b p s s0 d, begunBlk h b s = s0 → BlkIs h b s p → readUnit 2 .dps n = .ok () → p.length = 16384 → ownUnit s0 h .dps n = .ok d →
    learnState (getDk s0 d) = .ok () →
    RepliesBlk (.learnLoad h n b) (tenantForm "LEARN") h b s { s0 with cep := mput s0.cep (learnBase n) (toBytes p) } []
      [w "OK", w "LEARN", dTok d, dpsAtoms n, w "LOAD"]) ∧
  (∀ h n s s0 d, begun h s = s0 → ownUnit s0 h .dps n = .ok d → learnState (getDk s0 d) = .ok () →
    Replies (.learnClear h n) (tenantForm "LEARN") h s { s0 with cep := mzero s0.cep (learnBase n) 16384 } []
      [w "OK", w "LEARN", dTok d, dpsAtoms n, w "CLEAR"]) ∧
  (∀ dt n m s s0 s1 d t x c vs io u0 u xn, advance s dt = s0 → (getDps s0 (n : Fin 4)).on = true → s0.rf.run = true → now s0 / 1250 * 1250 = t →
    (t = 0 ∨ (getDps s0 n).tb ≠ t) → holder s0 .dps n = some d → cmdFfofs s0 d n = s1 →
    (getDk s1 d).st ≠ .running → periodStart t (getDps s1 n) = x → x.cfg = c → x.fb = false → x.dwell = none → f32In m.vs = vs → f32In m.io = io →
    clampOf c io = .none → c.remote = false →
    f32Add (f32Add (f32Minus (rowDot c.matK 0 c.nx x.xh)) (f32Mul (ent c.matN 0) (f32Of x.r))) 0 = u0 → limitU c u0 = u →
    (List.range c.nx).map (fun i => f32Add (f32Add (rowDot c.matA i c.nx x.xh) (f32Mul (ent c.matB i) u))
      (f32Dot [(ent c.matL (2 * i), f32Sub vs (rowDot c.matC 0 c.nx x.xh)), (ent c.matL (2 * i + 1), f32Sub io (rowDot c.matC 1 c.nx x.xh))])) = xn →
    allFinite (u :: xn) = true →
    ∃ z, exec (.controlPeriod dt n m) s =
      .next (setDps s1 n { x with vs := vs, io := io, u := u, xh := xn, slope := f32Sub (rowDot c.matC 0 c.nx xn) (rowDot c.matC 0 c.nx x.xh), tb := t, clamp := .none, frozen := z, learning := false, div := 0 })) ∧
  (∀ dt n s s0 d, advance s dt = s0 → (getDps s0 (n : Fin 4)).on = true → holder s0 .dps n = some d →
    exec (.fDpsOv dt n) s =
      .next (keep (detect (modDps s0 n (fun x => { dpsRest s0 x with hot := x.hot || false })) d .dps [kw "CAUSE" "OV", kv "DPS" (unitName .dps n)]))) ∧
  (∀ dt n s s0 d, advance s dt = s0 → (getDps s0 (n : Fin 4)).on = true → holder s0 .dps n = some d →
    exec (.fDpsHot dt n) s =
      .next (keep (detect (modDps s0 n (fun x => { dpsRest s0 x with hot := x.hot || true })) d .dps [kw "CAUSE" "HOT", kv "DPS" (unitName .dps n)]))) ∧
  (∀ dt n s s0 d, advance s dt = s0 → (getDps s0 (n : Fin 4)).lim = false → (getDps s0 n).on = true → (getDps s0 n).clamp = .isrc → holder s0 .dps n = some d →
    exec (.dpsClampLimit dt n false) s =
      .next (event (modDps s0 n (fun x => { x with lim := true })) d .limit [dpsAtoms n, kw "CLAMP" "ISRC"])) ∧
  (∀ dt n s s0 t c, advance s dt = s0 → (getDps s0 (n : Fin 4)).dwell = some (t, c) → t ≤ now s0 →
    exec (.dpsRangeDwellEnd dt n) s =
      .next (setDps s0 n { getDps s0 n with dwell := none, cfg := { (getDps s0 n).cfg with range := c.range, isrc := some c.src, isnk := some c.snk } }))

/-- The AUX commands and the generators' own events have their effect. AUX fields, ENTRY and LIST writing edit the tenant's
furnish; SHOW, LIST READ and READ reply; PLAY and HALT act at a sample tick; a due start begins the list, a due boundary begins
the next entry, the end of the list ends play or repeats it, MK falls and the span dwell ends. (Rests on 16_aux_stimulus,
05_deckles_and_furnishes, 22_command_index.) -/
def Obligations.AuxCommandsComplete : Prop :=
  (∀ h n f g s s0 d r t, begun h s = s0 → foldFields auxField 3 id f = .ok g → f.isEmpty = false → ownUnit s0 h .aux n = .ok d →
    (if f.any (fun x => x.key = "COUNT") then editList s0 d (putAux n g) else edit s0 d none (putAux n g)) = .ok (r, t) →
    Replies (.auxFields h n f) (tenantForm "AUX") h s r [] ([w "OK", w "AUX", dTok d, uTok .aux n] ++ t)) ∧
  (∀ h n i f s s0 d c x r t, begun h s = s0 → i < 8192 → readUnit 2 .aux n = .ok () → tget (getDk s0 (myDk s0 h)).editing.aux n {} = c →
    foldFields (auxEntryField c.span) 5 (auxEntry c.list i) f = .ok x → ownUnit s0 h .aux n = .ok d →
    editList s0 d (putAux n (fun c => { c with list := mput c.list (16 * i) (auxBytes x) })) = .ok (r, t) →
    Replies (.auxEntry h n i f) (tenantForm "AUX") h s r []
      ([w "OK", w "AUX", dTok d, uTok .aux n, w "ENTRY", { val := [.d i] }, kv "FTW" [.hx x.ftw 12], kv "PHASE" [.hx x.phase 4],
        kv "AMP" [.hx (unsigned 16 x.amp) 4], kv "OFS" [.hx (unsigned 16 x.ofs) 4]] ++ t)) ∧
  (∀ h n i b p s s0 d r t, begunBlk h b s = s0 → BlkIs h b s p → readUnit 2 .aux n = .ok () → i < 8192 → p.length % 16 = 0 → i + p.length / 16 ≤ 8192 →
    ownUnit s0 h .aux n = .ok d → editList s0 d (putAux n (fun c => { c with list := mput c.list (16 * i) (toBytes p) })) = .ok (r, t) →
    RepliesBlk (.auxListWrite h n i b) (tenantForm "AUX") h b s r [] ([w "OK", w "AUX", dTok d, uTok .aux n, w "LIST", kn "N" (p.length / 16)] ++ t)) ∧
  (∀ h n a m s s0 d c, begun h s = s0 → readUnit 2 .aux n = .ok () → tget (getDk s0 (myDk s0 h)).inForce.aux n {} = c → a < 8192 → 1 ≤ m → a + m ≤ 8192 →
    ownUnit s0 h .aux n = .ok d →
    Replies (.auxListRead h n (some a) (some m)) (readForm "AUX") h s s0 (blkLines (memBytes c.list (16 * a) (16 * m)))
      [w "OK", w "AUX", w "LIST", w "READ", dTok d, uTok .aux n, kn "N" m]) ∧
  (∀ h n s s0 d, begun h s = s0 → ownUnit s0 h .aux n = .ok d →
    Replies (.auxShow h n) (readForm "AUX") h s s0 (auxText n (tget (getDk s0 d).inForce.aux n {})) [w "OK", w "AUX", w "SHOW", dTok d, uTok .aux n]) ∧
  (∀ h n s s0 d k, begun h s = s0 → myDk s0 h = d → getDk s0 d = k → readUnit 2 .aux n = .ok () → holds k .aux [n] = .ok () →
    inSt k [.armed, .running, .stopped] = .ok () → (getAux s0 n).st ≠ .off → (tget k.act.aux n {}).start = .cmd → pressList s0 d n = false →
    Replies (.auxPlay h n) (tenantForm "AUX") h s (auxStartAt s0 n (ceilTo (now s0 + 2500) 4)) [] [w "OK", w "AUX", dTok d, uTok .aux n]) ∧
  (∀ h n s s0 d k, begun h s = s0 → myDk s0 h = d → getDk s0 d = k → readUnit 2 .aux n = .ok () → holds k .aux [n] = .ok () →
    inSt k [.armed, .running, .stopped] = .ok () → (getAux s0 n).st ≠ .off →
    Replies (.auxHalt h n) (tenantForm "AUX") h s (auxHaltAt s0 n (ceilTo (now s0 + 2500) 4)) [] [w "OK", w "AUX", dTok d, uTok .aux n]) ∧
  (∀ h n s s0 r d a, begun h s = s0 → modAux s0 n (auxSync (now s0)) = r → ownUnit s0 h .aux n = .ok d → getAux r n = a →
    Replies (.auxRead h n) (readForm "AUX") h s r []
      [w "OK", w "AUX", dTok d, uTok .aux n, kw "STATE" a.st.name, kn "ENTRY" a.ent, kv "SPAN" (spanAtoms a.cfg.span),
       kw "RELAY" (if a.relay then "CLOSED" else "OPEN"), kn "MISSED" a.missed, kt "TB" (now s0)]) ∧
  (∀ dt n s s0 t a, advance s dt = s0 → getAux s0 (n : Fin 2) = a → a.st = .idle → a.halt = none → a.starts = [t] → t ≤ now s0 →
    exec (.auxStartTick dt n) s =
      .next (modAux (auxMark (setAux s0 n (auxBegin { a with starts := [] } t)) n) n (auxSync (now s0)))) ∧
  (∀ dt n s s0 a, modAux (advance s dt) (n : Fin 2) (auxSync (now (advance s dt))) = s0 → getAux s0 n = a → a.st = .playing → s0.rf.run = true →
    auxEndTick a ≤ now s0 → a.ent + 1 < a.cfg.count →
    exec (.auxEntryBoundary dt n) s = .next (auxMark (setAux s0 n (auxNext a (a.ent + 1))) n)) ∧
  (∀ dt n s s0 a, modAux (advance s dt) (n : Fin 2) (auxSync (now (advance s dt))) = s0 → getAux s0 n = a → a.st = .playing → s0.rf.run = true →
    auxEndTick a ≤ now s0 → a.cfg.count ≤ a.ent + 1 → a.cfg.fin = .rpt →
    exec (.auxListEnd dt n) s = .next (auxMark (setAux s0 n (auxNext a 0)) n)) ∧
  (∀ dt n s s0 a d, modAux (advance s dt) (n : Fin 2) (auxSync (now (advance s dt))) = s0 → getAux s0 n = a → a.st = .playing → s0.rf.run = true →
    auxEndTick a ≤ now s0 → a.cfg.count ≤ a.ent + 1 → a.cfg.fin ≠ .rpt → holder s0 .aux n = some d →
    exec (.auxListEnd dt n) s =
      .next (event (setAux s0 n (auxStop a (a.cfg.fin = .zero) (auxEndTick a))) d .done [uTok .aux n, w "END", kt "TB" (auxEndTick a)])) ∧
  (∀ dt n s s0 l, advance s dt = s0 → tget? s0.ph.mkUp (n : Fin 2) = some l →
    exec (.mkFall dt n) s = .next { s0 with ph := { s0.ph with mkUp := tset s0.ph.mkUp n (l.filter (fun r => now s0 < r + 16)) } }) ∧
  (∀ dt n s s0 t c a, advance s dt = s0 → getAux s0 (n : Fin 2) = a → a.dwell = some (t, c) → t ≤ now s0 →
    exec (.auxSpanDwellEnd dt n) s =
      .next (keep (setAux s0 n { a with dwell := none, prev := 0, prevT := t, cfg := { a.cfg with span := c.span, relay := c.relay }, relay := c.relay && a.st != .off })))

/-- The ADC commands, timer starts, scan starts and conversions have their effect. ADC fields and ENTRY edit the tenant's
furnish; SOURCES, SHOW and STATUS reply; START adds a start tick; RESULTS and READ take records out of the store; a TIMER start
adds its tick and the next; a due start begins a scan; the end of a conversion stores its record with its code and flags and
goes on to the next entry. (Rests on 17_conversion, 05_deckles_and_furnishes, 22_command_index.) -/
def Obligations.AdcCommandsComplete : Prop :=
  (∀ h n f g s s0 d r t, begun h s = s0 → foldFields adcField 3 id f = .ok g → f.isEmpty = false → ownUnit s0 h .adc n = .ok d →
    edit s0 d none (putAdc n g) = .ok (r, t) →
    Replies (.adcFields h n f) (tenantForm "ADC") h s r [] ([w "OK", w "ADC", dTok d, uTok .adc n] ++ t)) ∧
  (∀ h n i f s s0 d x r t, begun h s = s0 → i < 16 → readUnit 2 .adc n = .ok () → f.any (fun x => x.key == "SRC") = true →
    foldFields adcEntryField 5 ((tget (getDk s0 (myDk s0 h)).editing.adc n {}).entry i) f = .ok x → ownUnit s0 h .adc n = .ok d →
    edit s0 d none (putAdc n (fun c => { c with ent := tset c.ent i x })) = .ok (r, t) →
    Replies (.adcEntry h n i f) (tenantForm "ADC") h s r [] ([w "OK", w "ADC", dTok d, uTok .adc n, w "ENTRY", { val := [.d i] }] ++ t)) ∧
  (∀ h s s0 d l, begun h s = s0 → myDk s0 h = d → (List.range 256).filter (adcSelectable (getDk s0 d).grant) = l →
    Replies (.adcSources h) (readForm "ADC") h s s0
      (l.map (fun c => [w "AS", w ((srcName c).getD ""), kv "CODE" [.hx c 2],
        kv "FS" [sig6 (srcScale (fun c => (tget (getDk s0 d).inForce.lev c {}).irange) (fun n => (tget (getDk s0 d).inForce.dps n {}).range) c), srcUnit c]]))
      [w "OK", w "ADC", w "SOURCES", dTok d, kn "N" l.length]) ∧
  (∀ h n s s0 d, begun h s = s0 → ownUnit s0 h .adc n = .ok d →
    Replies (.adcShow h n) (readForm "ADC") h s s0 (adcText n (tget (getDk s0 d).inForce.adc n {})) [w "OK", w "ADC", w "SHOW", dTok d, uTok .adc n]) ∧
  (∀ h n s s0 d k, begun h s = s0 → myDk s0 h = d → getDk s0 d = k → readUnit 2 .adc n = .ok () → holds k .adc [n] = .ok () →
    inSt k [.armed, .running, .stopped] = .ok () → (tget k.act.adc n {}).trig = .cmd →
    Replies (.adcStart h n) (tenantForm "ADC") h s (adcStartAt s0 n (now s0 + 2500)) [] [w "OK", w "ADC", dTok d, uTok .adc n]) ∧
  (∀ h n k m s s0 d l, begun h s = s0 → readUnit 2 .adc n = .ok () → (getAdc s0 n).store = l → takeCount 4 256 k l.length = .ok m → ownUnit s0 h .adc n = .ok d →
    inSt (getDk s0 d) anySt = .ok () →
    Replies (.adcResults h n k) (tenantForm "ADC") h s (modAdc s0 n (fun a => { a with store := a.store.drop m })) ((l.take m).map (adcLine n))
      [w "OK", w "ADC", w "RESULTS", dTok d, uTok .adc n, kn "N" m]) ∧
  (∀ h n k m s s0 d l, begun h s = s0 → readUnit 2 .adc n = .ok () → (getAdc s0 n).store = l → takeCount 4 8192 k l.length = .ok m → ownUnit s0 h .adc n = .ok d →
    inSt (getDk s0 d) anySt = .ok () →
    Replies (.adcRead h n k) (tenantForm "ADC") h s (modAdc s0 n (fun a => { a with store := a.store.drop m }))
      (blkOrNone ((l.take m).flatMap (fun r => r.bytes.map (fun b => b.toNat)))) [w "OK", w "ADC", w "READ", dTok d, uTok .adc n, kn "N" m]) ∧
  (∀ h n s s0 d a, begun h s = s0 → ownUnit s0 h .adc n = .ok d → getAdc s0 n = a →
    Replies (.adcStatus h n) (readForm "ADC") h s s0 []
      [w "OK", w "ADC", dTok d, uTok .adc n, kw "STATE" (if a.busy then "BUSY" else "IDLE"), kn "STORED" a.store.length, kn "LOST" a.lost,
       kn "MISSED" a.missed]) ∧
  (∀ dt n s s0 t d k c, advance s dt = s0 → (getAdc s0 (n : Fin 8)).timer = some t → holder s0 .adc n = some d → getDk s0 d = k → tget k.act.adc n {} = c →
    k.st = .running → c.trig = .timer → t ≤ now s0 →
    exec (.adcTimerTick dt n) s = .next (modAdc (adcStartAt s0 n t) n (fun a => { a with timer := some (t + c.period) }))) ∧
  (∀ dt n s s0 t d a, advance s dt = s0 → getAdc s0 (n : Fin 8) = a → a.starts = [t] → t ≤ now s0 → a.busy = false → holder s0 .adc n = some d →
    exec (.adcScanStart dt n) s =
      .next (setAdc (modAdc s0 n (fun a => { a with starts := [] })) n (adcBegin (tget (getDk s0 d).act.adc n {}) t { a with starts := [] }))) ∧
  (∀ dt n m s s0 d a e fs c, advance s dt = s0 → getAdc s0 (n : Fin 8) = a → holder s0 .adc n = some d → a.busy = true → s0.rf.run = true →
    a.fin ≤ now s0 * 1024 → a.cfg.entry a.ent = e → entryScale s0 e = fs → adcCode fs (adcInput s0 e.src m.v) = c → e.bo = false →
    adcSharers s0 (getDk s0 d).grant n e.src a.fin = [] → a.store.length < 8192 → a.lostF = false →
    exec (.adcConversionDone dt n m) s =
      .next (incr (setAdc s0 n (adcAdvance { a with
        store := a.store ++ [{ tb := a.hold / 1024, fine := a.hold % 1024, ent := a.ent, code := c.1, fs := fs,
                               flags := (if c.2 then 2 else 0) + (if a.box then 16 else 0) }],
        last := c.1, lastT := a.hold })) d (40 + n)))

/-- The TMU commands and the measuring events have their effect. TMU fields edit the tenant's furnish; SHOW, STAT and STATUS
reply; START and HALT act; CLEAR empties statistics and records; RESULTS and READ take records; a start edge is stamped, a stop
edge completes a measurement, a timeout records one that did not complete, frequency stamps and gate closes build a gate's
record, and the interpolators lose and regain lock. (Rests on 18_time_measurement, 05_deckles_and_furnishes, 22_command_index.)
-/
def Obligations.TmuCommandsComplete : Prop :=
  (∀ h n f g s s0 d r t, begun h s = s0 → foldFields tmuField 3 id f = .ok g → f.isEmpty = false → ownUnit s0 h .tmu n = .ok d →
    edit s0 d none (putTmu n g) = .ok (r, t) →
    Replies (.tmuFields h n f) (tenantForm "TMU") h s r [] ([w "OK", w "TMU", dTok d, uTok .tmu n] ++ t)) ∧
  (∀ h n s s0 d, begun h s = s0 → ownUnit s0 h .tmu n = .ok d →
    Replies (.tmuShow h n) (readForm "TMU") h s s0 (tmuText n (tget (getDk s0 d).inForce.tmu n {})) [w "OK", w "TMU", w "SHOW", dTok d, uTok .tmu n]) ∧
  (∀ h n s s0 d k, begun h s = s0 → myDk s0 h = d → getDk s0 d = k → readUnit 2 .tmu n = .ok () → holds k .tmu [n] = .ok () →
    inSt k [.armed, .running, .stopped] = .ok () → (tget k.act.tmu n {}).trig = .cmd →
    Replies (.tmuStart h n) (tenantForm "TMU") h s (tmuStartAt s0 d n (now s0 + 2500)) [] [w "OK", w "TMU", dTok d, uTok .tmu n]) ∧
  (∀ h n s s0 d k, begun h s = s0 → myDk s0 h = d → getDk s0 d = k → readUnit 2 .tmu n = .ok () → holds k .tmu [n] = .ok () →
    inSt k [.armed, .running, .stopped] = .ok () →
    Replies (.tmuHalt h n) (tenantForm "TMU") h s (tmuHaltNow s0 n) [] [w "OK", w "TMU", dTok d, uTok .tmu n]) ∧
  (∀ h n s s0 d, begun h s = s0 → ownUnit s0 h .tmu n = .ok d → inSt (getDk s0 d) anySt = .ok () → (getTmu s0 n).busy = false →
    Replies (.tmuClear h n) (tenantForm "TMU") h s (tmuWindow (modTmu (clearTmuPad s0 n) n tmuEmpty) n) [] [w "OK", w "TMU", dTok d, uTok .tmu n, w "CLEAR"]) ∧
  (∀ h n s s0 d x, begun h s = s0 → ownUnit s0 h .tmu n = .ok d → getTmu s0 n = x →
    Replies (.tmuStat h n) (readForm "TMU") h s s0 []
      [w "OK", w "TMU", dTok d, uTok .tmu n, kn "DONE" x.done, kn "TIMEOUTS" x.tos, kv "MEAN" (psAtoms (tmuMean x)), kv "SD" (psAtoms (tmuSd x)),
       kv "MIN" (psAtoms x.mn), kv "MAX" (psAtoms x.mx)]) ∧
  (∀ h n k m s s0 d l, begun h s = s0 → readUnit 2 .tmu n = .ok () → (getTmu s0 n).recs = l → takeCount 4 256 k l.length = .ok m → ownUnit s0 h .tmu n = .ok d →
    inSt (getDk s0 d) anySt = .ok () →
    Replies (.tmuResults h n k) (tenantForm "TMU") h s (tmuTake s0 n m) ((l.take m).map (tmuLine n))
      [w "OK", w "TMU", w "RESULTS", dTok d, uTok .tmu n, kn "N" m]) ∧
  (∀ h n k m s s0 d l, begun h s = s0 → readUnit 2 .tmu n = .ok () → (getTmu s0 n).recs = l → takeCount 4 504 k l.length = .ok m → ownUnit s0 h .tmu n = .ok d →
    inSt (getDk s0 d) anySt = .ok () →
    Replies (.tmuRead h n k) (tenantForm "TMU") h s (tmuTake s0 n m)
      (blkOrNone ((l.take m).flatMap (fun r => r.bytes.map (fun b => b.toNat)))) [w "OK", w "TMU", w "READ", dTok d, uTok .tmu n, kn "N" m]) ∧
  (∀ h n s s0 d x, begun h s = s0 → ownUnit s0 h .tmu n = .ok d → getTmu s0 n = x →
    Replies (.tmuStatus h n) (readForm "TMU") h s s0 []
      [w "OK", w "TMU", dTok d, uTok .tmu n, kw "STATE" (if x.busy then "BUSY" else "IDLE"), kn "STORED" x.recs.length, kn "LOST" x.lost,
       kn "MISSED" x.missed]) ∧
  (∀ dt n t di s s0 d x, advance s dt = s0 → measuring s0 (n : Fin 4) false = some d → getTmu s0 n = x → x.startS = none → x.ready ≤ t →
    t ≤ x.ready + x.cfg.timeout →
    exec (.tmuStartEdge dt n t di) s = .next (checkEdge (setTmu s0 n { firstStamp s0 x with startS := some t }) n false di)) ∧
  (∀ dt n t di s s0 d x a, advance s dt = s0 → measuring s0 (n : Fin 4) false = some d → getTmu s0 n = x → x.startS = some a → a + x.cfg.holdoff < t →
    t ≤ a + x.cfg.timeout →
    exec (.tmuStopEdge dt n t di) s =
      .next (checkEdge (tmuEnded (incr (tmuKeep (setTmu s0 n (tmuAdd x (t - a))) d n
        { val := ((t - a : Nat) : Int), key := a / 800000 % 2 ^ 48, flags := stampFlags x, kind := 1 }) d (36 + n)) d n (t + deadTime x.cfg) (t / 800000)) n true di)) ∧
  (∀ dt n s s0 d x l, advance s dt = s0 → measuring s0 (n : Fin 4) false = some d → getTmu s0 n = x → x.startS = none → l = x.ready + x.cfg.timeout →
    l ≤ now s0 * 800000 → x.toSent = true →
    exec (.tmuTimeout dt n) s =
      .next (tmuEnded (tmuKeep (setTmu (draw s0).2 n { x with tos := x.tos + 1, toSent := true }) d n
        { val := (Config.value (draw s0).1).toNat, key := x.ready / 800000 % 2 ^ 48, flags := 1, kind := 1 }) d n l (l / 800000))) ∧
  (∀ dt n k t di s s0 d x, advance s dt = s0 → measuring s0 (n : Fin 4) true = some d → getTmu s0 n = x → (gateSpan x).1 ≤ t → t < (gateSpan x).2 →
    k % x.cfg.prescale = 0 → x.stamps = [] → x.stampT = none →
    exec (.tmuFreqStamp dt n k t di) s = .next (checkEdge (setTmu s0 n { firstStamp s0 x with stamps := [(k, t)], stampT := some t }) n false di)) ∧
  (∀ dt n s s0 d x p, advance s dt = s0 → measuring s0 (n : Fin 4) true = some d → getTmu s0 n = x → (gateSpan x).2 ≤ now s0 * 800000 → 3 ≤ x.stamps.length →
    x.halting = false → x.cfg.gates = 0 → p = gatePartial x ((x.stamps.map (fun p => p.2)).headD 0) ((x.stamps.map (fun p => p.2)).getLastD 0) x.stamps.length →
    exec (.tmuGateClose dt n) s =
      .next (tmuWindow (modTmu (incr (tmuKeep s0 d n { val := (gateResult x.stamps).1, key := x.gate % 65536, m := x.stamps.length, rms := (gateResult x.stamps).2, flags := (if p then 16 else 0) + stampFlags x, kind := 2 }) d (36 + n)) n
        (fun y => { y with stamps := [], prevNone := false, gate := x.gate + 1, busy := true, halting := false })) n)) ∧
  (∀ dt n s s0, advance s dt = s0 → (getTmu s (n : Fin 4)).lock = true →
    exec (.fTmuLock dt n) s = .next (tmuFault (modTmu s0 (n : Fin 4) (fun x => { x with lock := false })) n "LOCK")) ∧
  (∀ dt n s s0 r d, modTmu (advance s dt) (n : Fin 4) (fun x => { x with lock := true }) = s0 → (getTmu s n).lock = false → linesOpen s0 = true →
    ownerEvent s0 .note [w "DLL-LOCKED", kv "TMU" (unitName .tmu n)] = r → holder r .tmu n = some d →
    exec (.tmuRelock dt n) s = .next (queueEv r d false .note [w "!NOTE", w "DLL-LOCKED", kv "TMU" (unitName .tmu n)]))

/-- The EVENT commands, the end of EVT pulses and the sending of queued events have their effect. EVENT MAP maps an EVT line,
TRIG-OUT, FAIL-OUT or MK to a deckle whose tenant has consented, or an EVT line to the module; UNMAP ends a mapping; CLEAR
releases a held line; SHOW shows; GRANT PORT and REVOKE PORT give and withdraw consent; a pulse ends. (Rests on
19_faults_and_events, 16_aux_stimulus, 13_fail_capture, 22_command_index.) -/
def Obligations.EventCommandsComplete : Prop :=
  (∀ h n d cls hold s s0, begun h s = s0 → cls ≠ [] → mapArgs s0 (.evt n) d = .ok () →
    Replies (.eventMapEvt h n d cls hold) (ownerForm "EVENT") h s (putEvt s0 n (some (.deckle d)) cls hold) [] (mapReply (.evt n) (.deckle d))) ∧
  (∀ h n cls hold s s0, begun h s = s0 → cls ≠ [] → n < 4 → cls.contains .done = false → cls.contains .limit = false →
    Replies (.eventMapModule h n cls hold) (ownerForm "EVENT") h s (putEvt s0 n (some .modl) cls hold) [] (mapReply (.evt n) .modl)) ∧
  (∀ h n d m s s0, begun h s = s0 → m < 8 → mapArgs s0 (.trigOut n) d = .ok () →
    Replies (.eventMapTrigOut h n d m) (ownerForm "EVENT") h s { s0 with ph := { s0.ph with tout := tset s0.ph.tout n (d, m) } } []
      (mapReply (.trigOut n) (.deckle d))) ∧
  (∀ h d s s0, begun h s = s0 → mapArgs s0 .failOut d = .ok () →
    Replies (.eventMapFailOut h d) (ownerForm "EVENT") h s (putFailOut s0 (some d)) [] (mapReply .failOut (.deckle d))) ∧
  (∀ h n d s s0, begun h s = s0 → n < 2 → d < 8 → (getDk s0 d).grant.aux.contains n = true → mapArgs s0 (.mk n) d = .ok () →
    Replies (.eventMapMk h n d) (ownerForm "EVENT") h s { s0 with ph := { s0.ph with mkm := tset s0.ph.mkm n d } } [] (mapReply (.mk n) (.deckle d))) ∧
  (∀ h l s s0, begun h s = s0 → l.known = true →
    Replies (.eventUnmap h l) (ownerForm "EVENT") h s (unmapLine s0 l) [] [w "OK", w "EVENT", w "UNMAP", { val := physName l }]) ∧
  (∀ h n s s0 e, begun h s = s0 → n < 4 → getEvt s0 n = e → (getLn s0 h.line).role = .owner ∨ (∃ d, (getLn s0 h.line).role = .tenant d ∧ e.src = some (.deckle d)) →
    Replies (.eventClear h n) { word := "EVENT", roles := [.o, .t] } h s (if e.hold then modEvt s0 n EvtSt.letGo else s0) []
      [w "OK", w "EVENT", w "CLEAR", { val := physName (.evt n) }]) ∧
  (∀ h s s0, begun h s = s0 → (getLn s0 h.line).role = .owner →
    Replies (.eventShow h) { word := "EVENT", roles := [.o, .t], ro := true } h s s0 (mapLines s0 (fun _ => true))
      [w "OK", w "EVENT", w "SHOW", kn "N" (mapLines s0 (fun _ => true)).length]) ∧
  (∀ h s s0 d, begun h s = s0 → myDk s0 h = d →
    Replies (.eventGrantPort h) (tenantForm "EVENT") h s (modDk s0 d (fun k => { k with evGrant := true })) []
      [w "OK", w "EVENT", w "GRANT", dTok d, w "PORT"]) ∧
  (∀ h s s0 d, begun h s = s0 → myDk s0 h = d →
    Replies (.eventRevokePort h) (tenantForm "EVENT") h s (unmapDeckle (modDk s0 d (fun k => { k with evGrant := false })) d) []
      [w "OK", w "EVENT", w "REVOKE", dTok d, w "PORT"]) ∧
  (∀ dt n s s0 e t, advance s dt = s0 → getEvt s0 (n : Fin 4) = e → e.relT = some t → e.low = true → e.pulse = true → t ≤ s0.wall + 125 →
    exec (.evtPulseEnd dt n) s = .next (modEvt s0 n (fun e => { e with low := false, pulse := false, relT := some s0.wall })))

/-- TRACE and COUNT commands, the trace slots, the counter update and the sending of event lines have their effect. TRACE, SHOW
and READ give a viewer what it may see; SELECT, GRANT, REVOKE, ENABLE, DISABLE and PORT change selection and grants; a slot
drains one packet of its deckle; COUNT and COUNT MODULE reply and COUNT CLEAR zeroes the counters it may; the counter update
takes counters and metering; an event line is sent from its queue. (Rests on 20_observation, 19_faults_and_events,
01_secrecy_and_roles, 22_command_index.) -/
def Obligations.TraceAndCountCommandsComplete : Prop :=
  (∀ h d s s0 e k, begun h s = s0 → viewed s0 h 2 d = .ok e → getDk s0 e = k → k.trace.ring = [] →
    Replies (.trace h d) viewForm h s s0 []
      [w "OK", w "TRACE", dTok e, kv "SELECT" (selKinds k.trace), kn "FIRST" k.trace.nextSeq, kn "NEXT" k.trace.nextSeq, kn "LOST" (tget k.cnt 35 0),
       kw "PORT" (onOff k.trPort)]) ∧
  (∀ h d i n m s s0 e r, begun h s = s0 → ringArgs d i n 256 = .ok m → viewed s0 h 3 d = .ok e → readRing s0 h e i m = r →
    Replies (.traceShow h d i n) viewForm h s s0 (r.1.map (trLine e)) [w "OK", w "TRACE", w "SHOW", dTok e, kn "N" r.1.length, kn "NEXT" r.2]) ∧
  (∀ h d i n m s s0 e r, begun h s = s0 → ringArgs d i n 1024 = .ok m → viewed s0 h 3 d = .ok e → readRing s0 h e i m = r →
    Replies (.traceRead h d i n) viewForm h s s0 (if r.1.isEmpty then [] else blkLines (r.1.flatMap (fun e => e.2.bytes)))
      [w "OK", w "TRACE", w "READ", dTok e, kn "N" r.1.length, kn "NEXT" r.2]) ∧
  (∀ h f s s0 d, begun h s = s0 → myDk s0 h = d → f.kinds ≠ [] → f.kinds.all ["USTEP", "WAIT", "ROUTINE", "DISP", "STATE"].contains = true → f.range = none →
    Replies (.traceSelect h f) (tenantForm "TRACE") h s
      (modDk s0 d (fun k => { k with trace := { k.trace with
        ustep := f.kinds.contains "USTEP", waitk := f.kinds.contains "WAIT", routine := f.kinds.contains "ROUTINE", disp := f.kinds.contains "DISP",
        state := f.kinds.contains "STATE", range := none } })) [] [w "OK", w "TRACE", w "SELECT", dTok d]) ∧
  (∀ h s s0 d, begun h s = s0 → myDk s0 h = d →
    Replies (.traceGrantPort h) (tenantForm "TRACE") h s (modDk s0 d (fun k => { k with trGrant := true })) [] [w "OK", w "TRACE", w "GRANT", dTok d, w "PORT"]) ∧
  (∀ h s s0 d, begun h s = s0 → myDk s0 h = d →
    Replies (.traceRevokePort h) (tenantForm "TRACE") h s
      (modDk s0 d (fun k => { k with trGrant := false, trPort := false, trEnd := if k.trPort then some (now s0) else k.trEnd })) []
      [w "OK", w "TRACE", w "REVOKE", dTok d, w "PORT"]) ∧
  (∀ h n s s0 d, begun h s = s0 → myDk s0 h = d → n < 8 →
    Replies (.traceGrantObserver h n) (tenantForm "TRACE") h s (regrant s0 d n (fun k => { k with obT := sortNat (n :: k.obT) })) []
      [w "OK", w "TRACE", w "GRANT", dTok d, obTok n]) ∧
  (∀ h n s s0 d, begun h s = s0 → myDk s0 h = d → n < 8 →
    Replies (.traceRevokeObserver h n) (tenantForm "TRACE") h s (regrant s0 d n (fun k => { k with obT := k.obT.filter (· != n) })) []
      [w "OK", w "TRACE", w "REVOKE", dTok d, obTok n]) ∧
  (∀ h d n s s0, begun h s = s0 → d < 8 → n < 8 →
    Replies (.traceEnable h d n) (ownerForm "TRACE") h s (regrant s0 d n (fun k => { k with obO := sortNat (n :: k.obO) })) []
      [w "OK", w "TRACE", w "ENABLE", dTok d, obTok n]) ∧
  (∀ h d n s s0, begun h s = s0 → d < 8 → n < 8 →
    Replies (.traceDisable h d n) (ownerForm "TRACE") h s (regrant s0 d n (fun k => { k with obO := k.obO.filter (· != n) })) []
      [w "OK", w "TRACE", w "DISABLE", dTok d, obTok n]) ∧
  (∀ h d on s s0, begun h s = s0 → d < 8 → (getDk s0 d).trGrant = true →
    Replies (.tracePort h d on) (ownerForm "TRACE") h s (modDk s0 d (fun k => { k with trPort := on })) [] [w "OK", w "TRACE", w "PORT", dTok d, w (onOff on)]) ∧
  (∀ dt s s0 d, advance s dt = s0 → now s0 / 32 % 8 = d → s0.rf.run = true → now s0 % 32 = 0 → timeDue (getDk s0 d) (now s0) = false →
    exec (.traceSlot dt) s = .next (drainSlot s0 d)) ∧
  (∀ h d l c s s0 e, begun h s = s0 → countList (if d.isSome = true then 3 else 2) 0 47 l = .ok c → viewed s0 h 2 d = .ok e → c.contains 8 = false →
    Replies (.count h d l) { word := "COUNT", roles := [.t, .b], ro := true } h s s0
      (c.map (fun i => ctLine i ((countNames[i]?).getD "") (countValue s0 (getDk s0 e) (Config.value 0).toNat i)))
      [w "OK", w "COUNT", dTok e, kn "N" c.length, kt "TB" (now s0)]) ∧
  (∀ h l c s s0 d z, begun h s = s0 → countList 3 0 47 l = .ok c → myDk s0 h = d → inSt (getDk s0 d) anySt = .ok () →
    c.filter (fun i => !(2 ≤ i && i ≤ 6)) = z → z.contains 10 = false →
    Replies (.countClear h l) (tenantForm "COUNT") h s (modThr (modDk s0 d (zeroCounts z)) d (fun t => t)) []
      [w "OK", w "COUNT", w "CLEAR", dTok d, kn "N" z.length]) ∧
  (∀ h l c s s0 t, begun h s = s0 → countList 3 48 63 l = .ok c → s0.md.cntT = some t →
    Replies (.countModule h l) { word := "COUNT", roles := allRoles, ro := true } h s s0
      (c.map (fun i => ctLine i ((moduleNames[i - 48]?).getD "") (tget s0.md.cnt i 0))) [w "OK", w "COUNT", w "MODULE", kn "N" c.length, kt "TB" (now s0)]) ∧
  (∀ dt m s s0 t, cooled (advance s dt) m = s0 → s.md.cntT = some t → t + Config.sec ≤ (advance s dt).wall →
    exec (.moduleCounterUpdate dt m) s =
      .next (deckles.foldl meter { s0 with md := { s0.md with cnt := numbered 48 (moduleCounts s0 m.die m.board), cntT := some s0.wall } })) ∧
  (∀ dt l s s0 d e r, advance s dt = s0 → (getLn s0 (l : Fin 10)).up = true → (getLn s0 l).paused = false → (getLn s0 l).role = .tenant d →
    (getDk s0 d).evq = e :: r → (getDk s0 d).evlost = 0 →
    exec (.eventLineSend dt l) s = .next (sendEvent (modDk s0 d (fun k => { k with evq := r, evlost := 0 })) l e.2)) ∧
  (∀ dt l s s0 e r, advance s dt = s0 → (getLn s0 (l : Fin 10)).up = true → (getLn s0 l).paused = false → (getLn s0 l).role = .owner →
    s0.ow.q = e :: r → s0.ow.lost = 0 →
    exec (.eventLineSend dt l) s = .next (sendEvent { s0 with ow := { s0.ow with q := r, lost := 0 } } l e.2))

/-- Microcode writes to the instrument registers have their effect, and a write to any other register fails FENCE-UNIT. With the
unit held by the deckle, a write to TARGET, FFOFS, PLAY, HALT, the converter's START and the TMU's START and HALT has its
effect; a customer step that writes any other register, past the checks before FENCE-UNIT, is a machine check with cause FENCE-
UNIT. (Rests on 15_dut_power, 16_aux_stimulus, 17_conversion, 18_time_measurement, 09_microengine.) -/
def Obligations.InstrumentRegistersComplete : Prop :=
  (∀ dt (d : Fin 8) (n : Fin 4) v s s0, advance s dt = s0 → (getDk s d).grant.dps.contains n.val = true →
    AtPart dt d s { pclass := 6, parg := pfield 86 n + pfield 78 0 } →
    exec (.dpsTargetReg dt d n v) s = .next (writeTarget s0 d n v.toNat)) ∧
  (∀ dt (d : Fin 8) (n : Fin 4) v s s0, advance s dt = s0 → (getDk s d).grant.dps.contains n.val = true →
    AtPart dt d s { pclass := 6, parg := pfield 86 n + pfield 78 4 } →
    exec (.dpsFfofsReg dt d n v) s = .next (modDps s0 n (fun p => { p with ffNext := some (v.toNat % 4096) }))) ∧
  (∀ dt (d : Fin 8) (n : Fin 2) v s s0 k, advance s dt = s0 → getDk s d = k → k.grant.aux.contains n.val = true →
    AtPart dt d s { pclass := 6, parg := pfield 86 (4 + n.val) + pfield 78 0 } →
    k.st.live = true → (getAux s0 n).st ≠ .off → (tget k.act.aux n {}).start = .cmd → pressList s0 d n = false →
    exec (.auxPlayReg dt d n v) s = .next (auxStartAt s0 n (ceilTo (now s0 + 16) 4))) ∧
  (∀ dt (d : Fin 8) (n : Fin 2) v s s0 k, advance s dt = s0 → getDk s d = k → k.grant.aux.contains n.val = true →
    AtPart dt d s { pclass := 6, parg := pfield 86 (4 + n.val) + pfield 78 1 } → k.st.live = true →
    exec (.auxHaltReg dt d n v) s = .next (auxHaltAt s0 n (ceilTo (now s0 + 16) 4))) ∧
  (∀ dt (d : Fin 8) (n : Fin 8) v s s0 k, advance s dt = s0 → getDk s d = k → k.grant.adc.contains n.val = true →
    AtPart dt d s { pclass := 6, parg := pfield 86 (8 + n.val) + pfield 78 0 } → k.st = .running → (tget k.act.adc n {}).trig = .cmd →
    exec (.adcStartReg dt d n v) s = .next (adcStartAt s0 n (now s0 + 16))) ∧
  (∀ dt (d : Fin 8) (n : Fin 4) v s s0 k, advance s dt = s0 → getDk s d = k → k.grant.tmu.contains n.val = true →
    AtPart dt d s { pclass := 6, parg := pfield 86 (16 + n.val) + pfield 78 0 } → k.st = .running → (tget k.act.tmu n {}).trig = .cmd →
    exec (.tmuStartReg dt d n v) s = .next (tmuStartAt s0 d n (now s0 + 16))) ∧
  (∀ dt (d : Fin 8) (n : Fin 4) v s s0 k, advance s dt = s0 → getDk s d = k → k.grant.tmu.contains n.val = true →
    AtPart dt d s { pclass := 6, parg := pfield 86 (16 + n.val) + pfield 78 1 } → k.st.live = true →
    exec (.tmuHaltReg dt d n v) s = .next (tmuHaltNow s0 n)) ∧
  (∀ dt (d : Fin 8) (u : Fin 32) (r : Fin 256) s s0 k, advance s dt = s0 → getDk s d = k → threadOk s0 k = true → k.thr.wait = none → k.thr.cust = true →
    unitOut (runCtx k d []) u r = true →
    exec (.instrOtherReg dt d u r) s = .next (customerCheck s0 d "FENCE-UNIT" k.thr.upc (readU s0 k.thr.upc).nano))

/-- A step is exec of the command at the front of the queue, on the state with the queue's rest. For every command c and state s
whose queue is c followed by r, step of s is exec of c on s with the queue r. (Rests on 95_what_each_step_holds,
22_command_index.) -/
def Obligations.StepTakesTheFrontCommand : Prop :=
  ∀ (s : State) c r, s.pending = c :: r → step s = exec c { s with pending := r }

/-- On an empty queue a step begins the line that arrived first of those that a session has held back, or idles (the model's
choice, logs 2 and 3). With an empty queue, step answers the unchanged state when no session holds a received line that may
begin, and otherwise runs that line's command on the state without it. (Rests on 04_noram_line.) -/
def Obligations.StepOnAnEmptyQueue : Prop :=
  (∀ s : State, s.pending = [] → heldNext s = none → step s = .next s) ∧
  (∀ (s t : State) c, s.pending = [] → heldNext s = some (c, t) → step s = exec c t)

/-- No command and no step ends in a fault or a refusal, and a run of any length goes on. For every command and every state exec
answers a next state, and from every state a run of n steps ends in a next state, for every n. (Rests on
95_what_each_step_holds, 04_noram_line, 22_command_index.) -/
def Obligations.EveryCommandAnswersANextState : Prop :=
  (∀ c s, ∃ t, exec c s = .next t) ∧ (∀ n s, Safe s n)

/-- No command touches the queue of waiting commands, and a step removes at most its front. For every command and state, exec
leaves the queue of waiting commands as it was, so that a step on a queue c followed by r leaves the queue r, and a step on an
empty queue leaves it empty. (Rests on 95_what_each_step_holds, 04_noram_line.) -/
def Obligations.CommandsLeaveTheQueue : Prop :=
  (∀ c s t, exec c s = .next t → t.pending = s.pending) ∧
  (∀ (s t : State) c r, s.pending = c :: r → step s = .next t → t.pending = r) ∧
  (∀ s t : State, s.pending = [] → step s = .next t → t.pending = [])

/-- Every step keeps the memories in canonical form. If the vat, the thread pads, the control-engine pad, the measurement pad,
the micro and nano stores with their parity bits and the retention copy of their vendor region hold strictly rising addresses
and list no zero byte, then so do they after every step. (Rests on 14_vat_and_pad_banks, 09_microengine, 16_aux_stimulus.) -/
def Obligations.EveryStepKeepsTheMemoriesCanonical : Prop :=
  ∀ s t, MemoriesCanonical s → step s = .next t → MemoriesCanonical t

/-- Every step keeps the identity of the module and never lets wall time go back. After every step the variant and the serial
number of the module are those before it, the wall clock has not gone back, and the number of free values drawn has not fallen.
(Rests on 01_secrecy_and_roles, 03_power_to_ready, 22_command_index.) -/
def Obligations.EveryStepKeepsTheModuleIdentity : Prop :=
  ∀ s t : State, step s = .next t →
    t.nv.variant = s.nv.variant ∧ t.nv.serial = s.nv.serial ∧ s.wall ≤ t.wall ∧ s.free ≤ t.free

/-- At reset the module is in POWER-ON, its timebase holds 0, its memories are canonical and empty, no deckle is open and no
command waits. State.reset has canonical memories, module state POWER-ON, a timebase that is 0 and does not count, every deckle
CLOSED, no session, and an empty queue. (Rests on 03_power_to_ready, 14_vat_and_pad_banks, 07_time_and_reference.) -/
def Obligations.ResetHoldsTheInvariants : Prop :=
  MemoriesCanonical State.reset ∧ State.reset.md.st = .powerOn ∧ State.reset.rf.tb = 0 ∧ State.reset.rf.run = false ∧ State.reset.pending = [] ∧
  (∀ d, (getDk State.reset d).st = .closed) ∧ (∀ l, (getLn State.reset l).up = false)

/-- AT CANCEL until 2,500 ticks before the action, and never afterwards. AT CANCEL of a pending action is accepted and answered
up to 2,500 ticks before its tick, the action is then pending no more and an event that it falls due has no effect; after that
point it is refused with E411 TOOLATE, and for an ID that is not pending with E410 NOSUCH, and nothing is done. (Formalises
R150.) -/
def Obligations.AtCancelTakesUntilTwoMicrosecondsBefore : Prop :=
  (∀ h n a s s0 d, begun h s = s0 → myDk s0 h = d → 1 ≤ n → n ≤ 255 → (getDk s0 d).ats.find? (fun x => x.id == n) = some a → now s0 + 2500 ≤ a.t →
    Replies (.atCancel h n) (tenantForm "AT") h s (modDk s0 d (fun k => { k with ats := k.ats.filter (fun x => x.id != n) })) []
      [w "OK", w "AT", w "CANCEL", dTok d, kn "ID" n]) ∧
  (∀ (s r : State) (d : Fin 8) n dt, r = modDk s d (fun k => { k with ats := k.ats.filter (fun x => x.id != n) }) →
    exec (.atActionDue dt d n) r = .next (advance r dt)) ∧
  (∀ h n a s s0, begun h s = s0 → 1 ≤ n → n ≤ 255 → (getDk s0 (myDk s0 h)).ats.find? (fun x => x.id == n) = some a → a.t < now s0 + 2500 →
    Refuses (.atCancel h n) (tenantForm "AT") h s [w "E411", w "TOOLATE"]) ∧
  (∀ h n s s0, begun h s = s0 → 1 ≤ n → n ≤ 255 → (getDk s0 (myDk s0 h)).ats.find? (fun x => x.id == n) = none →
    Refuses (.atCancel h n) (tenantForm "AT") h s [w "E410", w "NOSUCH"])

/-- PACE SET to a faster setting is always accepted, to a slower one refused while a deckle is ARMED or RUNNING. PACE SET of a
setting with a higher floor is accepted whatever the deckles do; of a setting with a lower floor, while some deckle is ARMED or
RUNNING, it is refused with the line E423 NEEDSTOP, which names no deckle and no cost, and nothing changes. (Formalises R197.)
-/
def Obligations.PaceChangesFasterAlwaysSlowerOnlyAtRest : Prop :=
  (∀ h p s s0, begun h s = s0 → s0.nv.pace.floor < p.floor →
    Awaits (.paceSet h p) { word := "PACE", roles := [.o] } h s { s0 with nv := { s0.nv with pace := p }, pc := { s0.pc with next := some p, low := some (s0.pc.next.toList.foldl slower (s0.pc.low.getD s0.nv.pace)) } } (.pace p)) ∧
  (∀ h p s s0 d, begun h s = s0 → p.floor < s0.nv.pace.floor → d < 8 → ((getDk s0 d).st = .armed ∨ (getDk s0 d).st = .running) →
    Refuses (.paceSet h p) { word := "PACE", roles := [.o] } h s [w "E423", w "NEEDSTOP"])

/-- A monitor window with M below 0.50 takes the module to SAFE with F-PACE, without the latch. When a window of the pace
monitor ends with a ratio below one half while the timebase counts and the module is in DEGRADED-PENDING, WARMING or READY, the
next state is in SAFE with cause F-PACE and the SAFE latch is as it was. (Formalises R204.) -/
def Obligations.SlowFabricEntersSafe : Prop :=
  ∀ dt ratio s, (advance s dt).rf.run = true → ratio < 1 / 2 → (s.md.st = .degraded ∨ s.md.st = .warming ∨ s.md.st = .ready) →
    ∃ t, exec (.monitorWindowEnd dt ratio) s = .next t ∧ t.md.st = .safe ∧ t.md.cause = "F-PACE" ∧ t.md.latch = s.md.latch

/-- RUN and TRIG act at the first multiple of 1,250 ticks at least 2,500 ticks after execution. For an ARMED deckle there is a
multiple t of 1,250 at least 2,500 ticks after execution, no smaller one is, and RUN leaves the deckle RUNNING with sheet 0 at
t, TRIG leaves it RUNNING with its trigger stamped at t (on a deckle whose trigger is not a chain group's). (Formalises R234.)
-/
def Obligations.RunAndTrigActAtTheFirstMultipleOf1250 : Prop :=
  ∀ h s s0 d, begun h s = s0 → myDk s0 h = d → (getDk s0 d).st = .armed → cmdGroup s0 (getDk s0 d) = none →
    ∃ t r q, t % 1250 = 0 ∧ now s0 + 2500 ≤ t ∧ (∀ u, u % 1250 = 0 → now s0 + 2500 ≤ u → t ≤ u) ∧
      Replies (.run h) (tenantForm "RUN") h s r [] [w "OK", w "RUN", dTok d] ∧ (getDk r d).st = .running ∧ (getDk r d).seq.start = t * 1024 ∧
      Replies (.trig h) (tenantForm "TRIG") h s q [] [w "OK", w "TRIG", dTok d] ∧ (getDk q d).st = .running ∧ (getDk q d).seq.trigAt = some (t * 1024)

/-- Event queues hold 256 and 64 lines; a FAULT line always enters, displacing the oldest line that is not one, and other lines
are dropped when full. A line that reaches a queue with room waits at its end; a full queue takes a FAULT line in place of the
oldest line that is not a FAULT line, or of its oldest line when all are FAULT lines, and drops any other line, counting one
lost line; the deckle queue has room for 256 lines and the owner queue for 64; a customer UEVENT is dropped and counted when the
queue already holds 192 lines. (Formalises R526.) -/
def Obligations.EventQueuesKeepFaultLines : Prop :=
  (∀ cap q c t, q.length < cap → enqueue cap q c t = (q ++ [(c, t)], 0)) ∧
  (∀ cap q t a e b, q = a ++ e :: b → cap ≤ q.length → (∀ x ∈ a, x.1 = EvClass.fault) → e.1 ≠ .fault → enqueue cap q .fault t = (a ++ b ++ [(.fault, t)], 1)) ∧
  (∀ cap q t e b, q = e :: b → cap ≤ q.length → (∀ x ∈ q, x.1 = EvClass.fault) → enqueue cap q .fault t = (b ++ [(.fault, t)], 1)) ∧
  (∀ cap q c t, cap ≤ q.length → c ≠ .fault → enqueue cap q c t = (q, 1)) ∧
  (∀ s d c t, (getDk (event s d c t) d).evq = (enqueue 256 (getDk s d).evq c (evLine c d t)).1) ∧
  (∀ s c t, (ownerEvent s c t).ow.q = (enqueue 64 s.ow.q c (w ("!" ++ c.name) :: t)).1) ∧
  (∀ s d c t, 192 ≤ (getDk s d).evq.length →
    (getDk (uevent s d c t) d).evq = (getDk s d).evq ∧ (getDk (uevent s d c t) d).evlost = (getDk s d).evlost + 1)

/-- After a loss the next event line is preceded by the note of how many were lost. When a queue has lost n lines since its last
delivery, the next delivery sends the note EVENTS-LOST N=n, with the deckle's name on a tenant's line and without on the
owner's, then the oldest line, and forgets n. (Formalises R527.) -/
def Obligations.LostEventsAreAnnouncedBeforeTheNextLine : Prop :=
  (∀ dt l s s0 d e r n, advance s dt = s0 → (getLn s0 (l : Fin 10)).up = true → (getLn s0 l).paused = false → (getLn s0 l).role = .tenant d →
    (getDk s0 d).evq = e :: r → (getDk s0 d).evlost = n → 0 < n →
    exec (.eventLineSend dt l) s =
      .next (sendEvent (modDk (sendEvent s0 l [w "!NOTE", dTok d, w "EVENTS-LOST", kn "N" n]) d (fun k => { k with evq := r, evlost := 0 })) l e.2)) ∧
  (∀ dt l s s0 e r n s1, advance s dt = s0 → (getLn s0 (l : Fin 10)).up = true → (getLn s0 l).paused = false → (getLn s0 l).role = .owner →
    s0.ow.q = e :: r → s0.ow.lost = n → 0 < n → sendEvent s0 l [w "!NOTE", w "EVENTS-LOST", kn "N" n] = s1 →
    exec (.eventLineSend dt l) s = .next (sendEvent { s1 with ow := { s1.ow with q := r, lost := 0 } } l e.2))

/-- COUNT CLEAR zeroes the counters it names except 2 to 6, which ARM, BROKE CLEAR and CAPTURE CLEAR zero. COUNT CLEAR of a list
leaves 0 in every named counter outside 2 to 6 and every other counter as it was; an ARM that begins leaves 0 in every deckle
counter; BROKE CLEAR leaves 0 in counters 2 to 4 and CAPTURE CLEAR in 5 and 6, and neither changes another counter. (Formalises
R550.) -/
def Obligations.CountersAreClearedWhereTheRuleSays : Prop :=
  (∀ h l c s s0 d, begun h s = s0 → countList 3 0 47 l = .ok c → myDk s0 h = d → (getDk s0 d).st ∈ anySt →
    ∃ r z, Replies (.countClear h l) (tenantForm "COUNT") h s r [] [w "OK", w "COUNT", w "CLEAR", dTok d, kn "N" z] ∧
      ∀ i, tget (getDk r d).cnt i 0 = if i ∈ c ∧ ¬ (2 ≤ i ∧ i ≤ 6) then 0 else tget (getDk s0 d).cnt i 0) ∧
  (∀ s d i, tget (getDk (armBegin s d) d).cnt i 0 = 0) ∧
  (∀ h s s0 d, begun h s = s0 → myDk s0 h = d → (getDk s0 d).st ∈ clearStates →
    ∃ r, Replies (.brokeClear h) (tenantForm "BROKE") h s r [] [w "OK", w "BROKE", w "CLEAR", dTok d] ∧
      ∀ i, tget (getDk r d).cnt i 0 = if 2 ≤ i ∧ i ≤ 4 then 0 else tget (getDk s0 d).cnt i 0) ∧
  (∀ h s s0 d, begun h s = s0 → myDk s0 h = d → (getDk s0 d).st ∈ clearStates →
    ∃ r, Replies (.captureClear h) (tenantForm "CAPTURE") h s r [] [w "OK", w "CAPTURE", w "CLEAR", dTok d] ∧
      ∀ i, tget (getDk r d).cnt i 0 = if 5 ≤ i ∧ i ≤ 6 then 0 else tget (getDk s0 d).cnt i 0)

/-- The broke log fills its slots and then keeps (FIRST), or wraps to slot 1 (LAST), and tells so once per run. FIRST is the
mode of a new furnish. A record that drains from the queue is stored at the next slot of the broke bank; in FIRST the record
that reaches slot 16,383 is stored there as FULL with its own fields and no later record is stored; in LAST a record beyond slot
16,383 goes to slot 1. The first FULL or wrap queues one LIMIT BROKE-FULL line with the record's index, later ones none, an ARM
begins with slot 0 and no line sent, and the first record of a run is START. (Formalises R382.) -/
def Obligations.BrokeLogFillsOrWraps : Prop :=
  ({} : Furnish).bmode = .first ∧
  (∀ s d, (getDk (armBegin s d) d).res = {}) ∧ ({} : Results).bpos = 0 ∧ ({} : Results).bfull = false ∧ (∀ b f, recordKind true b f = some 0xF) ∧
  (∀ dt (d : Fin 8) s s0 k r rest b t, advance s dt = s0 → getDk s0 d = k → k.res.bq = r :: rest → k.act.bbank = some b →
    exec (.brokeDrain dt d false) s = .next t →
    (getDk t d).res.bq = rest ∧
    (k.res.bpos < 16383 → t.vat = mput (wakeBank s0 b).vat (bankBase b + 64 * k.res.bpos) r.bytes ∧ (getDk t d).res.bpos = k.res.bpos + 1 ∧
      (getDk t d).res.bfull = k.res.bfull ∧ (getDk t d).evq = k.evq) ∧
    (k.act.bmode = .first → k.res.bpos = 16383 →
      t.vat = mput (wakeBank s0 b).vat (bankBase b + 64 * 16383) { r with kind := 0xE }.bytes ∧ (getDk t d).res.bpos = 16384) ∧
    (k.act.bmode = .first → 16384 ≤ k.res.bpos → t.vat = (wakeBank s0 b).vat ∧ (getDk t d).res.bpos = k.res.bpos ∧ (getDk t d).evq = k.evq) ∧
    (k.act.bmode = .last → k.res.bpos = 16383 → t.vat = mput (wakeBank s0 b).vat (bankBase b + 64 * 16383) r.bytes ∧
      (getDk t d).res.bpos = 16384 ∧ (getDk t d).evq = k.evq) ∧
    (k.act.bmode = .last → 16384 ≤ k.res.bpos → t.vat = mput (wakeBank s0 b).vat (bankBase b + 64 * 1) r.bytes ∧ (getDk t d).res.bpos = 2) ∧
    ((k.act.bmode = .first ∧ k.res.bpos = 16383) ∨ (k.act.bmode = .last ∧ 16384 ≤ k.res.bpos) → (getDk t d).res.bfull = true ∧
      (getDk t d).evq = if k.res.bfull then k.evq else (enqueue 256 k.evq .limit (evLine .limit d [w "BROKE-FULL", kn "INDEX" r.index])).1))

/-- A sheet written to the pattern reads back, and every other sheet of the pattern keeps its word. For every deckle, furnish
with a stripe of distinct banks, and two sheets of its pattern address space: after one sheet is written with a word that fits
the sheet width, it reads as that word, and the other sheet reads as before. (Rests on 08_sheets_quires_sequences,
14_vat_and_pad_banks.) -/
def Obligations.SheetsOfAPatternAreStoredApart : Prop :=
  ∀ s d f pa i x pa' i', f.stripe.Nodup → pa < patternSize f (getDk s d).width → pa' < patternSize f (getDk s d).width → i < 32 → i' < 32 →
    x < 2 ^ (getDk s d).width →
    mnum (writeSheet s d f pa i x).vat (sheetAddr f (getDk s d).width pa' i') ((getDk s d).width / 8) =
      if pa' = pa ∧ i' = i then x else mnum s.vat (sheetAddr f (getDk s d).width pa' i') ((getDk s d).width / 8)

/-- CALL pushes the next op's index and goes to its target, RET pops and goes there, JUMP goes to its target. At a CALL op with
fewer than 16 entries on the op stack the thread continues at the target and the stack has the index of the next op on top; at a
RET op with an entry it continues at that index and the entry is gone; at a JUMP op it continues at the target and the stack is
as it was. A deckle's program counter and stack are read after the op. (Formalises R265.) -/
def Obligations.CallRetAndJumpFollowTheOpStack : Prop :=
  (∀ dt d s o, AtOp dt d s o → o.code = 0x23 → (getDk s d).thr.os.length < 16 →
    ∃ t, exec (.opCall dt d) s = .next t ∧ (getDk t d).thr.ip = o.b % 2 ^ 17 ∧
      (getDk t d).thr.os = ((getDk s d).thr.ip + 1, (getDk s d).thr.depth) :: (getDk s d).thr.os) ∧
  (∀ dt d s o r e l, AtOp dt d s o → o.code = 0x24 → (getDk s d).thr.os = (r, e) :: l →
    ∃ t, exec (.opRet dt d) s = .next t ∧ (getDk t d).thr.ip = r ∧ (getDk t d).thr.os = l) ∧
  (∀ dt d s o, AtOp dt d s o → o.code = 0x22 →
    ∃ t, exec (.opJump dt d) s = .next t ∧ (getDk t d).thr.ip = o.b % 2 ^ 17 ∧ (getDk t d).thr.os = (getDk s d).thr.os)

/-- A start event at a PLAYING or FROZEN generator is only counted in MISSED, which READ reports; equal start ticks start once.
A start event at a generator that plays or is frozen changes nothing but MISSED, which rises by 1; a second start event with the
same tick at a generator that is neither leaves it as the first did; AUX READ reports MISSED. (Formalises R455.) -/
def Obligations.AuxStartEventsWhileBusyAreCounted : Prop :=
  (∀ s n t a, auxSync (now s) (getAux s n) = a → (a.st = .playing ∨ a.st = .frozen) →
    auxStartAt s n t = setAux s n { a with missed := a.missed + 1 }) ∧
  (∀ s n t a, auxSync (now s) (getAux s n) = a → (a.st = .idle ∨ a.st = .ended) → getAux (auxStartAt (auxStartAt s n t) n t) n = getAux (auxStartAt s n t) n) ∧
  (∀ h n s s0 d a r, begun h s = s0 → ownUnit s0 h .aux n = .ok d → r = modAux s0 n (auxSync (now s0)) → getAux r n = a →
    Replies (.auxRead h n) (readForm "AUX") h s r []
      [w "OK", w "AUX", dTok d, uTok .aux n, kw "STATE" a.st.name, kn "ENTRY" a.ent, kv "SPAN" (spanAtoms a.cfg.span),
       kw "RELAY" (if a.relay then "CLOSED" else "OPEN"), kn "MISSED" a.missed, kt "TB" (now s0)])

/-- A deckle counter rises by what it counts, stops at the largest value of its width, and moves no other counter. Adding n to
counter i of a deckle leaves the sum there, or the largest value of its width where the sum is greater; every other counter and
everything else of the deckle are as they were. (Rests on 20_observation.) -/
def Obligations.CountersRiseAndStopAtTheirLargestValue : Prop :=
  ∀ k i n m b, (cntWidth[i]?).getD 64 = b → tget k.cnt i 0 < 2 ^ b →
    tget (cntAdd k i n).cnt i 0 = (if tget k.cnt i 0 + n < 2 ^ b then tget k.cnt i 0 + n else 2 ^ b - 1) ∧
    (m ≠ i → tget (cntAdd k i n).cnt m 0 = tget k.cnt m 0) ∧ { cntAdd k i n with cnt := k.cnt } = k

/-- A number written to a memory reads back, and every byte outside it keeps its value. After the n bytes of a number are
written at an address, the n bytes there read as that number modulo 256 to the n, and each byte at another address reads as
before; a copy makes the bytes of its destination those of its source, a zeroed range reads 0, and neither changes a byte
elsewhere. (Rests on 14_vat_and_pad_banks.) -/
def Obligations.MemoryReadsBackWhatWasWritten : Prop :=
  (∀ m a n v, mnum (mputNum m a n v) a n = v % 256 ^ n) ∧
  (∀ m a n v b, (b < a ∨ a + n ≤ b) → mget (mputNum m a n v) b = mget m b) ∧
  (∀ m bs a i, mget (mput m a bs) i = if a ≤ i ∧ i < a + bs.length then bs.getD (i - a) 0 else mget m i) ∧
  (∀ m a n b, mget (mzero m a n) b = if a ≤ b ∧ b < a + n then 0 else mget m b) ∧
  (∀ m src a n b i, Memory.wf src → mget (mcopy m src a n b) i = if b ≤ i ∧ i < b + n then mget src (a + (i - b)) else mget m i)

/-- A write with a reserved code or a filler bit is refused whole with E417, and nothing is written. DATA SHEETS whose block
holds sheet words before a first word with a reserved code, or with a non-zero filler bit, is refused with E417 BADSHEET PA=q
S=s and the channel of the reserved code's first pin, or FILL, and writes nothing; a word is at fault exactly when some granted
pin carries a code above 10 or some bit above the pins' codes is set. (Formalises R255.) -/
def Obligations.ABadSheetRefusesTheWholeWrite : Prop :=
  (∀ h pa n blk s s0 d p a x b why, BlkIs h blk s p → begunBlk h blk s = s0 → myDk s0 h = d →
    quireRange (getDk s0 d) (getDk s0 d).editing 3 pa n = .ok () → quiresHeld (getDk s0 d) (getDk s0 d).editing pa n = .ok () → p.length = n * (4 * (getDk s0 d).width) →
    notProgram (getDk s0 d) (getDk s0 d).editing pa n = .ok () → splitNums ((getDk s0 d).width / 8) p.length p = a ++ x :: b →
    (∀ y ∈ a, sheetFault (getDk s0 d) y = none) → sheetFault (getDk s0 d) x = some why →
    RepliesBlk (.dataSheets h pa n blk) (tenantForm "DATA") h blk s s0 [] (e417 (pa + a.length / 32) (a.length % 32) why)) ∧
  (∀ k x, sheetFault k x = none ↔ (∀ i < k.grant.ch.length, sheetCode x i ≤ 10) ∧ x < 2 ^ (4 * k.grant.ch.length + 8)) ∧
  (∀ k x why, sheetFault k x = some why → (∀ i < k.grant.ch.length, sheetCode x i ≤ 10) → why = w "FILL") ∧
  (∀ k x i c, i < k.grant.ch.length → (∀ j < i, sheetCode x j ≤ 10) → 10 < sheetCode x i → k.grant.ch[i]? = some c →
    sheetFault k x = some (kv "PIN" (unitName .ch c)))

/-- An edit changes the working furnish in OPEN and HELD and the shadow in the other open states, and never the active furnish.
An edit that is accepted leaves the active furnish, the bank contents and the granted units as they were. In OPEN and HELD it
applies to the working furnish, leaves the shadow, clears the seal and adds no word to the reply; in ARMED, RUNNING, STOPPED and
FAULTED it applies to the shadow, leaves working furnish and seal, and the reply ends with SHADOW, or SHADOW NEEDSTOP for a
change that PRESS may not make. A CLOSED or ZEROING deckle accepts none. (Rests on 05_deckles_and_furnishes.) -/
def Obligations.EditsGoToTheWorkingFurnishOrTheShadow : Prop :=
  (∀ s d item f r t, edit s d item f = .ok (r, t) →
    (getDk r d).act = (getDk s d).act ∧ (getDk r d).grant = (getDk s d).grant ∧ r.vat = s.vat ∧ r.bk = s.bk ∧ (∀ e, e ≠ d → getDk r e = getDk s e) ∧
    (((getDk s d).st = .opened ∨ (getDk s d).st = .held) →
      (getDk r d).work = f (getDk s d).work ∧ (getDk r d).shad = (getDk s d).shad ∧ (getDk r d).sealN = none ∧ t = []) ∧
    (((getDk s d).st = .armed ∨ (getDk s d).st = .running ∨ (getDk s d).st = .stopped ∨ (getDk s d).st = .faulted) →
      (getDk r d).work = (getDk s d).work ∧ (getDk r d).shad = f (getDk s d).shad ∧ (getDk r d).sealN = (getDk s d).sealN ∧
        t = if item.isSome then [w "SHADOW", w "NEEDSTOP"] else [w "SHADOW"])) ∧
  (∀ s d item f, ((getDk s d).st = .closed ∨ (getDk s d).st = .zeroing) → edit s d item f = .error (e420 (getDk s d)))

/-- A tagged line whose tag is known is answered from the tag memory or refused with E409, and its command is not executed. For
every command line without a block: when its tag memory holds the tag with the same text and a reply, the stored reply is sent,
marked REPLAY, and nothing else is done; with the same text and no reply yet, the line waits for it; with another text it is
refused with E409 and nothing is done, whatever the command would do. (Rests on 04_noram_line.) -/
def Obligations.AKnownTagIsReplayedOrRefused : Prop :=
  ∀ c f h body s s0 t e, Arrives h s → begun h s = s0 → lineTag (seen h s).text = some t → findTag s0 (tagMemOf h.line (getLn s h.line).role) t = some e →
    (e.text = normText (seen h s).text → e.reply.isSome = true →
      noram s c f h body = .next (answer s0 h.line ((getLn s0 h.line).nslot - 1) (replayOf e).1 (replayOf e).2)) ∧
    (e.text = normText (seen h s).text → e.reply = none →
      noram s c f h body = .next { s0 with jobs := s0.jobs ++ [{ kind := .dup (tagMemOf h.line (getLn s h.line).role) t, line := h.line, slot := (getLn s0 h.line).nslot - 1 }] }) ∧
    (e.text ≠ normText (seen h s).text → noram s c f h body = .next (answer s0 h.line ((getLn s0 h.line).nslot - 1) [] e409)) ∧
    (∀ b g, e.reply = some (b, g) → ∃ x, (replayOf e).2 = g ++ w "REPLAY" :: x)

/-- OWNER TAKE is accepted on CON of a module without an owner and refused with E403 anywhere else. A well-formed OWNER TAKE on
line 0 of a module without an owner is accepted, and the module then has the given key as owner key and differs in nothing else
but the failure counts, of which it says nothing; on another line, or when an owner exists, it is refused with E403 and nothing
is done. (Formalises R15.) -/
def Obligations.OwnerTakeOnlyOnTheConsoleOfAnUnownedModule : Prop :=
  (∀ h key s s0, begun h s = s0 → key.digits = 64 → (h.line : Nat) = 0 → s0.nv.owner = none →
    ∃ l, Replies (.ownerTake h key) { word := "OWNER", roles := [.a] } h s
      { s0 with nv := { s0.nv with owner := some { k := key.val, setAt := now s0 }, lock := l } } [] [w "OK", w "OWNER", w "TAKE"]) ∧
  (∀ h key s, key.digits = 64 → ((h.line : Nat) ≠ 0 ∨ (begun h s).nv.owner.isSome = true) →
    Refuses (.ownerTake h key) { word := "OWNER", roles := [.a] } h s [w "E403", w "DENIED"])

/-- ADD, ADC, SUB, SBC, CMP, the shifts, MIN, MAX, CLZ and POPC agree with arithmetic on integers. ADD and ADC give the sum, and
SUB, SBC and CMP the difference, modulo 2^32; carry out of an addition says that the unsigned sum does not fit, of a subtraction
that it borrows nothing; overflow says that the signed result does not fit in 32 bits; SHL by n multiplies and SHR divides by
2^n, MIN and MAX are the smaller and greater unsigned operand, CLZ names the highest one and POPC is at most 32. (Rests on
09_microengine.) -/
def Obligations.AluAgreesWithIntegerArithmetic : Prop :=
  (∀ a b c, (alu .add a b c).val = a + b ∧ (alu .add a b c).c = some (decide (2 ^ 32 ≤ a.toNat + b.toNat)) ∧
    (alu .add a b c).v = decide (a.toInt + b.toInt < -2 ^ 31 ∨ 2 ^ 31 ≤ a.toInt + b.toInt)) ∧
  (∀ a b c, (alu .adc a b c).val = a + b + BitVec.ofNat 32 c.toNat ∧ (alu .adc a b c).c = some (decide (2 ^ 32 ≤ a.toNat + b.toNat + c.toNat))) ∧
  (∀ a b c, (alu .sub a b c).val = a - b ∧ (alu .sub a b c).c = some (decide (b.toNat ≤ a.toNat)) ∧
    (alu .sub a b c).v = decide (a.toInt - b.toInt < -2 ^ 31 ∨ 2 ^ 31 ≤ a.toInt - b.toInt) ∧ alu .cmp a b c = alu .sub a b c) ∧
  (∀ a b c, (alu .sbc a b c).val = a - b - BitVec.ofNat 32 (1 - c.toNat)) ∧
  (∀ a b c, (alu .shl a b c).val.toNat = a.toNat * 2 ^ (b.toNat % 32) % 2 ^ 32 ∧ (alu .shr a b c).val.toNat = a.toNat / 2 ^ (b.toNat % 32)) ∧
  (∀ a b c, (alu .min a b c).val.toNat = Nat.min a.toNat b.toNat ∧ (alu .max a b c).val.toNat = Nat.max a.toNat b.toNat) ∧
  (∀ a, clz a ≤ 32 ∧ a.toNat < 2 ^ (32 - clz a) ∧ (a ≠ 0 → 2 ^ (31 - clz a) ≤ a.toNat)) ∧
  (∀ a, popc a ≤ 32 ∧ (popc a = 0 ↔ a = 0))

/-- A CALL with 8 entries in use and a RET with none are refused to a customer word, to a vendor word and to the service thread,
each in its own way. A thread that stands at a good CALL word with 8 entries of the micro-stack in use, or at a good RET word
with none, does not execute it: in a customer word of its slice it raises a machine check with CAUSE MSTACK, in a word of the
vendor region a machine check that names the routine, and the service thread takes the module to SAFE with F-MCHK. (Rests on
09_microengine, 06_clockless_core.) -/
def Obligations.MicroStackIsNeverPassed : Prop :=
  (∀ dt (d : Fin 8) s s0 a x n, advance s dt = s0 → threadOk s0 (getDk s d) = true → (getDk s d).thr.cust = true → (getDk s d).thr.upc = a →
    fetchBad s0 a = (false, false) → readU s0 a = x → readN s0 x.nano = n → vendorWord a = false → fence (runCtx (getDk s d) d (x.targets a)) x n = none →
    (x.mode = 2 → 8 ≤ (getDk s d).thr.ms.length → exec (.umodeCall dt (some d) none) s = .next (customerCheck s0 d "MSTACK" a x.nano)) ∧
    (x.mode = 3 → (getDk s d).thr.ms = [] → exec (.umodeRet dt (some d) none) s = .next (customerCheck s0 d "MSTACK" a x.nano))) ∧
  (∀ dt (d : Fin 8) s s0 a x, advance s dt = s0 → threadOk s0 (getDk s d) = true → (getDk s d).thr.cust = true → (getDk s d).thr.upc = a →
    fetchBad s0 a = (false, false) → readU s0 a = x → vendorWord a = true →
    (x.mode = 2 → 8 ≤ (getDk s d).thr.ms.length → exec (.umodeCall dt (some d) none) s = .next (vendorCause s0 d "MSTACK" 0x200)) ∧
    (x.mode = 3 → (getDk s d).thr.ms = [] → exec (.umodeRet dt (some d) none) s = .next (vendorCause s0 d "MSTACK" 0x200))) ∧
  (∀ dt s s0 x, advance s dt = s0 → svcRuns s0 = true → (fetchBad s0 s.md.svc.upc).1 = false → readU s0 s.md.svc.upc = x →
    (x.mode = 2 → 8 ≤ s.md.svc.ms.length → exec (.umodeCall dt none none) s = .next (moduleFault s0 "F-MCHK" false)) ∧
    (x.mode = 3 → s.md.svc.ms = [] → exec (.umodeRet dt none none) s = .next (moduleFault s0 "F-MCHK" false)))

/-- The slot that starts at count c belongs to deckle (c div 32) mod 8, carries only that deckle's packet, and is otherwise a
SYNC packet. A slot starts at every multiple of 32 of the running timebase. The slot at count c belongs to deckle (c div 32) mod
8: it sends that deckle's oldest waiting packet when the deckle is mapped to the port, and a SYNC packet when it is not mapped
or has none, and no other deckle's FIFO or ring changes; 256 ticks later the slot is the same deckle's again. (Formalises R539.)
-/
def Obligations.TraceSlotsRotateOverTheDeckles : Prop :=
  (∀ dt s s0 c d t, advance s dt = s0 → s0.rf.run = true → now s0 = c → c % 32 = 0 → c / 32 % 8 = d → s0.ph.port = true → exec (.traceSlot dt) s = .next t →
    (∀ e, e ≠ d → getDk t e = getDk s0 e) ∧ (∃ b, t.ph.slot = some (d, b)) ∧
    (∀ p r, (getDk s0 d).trace.fifo = p :: r → timeDue (getDk s0 d) c = false → toPort s0 (getDk s0 d) p = true → t.ph.slot = some (d, p.bytes)) ∧
    (∀ p r, (getDk s0 d).trace.fifo = p :: r → timeDue (getDk s0 d) c = false → toPort s0 (getDk s0 d) p = false → t.ph.slot = some (d, syncBytes d)) ∧
    ((getDk s0 d).trace.fifo = [] → timeDue (getDk s0 d) c = false → t.ph.slot = some (d, syncBytes d))) ∧
  (∀ c : Nat, (c + 256) / 32 % 8 = c / 32 % 8)

/-- A zeroed bank reads 0 in every byte, has TS 0 alone in its header mask, and no byte of another bank changes. After a bank is
zeroed, each byte of its window reads 0, its header mask holds TS 0, its T mask and its double-bit errors are empty and it is
ON; each byte outside its window and the record of every other bank are as they were. (Rests on 14_vat_and_pad_banks.) -/
def Obligations.AZeroedBankReadsZeroAndNoOtherChanges : Prop :=
  ∀ s b, (∀ a, mget (zeroBank s b).vat a = if b * 2 ^ 20 ≤ a ∧ a < (b + 1) * 2 ^ 20 then 0 else mget s.vat a) ∧
    (getBk (zeroBank s b) b).tsm = 1 ∧ (getBk (zeroBank s b) b).tm = 0 ∧ (getBk (zeroBank s b) b).dbe = [] ∧ (getBk (zeroBank s b) b).pow = .on ∧
    (∀ c, c ≠ b → getBk (zeroBank s b) c = getBk s c)

/-- RUN, TRIG and BROKE and CAPTURE CLEAR in a state that does not allow them are refused with E420 and do nothing. RUN and TRIG
of a deckle that is not ARMED, and BROKE CLEAR and CAPTURE CLEAR of a deckle that is not STOPPED, OPEN or HELD, are refused with
E420 BADSTATE STATE=s, with REASON=r when the deckle is HELD for r, and nothing is done. (Rests on 05_deckles_and_furnishes.) -/
def Obligations.RunningCommandsAreRefusedInTheWrongState : Prop :=
  (∀ h s k, getDk (begun h s) (myDk (begun h s) h) = k → k.st ≠ .armed →
    Refuses (.run h) (tenantForm "RUN") h s (e420 k) ∧ Refuses (.trig h) (tenantForm "TRIG") h s (e420 k)) ∧
  (∀ h s k, getDk (begun h s) (myDk (begun h s) h) = k → k.st ≠ .stopped → k.st ≠ .opened → k.st ≠ .held →
    Refuses (.brokeClear h) (tenantForm "BROKE") h s (e420 k) ∧ Refuses (.captureClear h) (tenantForm "CAPTURE") h s (e420 k)) ∧
  (∀ k, k.st ≠ .held → e420 k = [w "E420", w "BADSTATE", kw "STATE" k.st.name]) ∧
  (∀ k y, k.st = .held → k.why = some y → e420 k = [w "E420", w "BADSTATE", kw "STATE" "HELD", kw "REASON" y.name])

/-- READY is high exactly in WARMING and READY, REF-OUT runs only with a counting timebase, and KEEPER is a square wave of 1,250
ticks. While the module is powered READY is high in WARMING and READY and low in every other state, and without power it is not
driven; REF-OUT runs exactly while the powered module is in WARMING or READY and its loop is locked or in holdover; while KEEPER
runs it rises at every multiple of 1,250 ticks from its first rise on, falls 625 ticks after each rise, and is high exactly from
a rise to the next fall; it has no edge once it has stopped. (Rests on 02_module_and_connectors, 07_time_and_reference,
03_power_to_ready.) -/
def Obligations.ConnectorsShowTheState : Prop :=
  (∀ s, s.md.power = true → (readyOut s = .high ↔ s.md.st = .warming ∨ s.md.st = .ready) ∧ (readyOut s = .low ↔ s.md.st ≠ .warming ∧ s.md.st ≠ .ready)) ∧
  (∀ s, s.md.power = false → readyOut s = .hiz ∧ refOutRuns s = false ∧ keeperOut s = .hiz) ∧
  (∀ s, refOutRuns s = true ↔ s.md.power = true ∧ (s.md.st = .warming ∨ s.md.st = .ready) ∧ (s.rf.lock = .locked ∨ s.rf.lock = .holdover)) ∧
  (∀ s t, s.md.power = true → s.md.keeper = true → s.md.keeperT ≤ t → t % 1250 = 0 → keeperRises s t = true ∧ keeperFalls s (t + 625) = true) ∧
  (∀ s, s.md.power = true → s.md.keeper = true → s.md.keeperT ≤ now s → (keeperOut s = .high ↔ now s % 1250 < 625)) ∧
  (∀ s t, s.md.keeper = false → keeperRises s t = false ∧ keeperFalls s t = false)

/-- Every word written to a control store has good parity, and one upset bit of a good word makes its parity bad and that of no
other word. After a write of words to the micro or the nano store each of them has good parity, and each other word keeps its
parity, good or bad; an upset of one bit of a word, data or parity, whose parity is good leaves that word with bad parity, and
leaves every other word of both stores with the parity that it had. (Rests on 09_microengine.) -/
def Obligations.ParityFindsOneUpsetBit : Prop :=
  (∀ s m a n i, Memory.wf s.ust → Memory.wf m → goodU (storeU s m a n) i = if a ≤ i ∧ i < a + n then true else goodU s i) ∧
  (∀ s m a n i, Memory.wf s.nst → Memory.wf m → goodN (storeN s m a n) i = if a ≤ i ∧ i < a + n then true else goodN s i) ∧
  (∀ s x, Memory.wf s.ust → x.nano = false → x.bit < 33 → goodU s x.addr = true → goodU (upset s x) x.addr = false) ∧
  (∀ s x, Memory.wf s.nst → x.nano = true → x.bit < 130 → goodN s x.addr = true → goodN (upset s x) x.addr = false) ∧
  (∀ s x i, Memory.wf s.ust → (x.nano = false → i ≠ x.addr) → goodU (upset s x) i = goodU s i) ∧
  (∀ s x i, Memory.wf s.nst → (x.nano = true → i ≠ x.addr) → goodN (upset s x) i = goodN s i)

end
end

