-- ==== Sys2Proof/Laws/State.lean ====
section
/-! SUPPORT. Laws of tables and of the state's updates: what an update of one part leaves of every other, so that no proof
unfolds a record. -/

namespace Sys2Proof.Machine

/-! ### Tables -/

theorem tget_tset_same (t : Tab α) (i : Nat) (v d : α) : tget (tset t i v) i d = v := by
  induction t with
  | nil => simp [tset, tget, tget?]
  | cons e r ih =>
    obtain ⟨j, u⟩ := e
    simp only [tset]
    split
    · simp [tget, tget?]
    · split
      · simp [tget, tget?]
      · rename_i h1 h2
        simp only [tget, tget?, List.find?_cons] at ih ⊢
        have : (j == i) = false := by simp; omega
        simp [this, ih]

theorem tget_tset_other (t : Tab α) (i j : Nat) (v d : α) (h : j ≠ i) : tget (tset t i v) j d = tget t j d := by
  induction t with
  | nil => simp [tset, tget, tget?, Ne.symm h]
  | cons e r ih =>
    obtain ⟨k, u⟩ := e
    simp only [tset]
    have hij : (i == j) = false := by simp; omega
    split
    · simp [tget, tget?, hij]
    · split
      · rename_i h1 h2
        subst h2
        simp [tget, tget?, hij]
      · simp only [tget, tget?, List.find?_cons] at ih ⊢
        by_cases hk : (k == j) = true <;> simp [hk, ih]

/-! ### Time -/

@[simp] theorem advance_pending (s : State) (n : Nat) : (advance s n).pending = s.pending := rfl
@[simp] theorem advance_free (s : State) (n : Nat) : (advance s n).free = s.free := rfl
@[simp] theorem advance_arrN (s : State) (n : Nat) : (advance s n).arrN = s.arrN := rfl
@[simp] theorem advance_resume (s : State) (n : Nat) : (advance s n).resume = s.resume := rfl
@[simp] theorem advance_md (s : State) (n : Nat) : (advance s n).md = s.md := rfl
@[simp] theorem advance_nv (s : State) (n : Nat) : (advance s n).nv = s.nv := rfl
@[simp] theorem advance_ch (s : State) (n : Nat) : (advance s n).ch = s.ch := rfl
@[simp] theorem advance_pc (s : State) (n : Nat) : (advance s n).pc = s.pc := rfl
@[simp] theorem advance_ln (s : State) (n : Nat) : (advance s n).ln = s.ln := rfl
@[simp] theorem advance_jobs (s : State) (n : Nat) : (advance s n).jobs = s.jobs := rfl
@[simp] theorem advance_ow (s : State) (n : Nat) : (advance s n).ow = s.ow := rfl
@[simp] theorem advance_dk (s : State) (n : Nat) : (advance s n).dk = s.dk := rfl
@[simp] theorem advance_bk (s : State) (n : Nat) : (advance s n).bk = s.bk := rfl
@[simp] theorem advance_vat (s : State) (n : Nat) : (advance s n).vat = s.vat := rfl
@[simp] theorem advance_tpad (s : State) (n : Nat) : (advance s n).tpad = s.tpad := rfl
@[simp] theorem advance_cep (s : State) (n : Nat) : (advance s n).cep = s.cep := rfl
@[simp] theorem advance_mpad (s : State) (n : Nat) : (advance s n).mpad = s.mpad := rfl
@[simp] theorem advance_ust (s : State) (n : Nat) : (advance s n).ust = s.ust := rfl
@[simp] theorem advance_nst (s : State) (n : Nat) : (advance s n).nst = s.nst := rfl
@[simp] theorem advance_upar (s : State) (n : Nat) : (advance s n).upar = s.upar := rfl
@[simp] theorem advance_npar (s : State) (n : Nat) : (advance s n).npar = s.npar := rfl
@[simp] theorem advance_pin (s : State) (n : Nat) : (advance s n).pin = s.pin := rfl
@[simp] theorem advance_fe (s : State) (n : Nat) : (advance s n).fe = s.fe := rfl
@[simp] theorem advance_dps (s : State) (n : Nat) : (advance s n).dps = s.dps := rfl
@[simp] theorem advance_aux (s : State) (n : Nat) : (advance s n).aux = s.aux := rfl
@[simp] theorem advance_adc (s : State) (n : Nat) : (advance s n).adc = s.adc := rfl
@[simp] theorem advance_tmu (s : State) (n : Nat) : (advance s n).tmu = s.tmu := rfl
@[simp] theorem advance_ph (s : State) (n : Nat) : (advance s n).ph = s.ph := rfl
@[simp] theorem advance_wall (s : State) (n : Nat) : (advance s n).wall = s.wall + n := rfl

/-! ### Free values -/

@[simp] theorem draw_wall (s : State) : (draw s).2.wall = s.wall := rfl
@[simp] theorem draw_pending (s : State) : (draw s).2.pending = s.pending := rfl
@[simp] theorem draw_arrN (s : State) : (draw s).2.arrN = s.arrN := rfl
@[simp] theorem draw_resume (s : State) : (draw s).2.resume = s.resume := rfl
@[simp] theorem draw_md (s : State) : (draw s).2.md = s.md := rfl
@[simp] theorem draw_nv (s : State) : (draw s).2.nv = s.nv := rfl
@[simp] theorem draw_rf (s : State) : (draw s).2.rf = s.rf := rfl
@[simp] theorem draw_ch (s : State) : (draw s).2.ch = s.ch := rfl
@[simp] theorem draw_pc (s : State) : (draw s).2.pc = s.pc := rfl
@[simp] theorem draw_ln (s : State) : (draw s).2.ln = s.ln := rfl
@[simp] theorem draw_jobs (s : State) : (draw s).2.jobs = s.jobs := rfl
@[simp] theorem draw_ow (s : State) : (draw s).2.ow = s.ow := rfl
@[simp] theorem draw_dk (s : State) : (draw s).2.dk = s.dk := rfl
@[simp] theorem draw_bk (s : State) : (draw s).2.bk = s.bk := rfl
@[simp] theorem draw_vat (s : State) : (draw s).2.vat = s.vat := rfl
@[simp] theorem draw_tpad (s : State) : (draw s).2.tpad = s.tpad := rfl
@[simp] theorem draw_cep (s : State) : (draw s).2.cep = s.cep := rfl
@[simp] theorem draw_mpad (s : State) : (draw s).2.mpad = s.mpad := rfl
@[simp] theorem draw_ust (s : State) : (draw s).2.ust = s.ust := rfl
@[simp] theorem draw_nst (s : State) : (draw s).2.nst = s.nst := rfl
@[simp] theorem draw_upar (s : State) : (draw s).2.upar = s.upar := rfl
@[simp] theorem draw_npar (s : State) : (draw s).2.npar = s.npar := rfl
@[simp] theorem draw_pin (s : State) : (draw s).2.pin = s.pin := rfl
@[simp] theorem draw_fe (s : State) : (draw s).2.fe = s.fe := rfl
@[simp] theorem draw_dps (s : State) : (draw s).2.dps = s.dps := rfl
@[simp] theorem draw_aux (s : State) : (draw s).2.aux = s.aux := rfl
@[simp] theorem draw_adc (s : State) : (draw s).2.adc = s.adc := rfl
@[simp] theorem draw_tmu (s : State) : (draw s).2.tmu = s.tmu := rfl
@[simp] theorem draw_ph (s : State) : (draw s).2.ph = s.ph := rfl
@[simp] theorem draw_free (s : State) : (draw s).2.free = s.free + 1 := rfl
@[simp] theorem getDk_draw (s : State) (n : Nat) : getDk (draw s).2 n = getDk s n := rfl
@[simp] theorem getDk_advance (s : State) (m n : Nat) : getDk (advance s m) n = getDk s n := rfl
@[simp] theorem getLn_draw (s : State) (n : Nat) : getLn (draw s).2 n = getLn s n := rfl
@[simp] theorem getLn_advance (s : State) (m n : Nat) : getLn (advance s m) n = getLn s n := rfl
@[simp] theorem getBk_draw (s : State) (n : Nat) : getBk (draw s).2 n = getBk s n := rfl
@[simp] theorem getBk_advance (s : State) (m n : Nat) : getBk (advance s m) n = getBk s n := rfl
@[simp] theorem getPin_draw (s : State) (n : Nat) : getPin (draw s).2 n = getPin s n := rfl
@[simp] theorem getPin_advance (s : State) (m n : Nat) : getPin (advance s m) n = getPin s n := rfl
@[simp] theorem getDps_draw (s : State) (n : Nat) : getDps (draw s).2 n = getDps s n := rfl
@[simp] theorem getDps_advance (s : State) (m n : Nat) : getDps (advance s m) n = getDps s n := rfl
@[simp] theorem getAux_draw (s : State) (n : Nat) : getAux (draw s).2 n = getAux s n := rfl
@[simp] theorem getAux_advance (s : State) (m n : Nat) : getAux (advance s m) n = getAux s n := rfl
@[simp] theorem getAdc_draw (s : State) (n : Nat) : getAdc (draw s).2 n = getAdc s n := rfl
@[simp] theorem getAdc_advance (s : State) (m n : Nat) : getAdc (advance s m) n = getAdc s n := rfl
@[simp] theorem getTmu_draw (s : State) (n : Nat) : getTmu (draw s).2 n = getTmu s n := rfl
@[simp] theorem getTmu_advance (s : State) (m n : Nat) : getTmu (advance s m) n = getTmu s n := rfl

/-! ### Dk -/

@[simp] theorem getDk_setDk_same (s : State) (d : Nat) (x : Deckle) : getDk (setDk s d x) d = x := tget_tset_same _ _ _ _
@[simp] theorem getDk_modDk_same (s : State) (d : Nat) (f : Deckle → Deckle) : getDk (modDk s d f) d = f (getDk s d) := tget_tset_same _ _ _ _
theorem getDk_setDk_other (s : State) (i j : Nat) (x : Deckle) (h : j ≠ i) : getDk (setDk s i x) j = getDk s j := tget_tset_other _ _ _ _ _ h
theorem getDk_modDk_other (s : State) (i j : Nat) (f : Deckle → Deckle) (h : j ≠ i) : getDk (modDk s i f) j = getDk s j := tget_tset_other _ _ _ _ _ h
@[simp] theorem setDk_wall (s : State) (d : Nat) (x : Deckle) : (setDk s d x).wall = s.wall := rfl
@[simp] theorem modDk_wall (s : State) (d : Nat) (f : Deckle → Deckle) : (modDk s d f).wall = s.wall := rfl
@[simp] theorem setDk_pending (s : State) (d : Nat) (x : Deckle) : (setDk s d x).pending = s.pending := rfl
@[simp] theorem modDk_pending (s : State) (d : Nat) (f : Deckle → Deckle) : (modDk s d f).pending = s.pending := rfl
@[simp] theorem setDk_free (s : State) (d : Nat) (x : Deckle) : (setDk s d x).free = s.free := rfl
@[simp] theorem modDk_free (s : State) (d : Nat) (f : Deckle → Deckle) : (modDk s d f).free = s.free := rfl
@[simp] theorem setDk_arrN (s : State) (d : Nat) (x : Deckle) : (setDk s d x).arrN = s.arrN := rfl
@[simp] theorem modDk_arrN (s : State) (d : Nat) (f : Deckle → Deckle) : (modDk s d f).arrN = s.arrN := rfl
@[simp] theorem setDk_resume (s : State) (d : Nat) (x : Deckle) : (setDk s d x).resume = s.resume := rfl
@[simp] theorem modDk_resume (s : State) (d : Nat) (f : Deckle → Deckle) : (modDk s d f).resume = s.resume := rfl
@[simp] theorem setDk_md (s : State) (d : Nat) (x : Deckle) : (setDk s d x).md = s.md := rfl
@[simp] theorem modDk_md (s : State) (d : Nat) (f : Deckle → Deckle) : (modDk s d f).md = s.md := rfl
@[simp] theorem setDk_nv (s : State) (d : Nat) (x : Deckle) : (setDk s d x).nv = s.nv := rfl
@[simp] theorem modDk_nv (s : State) (d : Nat) (f : Deckle → Deckle) : (modDk s d f).nv = s.nv := rfl
@[simp] theorem setDk_rf (s : State) (d : Nat) (x : Deckle) : (setDk s d x).rf = s.rf := rfl
@[simp] theorem modDk_rf (s : State) (d : Nat) (f : Deckle → Deckle) : (modDk s d f).rf = s.rf := rfl
@[simp] theorem setDk_ch (s : State) (d : Nat) (x : Deckle) : (setDk s d x).ch = s.ch := rfl
@[simp] theorem modDk_ch (s : State) (d : Nat) (f : Deckle → Deckle) : (modDk s d f).ch = s.ch := rfl
@[simp] theorem setDk_pc (s : State) (d : Nat) (x : Deckle) : (setDk s d x).pc = s.pc := rfl
@[simp] theorem modDk_pc (s : State) (d : Nat) (f : Deckle → Deckle) : (modDk s d f).pc = s.pc := rfl
@[simp] theorem setDk_ln (s : State) (d : Nat) (x : Deckle) : (setDk s d x).ln = s.ln := rfl
@[simp] theorem modDk_ln (s : State) (d : Nat) (f : Deckle → Deckle) : (modDk s d f).ln = s.ln := rfl
@[simp] theorem setDk_jobs (s : State) (d : Nat) (x : Deckle) : (setDk s d x).jobs = s.jobs := rfl
@[simp] theorem modDk_jobs (s : State) (d : Nat) (f : Deckle → Deckle) : (modDk s d f).jobs = s.jobs := rfl
@[simp] theorem setDk_ow (s : State) (d : Nat) (x : Deckle) : (setDk s d x).ow = s.ow := rfl
@[simp] theorem modDk_ow (s : State) (d : Nat) (f : Deckle → Deckle) : (modDk s d f).ow = s.ow := rfl
@[simp] theorem setDk_bk (s : State) (d : Nat) (x : Deckle) : (setDk s d x).bk = s.bk := rfl
@[simp] theorem modDk_bk (s : State) (d : Nat) (f : Deckle → Deckle) : (modDk s d f).bk = s.bk := rfl
@[simp] theorem setDk_vat (s : State) (d : Nat) (x : Deckle) : (setDk s d x).vat = s.vat := rfl
@[simp] theorem modDk_vat (s : State) (d : Nat) (f : Deckle → Deckle) : (modDk s d f).vat = s.vat := rfl
@[simp] theorem setDk_tpad (s : State) (d : Nat) (x : Deckle) : (setDk s d x).tpad = s.tpad := rfl
@[simp] theorem modDk_tpad (s : State) (d : Nat) (f : Deckle → Deckle) : (modDk s d f).tpad = s.tpad := rfl
@[simp] theorem setDk_cep (s : State) (d : Nat) (x : Deckle) : (setDk s d x).cep = s.cep := rfl
@[simp] theorem modDk_cep (s : State) (d : Nat) (f : Deckle → Deckle) : (modDk s d f).cep = s.cep := rfl
@[simp] theorem setDk_mpad (s : State) (d : Nat) (x : Deckle) : (setDk s d x).mpad = s.mpad := rfl
@[simp] theorem modDk_mpad (s : State) (d : Nat) (f : Deckle → Deckle) : (modDk s d f).mpad = s.mpad := rfl
@[simp] theorem setDk_ust (s : State) (d : Nat) (x : Deckle) : (setDk s d x).ust = s.ust := rfl
@[simp] theorem modDk_ust (s : State) (d : Nat) (f : Deckle → Deckle) : (modDk s d f).ust = s.ust := rfl
@[simp] theorem setDk_nst (s : State) (d : Nat) (x : Deckle) : (setDk s d x).nst = s.nst := rfl
@[simp] theorem modDk_nst (s : State) (d : Nat) (f : Deckle → Deckle) : (modDk s d f).nst = s.nst := rfl
@[simp] theorem setDk_upar (s : State) (d : Nat) (x : Deckle) : (setDk s d x).upar = s.upar := rfl
@[simp] theorem modDk_upar (s : State) (d : Nat) (f : Deckle → Deckle) : (modDk s d f).upar = s.upar := rfl
@[simp] theorem setDk_npar (s : State) (d : Nat) (x : Deckle) : (setDk s d x).npar = s.npar := rfl
@[simp] theorem modDk_npar (s : State) (d : Nat) (f : Deckle → Deckle) : (modDk s d f).npar = s.npar := rfl
@[simp] theorem setDk_pin (s : State) (d : Nat) (x : Deckle) : (setDk s d x).pin = s.pin := rfl
@[simp] theorem modDk_pin (s : State) (d : Nat) (f : Deckle → Deckle) : (modDk s d f).pin = s.pin := rfl
@[simp] theorem setDk_fe (s : State) (d : Nat) (x : Deckle) : (setDk s d x).fe = s.fe := rfl
@[simp] theorem modDk_fe (s : State) (d : Nat) (f : Deckle → Deckle) : (modDk s d f).fe = s.fe := rfl
@[simp] theorem setDk_dps (s : State) (d : Nat) (x : Deckle) : (setDk s d x).dps = s.dps := rfl
@[simp] theorem modDk_dps (s : State) (d : Nat) (f : Deckle → Deckle) : (modDk s d f).dps = s.dps := rfl
@[simp] theorem setDk_aux (s : State) (d : Nat) (x : Deckle) : (setDk s d x).aux = s.aux := rfl
@[simp] theorem modDk_aux (s : State) (d : Nat) (f : Deckle → Deckle) : (modDk s d f).aux = s.aux := rfl
@[simp] theorem setDk_adc (s : State) (d : Nat) (x : Deckle) : (setDk s d x).adc = s.adc := rfl
@[simp] theorem modDk_adc (s : State) (d : Nat) (f : Deckle → Deckle) : (modDk s d f).adc = s.adc := rfl
@[simp] theorem setDk_tmu (s : State) (d : Nat) (x : Deckle) : (setDk s d x).tmu = s.tmu := rfl
@[simp] theorem modDk_tmu (s : State) (d : Nat) (f : Deckle → Deckle) : (modDk s d f).tmu = s.tmu := rfl
@[simp] theorem setDk_ph (s : State) (d : Nat) (x : Deckle) : (setDk s d x).ph = s.ph := rfl
@[simp] theorem modDk_ph (s : State) (d : Nat) (f : Deckle → Deckle) : (modDk s d f).ph = s.ph := rfl

/-! ### Ln -/

@[simp] theorem getLn_setLn_same (s : State) (l : Nat) (x : LineSt) : getLn (setLn s l x) l = x := tget_tset_same _ _ _ _
@[simp] theorem getLn_modLn_same (s : State) (l : Nat) (f : LineSt → LineSt) : getLn (modLn s l f) l = f (getLn s l) := tget_tset_same _ _ _ _
theorem getLn_setLn_other (s : State) (i j : Nat) (x : LineSt) (h : j ≠ i) : getLn (setLn s i x) j = getLn s j := tget_tset_other _ _ _ _ _ h
theorem getLn_modLn_other (s : State) (i j : Nat) (f : LineSt → LineSt) (h : j ≠ i) : getLn (modLn s i f) j = getLn s j := tget_tset_other _ _ _ _ _ h
@[simp] theorem setLn_wall (s : State) (l : Nat) (x : LineSt) : (setLn s l x).wall = s.wall := rfl
@[simp] theorem modLn_wall (s : State) (l : Nat) (f : LineSt → LineSt) : (modLn s l f).wall = s.wall := rfl
@[simp] theorem setLn_pending (s : State) (l : Nat) (x : LineSt) : (setLn s l x).pending = s.pending := rfl
@[simp] theorem modLn_pending (s : State) (l : Nat) (f : LineSt → LineSt) : (modLn s l f).pending = s.pending := rfl
@[simp] theorem setLn_free (s : State) (l : Nat) (x : LineSt) : (setLn s l x).free = s.free := rfl
@[simp] theorem modLn_free (s : State) (l : Nat) (f : LineSt → LineSt) : (modLn s l f).free = s.free := rfl
@[simp] theorem setLn_arrN (s : State) (l : Nat) (x : LineSt) : (setLn s l x).arrN = s.arrN := rfl
@[simp] theorem modLn_arrN (s : State) (l : Nat) (f : LineSt → LineSt) : (modLn s l f).arrN = s.arrN := rfl
@[simp] theorem setLn_resume (s : State) (l : Nat) (x : LineSt) : (setLn s l x).resume = s.resume := rfl
@[simp] theorem modLn_resume (s : State) (l : Nat) (f : LineSt → LineSt) : (modLn s l f).resume = s.resume := rfl
@[simp] theorem setLn_md (s : State) (l : Nat) (x : LineSt) : (setLn s l x).md = s.md := rfl
@[simp] theorem modLn_md (s : State) (l : Nat) (f : LineSt → LineSt) : (modLn s l f).md = s.md := rfl
@[simp] theorem setLn_nv (s : State) (l : Nat) (x : LineSt) : (setLn s l x).nv = s.nv := rfl
@[simp] theorem modLn_nv (s : State) (l : Nat) (f : LineSt → LineSt) : (modLn s l f).nv = s.nv := rfl
@[simp] theorem setLn_rf (s : State) (l : Nat) (x : LineSt) : (setLn s l x).rf = s.rf := rfl
@[simp] theorem modLn_rf (s : State) (l : Nat) (f : LineSt → LineSt) : (modLn s l f).rf = s.rf := rfl
@[simp] theorem setLn_ch (s : State) (l : Nat) (x : LineSt) : (setLn s l x).ch = s.ch := rfl
@[simp] theorem modLn_ch (s : State) (l : Nat) (f : LineSt → LineSt) : (modLn s l f).ch = s.ch := rfl
@[simp] theorem setLn_pc (s : State) (l : Nat) (x : LineSt) : (setLn s l x).pc = s.pc := rfl
@[simp] theorem modLn_pc (s : State) (l : Nat) (f : LineSt → LineSt) : (modLn s l f).pc = s.pc := rfl
@[simp] theorem setLn_jobs (s : State) (l : Nat) (x : LineSt) : (setLn s l x).jobs = s.jobs := rfl
@[simp] theorem modLn_jobs (s : State) (l : Nat) (f : LineSt → LineSt) : (modLn s l f).jobs = s.jobs := rfl
@[simp] theorem setLn_ow (s : State) (l : Nat) (x : LineSt) : (setLn s l x).ow = s.ow := rfl
@[simp] theorem modLn_ow (s : State) (l : Nat) (f : LineSt → LineSt) : (modLn s l f).ow = s.ow := rfl
@[simp] theorem setLn_dk (s : State) (l : Nat) (x : LineSt) : (setLn s l x).dk = s.dk := rfl
@[simp] theorem modLn_dk (s : State) (l : Nat) (f : LineSt → LineSt) : (modLn s l f).dk = s.dk := rfl
@[simp] theorem setLn_bk (s : State) (l : Nat) (x : LineSt) : (setLn s l x).bk = s.bk := rfl
@[simp] theorem modLn_bk (s : State) (l : Nat) (f : LineSt → LineSt) : (modLn s l f).bk = s.bk := rfl
@[simp] theorem setLn_vat (s : State) (l : Nat) (x : LineSt) : (setLn s l x).vat = s.vat := rfl
@[simp] theorem modLn_vat (s : State) (l : Nat) (f : LineSt → LineSt) : (modLn s l f).vat = s.vat := rfl
@[simp] theorem setLn_tpad (s : State) (l : Nat) (x : LineSt) : (setLn s l x).tpad = s.tpad := rfl
@[simp] theorem modLn_tpad (s : State) (l : Nat) (f : LineSt → LineSt) : (modLn s l f).tpad = s.tpad := rfl
@[simp] theorem setLn_cep (s : State) (l : Nat) (x : LineSt) : (setLn s l x).cep = s.cep := rfl
@[simp] theorem modLn_cep (s : State) (l : Nat) (f : LineSt → LineSt) : (modLn s l f).cep = s.cep := rfl
@[simp] theorem setLn_mpad (s : State) (l : Nat) (x : LineSt) : (setLn s l x).mpad = s.mpad := rfl
@[simp] theorem modLn_mpad (s : State) (l : Nat) (f : LineSt → LineSt) : (modLn s l f).mpad = s.mpad := rfl
@[simp] theorem setLn_ust (s : State) (l : Nat) (x : LineSt) : (setLn s l x).ust = s.ust := rfl
@[simp] theorem modLn_ust (s : State) (l : Nat) (f : LineSt → LineSt) : (modLn s l f).ust = s.ust := rfl
@[simp] theorem setLn_nst (s : State) (l : Nat) (x : LineSt) : (setLn s l x).nst = s.nst := rfl
@[simp] theorem modLn_nst (s : State) (l : Nat) (f : LineSt → LineSt) : (modLn s l f).nst = s.nst := rfl
@[simp] theorem setLn_upar (s : State) (l : Nat) (x : LineSt) : (setLn s l x).upar = s.upar := rfl
@[simp] theorem modLn_upar (s : State) (l : Nat) (f : LineSt → LineSt) : (modLn s l f).upar = s.upar := rfl
@[simp] theorem setLn_npar (s : State) (l : Nat) (x : LineSt) : (setLn s l x).npar = s.npar := rfl
@[simp] theorem modLn_npar (s : State) (l : Nat) (f : LineSt → LineSt) : (modLn s l f).npar = s.npar := rfl
@[simp] theorem setLn_pin (s : State) (l : Nat) (x : LineSt) : (setLn s l x).pin = s.pin := rfl
@[simp] theorem modLn_pin (s : State) (l : Nat) (f : LineSt → LineSt) : (modLn s l f).pin = s.pin := rfl
@[simp] theorem setLn_fe (s : State) (l : Nat) (x : LineSt) : (setLn s l x).fe = s.fe := rfl
@[simp] theorem modLn_fe (s : State) (l : Nat) (f : LineSt → LineSt) : (modLn s l f).fe = s.fe := rfl
@[simp] theorem setLn_dps (s : State) (l : Nat) (x : LineSt) : (setLn s l x).dps = s.dps := rfl
@[simp] theorem modLn_dps (s : State) (l : Nat) (f : LineSt → LineSt) : (modLn s l f).dps = s.dps := rfl
@[simp] theorem setLn_aux (s : State) (l : Nat) (x : LineSt) : (setLn s l x).aux = s.aux := rfl
@[simp] theorem modLn_aux (s : State) (l : Nat) (f : LineSt → LineSt) : (modLn s l f).aux = s.aux := rfl
@[simp] theorem setLn_adc (s : State) (l : Nat) (x : LineSt) : (setLn s l x).adc = s.adc := rfl
@[simp] theorem modLn_adc (s : State) (l : Nat) (f : LineSt → LineSt) : (modLn s l f).adc = s.adc := rfl
@[simp] theorem setLn_tmu (s : State) (l : Nat) (x : LineSt) : (setLn s l x).tmu = s.tmu := rfl
@[simp] theorem modLn_tmu (s : State) (l : Nat) (f : LineSt → LineSt) : (modLn s l f).tmu = s.tmu := rfl
@[simp] theorem setLn_ph (s : State) (l : Nat) (x : LineSt) : (setLn s l x).ph = s.ph := rfl
@[simp] theorem modLn_ph (s : State) (l : Nat) (f : LineSt → LineSt) : (modLn s l f).ph = s.ph := rfl

/-! ### Bk -/

@[simp] theorem getBk_setBk_same (s : State) (b : Nat) (x : Bank) : getBk (setBk s b x) b = x := tget_tset_same _ _ _ _
@[simp] theorem getBk_modBk_same (s : State) (b : Nat) (f : Bank → Bank) : getBk (modBk s b f) b = f (getBk s b) := tget_tset_same _ _ _ _
theorem getBk_setBk_other (s : State) (i j : Nat) (x : Bank) (h : j ≠ i) : getBk (setBk s i x) j = getBk s j := tget_tset_other _ _ _ _ _ h
theorem getBk_modBk_other (s : State) (i j : Nat) (f : Bank → Bank) (h : j ≠ i) : getBk (modBk s i f) j = getBk s j := tget_tset_other _ _ _ _ _ h
@[simp] theorem setBk_wall (s : State) (b : Nat) (x : Bank) : (setBk s b x).wall = s.wall := rfl
@[simp] theorem modBk_wall (s : State) (b : Nat) (f : Bank → Bank) : (modBk s b f).wall = s.wall := rfl
@[simp] theorem setBk_pending (s : State) (b : Nat) (x : Bank) : (setBk s b x).pending = s.pending := rfl
@[simp] theorem modBk_pending (s : State) (b : Nat) (f : Bank → Bank) : (modBk s b f).pending = s.pending := rfl
@[simp] theorem setBk_free (s : State) (b : Nat) (x : Bank) : (setBk s b x).free = s.free := rfl
@[simp] theorem modBk_free (s : State) (b : Nat) (f : Bank → Bank) : (modBk s b f).free = s.free := rfl
@[simp] theorem setBk_arrN (s : State) (b : Nat) (x : Bank) : (setBk s b x).arrN = s.arrN := rfl
@[simp] theorem modBk_arrN (s : State) (b : Nat) (f : Bank → Bank) : (modBk s b f).arrN = s.arrN := rfl
@[simp] theorem setBk_resume (s : State) (b : Nat) (x : Bank) : (setBk s b x).resume = s.resume := rfl
@[simp] theorem modBk_resume (s : State) (b : Nat) (f : Bank → Bank) : (modBk s b f).resume = s.resume := rfl
@[simp] theorem setBk_md (s : State) (b : Nat) (x : Bank) : (setBk s b x).md = s.md := rfl
@[simp] theorem modBk_md (s : State) (b : Nat) (f : Bank → Bank) : (modBk s b f).md = s.md := rfl
@[simp] theorem setBk_nv (s : State) (b : Nat) (x : Bank) : (setBk s b x).nv = s.nv := rfl
@[simp] theorem modBk_nv (s : State) (b : Nat) (f : Bank → Bank) : (modBk s b f).nv = s.nv := rfl
@[simp] theorem setBk_rf (s : State) (b : Nat) (x : Bank) : (setBk s b x).rf = s.rf := rfl
@[simp] theorem modBk_rf (s : State) (b : Nat) (f : Bank → Bank) : (modBk s b f).rf = s.rf := rfl
@[simp] theorem setBk_ch (s : State) (b : Nat) (x : Bank) : (setBk s b x).ch = s.ch := rfl
@[simp] theorem modBk_ch (s : State) (b : Nat) (f : Bank → Bank) : (modBk s b f).ch = s.ch := rfl
@[simp] theorem setBk_pc (s : State) (b : Nat) (x : Bank) : (setBk s b x).pc = s.pc := rfl
@[simp] theorem modBk_pc (s : State) (b : Nat) (f : Bank → Bank) : (modBk s b f).pc = s.pc := rfl
@[simp] theorem setBk_ln (s : State) (b : Nat) (x : Bank) : (setBk s b x).ln = s.ln := rfl
@[simp] theorem modBk_ln (s : State) (b : Nat) (f : Bank → Bank) : (modBk s b f).ln = s.ln := rfl
@[simp] theorem setBk_jobs (s : State) (b : Nat) (x : Bank) : (setBk s b x).jobs = s.jobs := rfl
@[simp] theorem modBk_jobs (s : State) (b : Nat) (f : Bank → Bank) : (modBk s b f).jobs = s.jobs := rfl
@[simp] theorem setBk_ow (s : State) (b : Nat) (x : Bank) : (setBk s b x).ow = s.ow := rfl
@[simp] theorem modBk_ow (s : State) (b : Nat) (f : Bank → Bank) : (modBk s b f).ow = s.ow := rfl
@[simp] theorem setBk_dk (s : State) (b : Nat) (x : Bank) : (setBk s b x).dk = s.dk := rfl
@[simp] theorem modBk_dk (s : State) (b : Nat) (f : Bank → Bank) : (modBk s b f).dk = s.dk := rfl
@[simp] theorem setBk_vat (s : State) (b : Nat) (x : Bank) : (setBk s b x).vat = s.vat := rfl
@[simp] theorem modBk_vat (s : State) (b : Nat) (f : Bank → Bank) : (modBk s b f).vat = s.vat := rfl
@[simp] theorem setBk_tpad (s : State) (b : Nat) (x : Bank) : (setBk s b x).tpad = s.tpad := rfl
@[simp] theorem modBk_tpad (s : State) (b : Nat) (f : Bank → Bank) : (modBk s b f).tpad = s.tpad := rfl
@[simp] theorem setBk_cep (s : State) (b : Nat) (x : Bank) : (setBk s b x).cep = s.cep := rfl
@[simp] theorem modBk_cep (s : State) (b : Nat) (f : Bank → Bank) : (modBk s b f).cep = s.cep := rfl
@[simp] theorem setBk_mpad (s : State) (b : Nat) (x : Bank) : (setBk s b x).mpad = s.mpad := rfl
@[simp] theorem modBk_mpad (s : State) (b : Nat) (f : Bank → Bank) : (modBk s b f).mpad = s.mpad := rfl
@[simp] theorem setBk_ust (s : State) (b : Nat) (x : Bank) : (setBk s b x).ust = s.ust := rfl
@[simp] theorem modBk_ust (s : State) (b : Nat) (f : Bank → Bank) : (modBk s b f).ust = s.ust := rfl
@[simp] theorem setBk_nst (s : State) (b : Nat) (x : Bank) : (setBk s b x).nst = s.nst := rfl
@[simp] theorem modBk_nst (s : State) (b : Nat) (f : Bank → Bank) : (modBk s b f).nst = s.nst := rfl
@[simp] theorem setBk_upar (s : State) (b : Nat) (x : Bank) : (setBk s b x).upar = s.upar := rfl
@[simp] theorem modBk_upar (s : State) (b : Nat) (f : Bank → Bank) : (modBk s b f).upar = s.upar := rfl
@[simp] theorem setBk_npar (s : State) (b : Nat) (x : Bank) : (setBk s b x).npar = s.npar := rfl
@[simp] theorem modBk_npar (s : State) (b : Nat) (f : Bank → Bank) : (modBk s b f).npar = s.npar := rfl
@[simp] theorem setBk_pin (s : State) (b : Nat) (x : Bank) : (setBk s b x).pin = s.pin := rfl
@[simp] theorem modBk_pin (s : State) (b : Nat) (f : Bank → Bank) : (modBk s b f).pin = s.pin := rfl
@[simp] theorem setBk_fe (s : State) (b : Nat) (x : Bank) : (setBk s b x).fe = s.fe := rfl
@[simp] theorem modBk_fe (s : State) (b : Nat) (f : Bank → Bank) : (modBk s b f).fe = s.fe := rfl
@[simp] theorem setBk_dps (s : State) (b : Nat) (x : Bank) : (setBk s b x).dps = s.dps := rfl
@[simp] theorem modBk_dps (s : State) (b : Nat) (f : Bank → Bank) : (modBk s b f).dps = s.dps := rfl
@[simp] theorem setBk_aux (s : State) (b : Nat) (x : Bank) : (setBk s b x).aux = s.aux := rfl
@[simp] theorem modBk_aux (s : State) (b : Nat) (f : Bank → Bank) : (modBk s b f).aux = s.aux := rfl
@[simp] theorem setBk_adc (s : State) (b : Nat) (x : Bank) : (setBk s b x).adc = s.adc := rfl
@[simp] theorem modBk_adc (s : State) (b : Nat) (f : Bank → Bank) : (modBk s b f).adc = s.adc := rfl
@[simp] theorem setBk_tmu (s : State) (b : Nat) (x : Bank) : (setBk s b x).tmu = s.tmu := rfl
@[simp] theorem modBk_tmu (s : State) (b : Nat) (f : Bank → Bank) : (modBk s b f).tmu = s.tmu := rfl
@[simp] theorem setBk_ph (s : State) (b : Nat) (x : Bank) : (setBk s b x).ph = s.ph := rfl
@[simp] theorem modBk_ph (s : State) (b : Nat) (f : Bank → Bank) : (modBk s b f).ph = s.ph := rfl

/-! ### Pin -/

@[simp] theorem getPin_setPin_same (s : State) (c : Nat) (x : Pin) : getPin (setPin s c x) c = x := tget_tset_same _ _ _ _
@[simp] theorem getPin_modPin_same (s : State) (c : Nat) (f : Pin → Pin) : getPin (modPin s c f) c = f (getPin s c) := tget_tset_same _ _ _ _
theorem getPin_setPin_other (s : State) (i j : Nat) (x : Pin) (h : j ≠ i) : getPin (setPin s i x) j = getPin s j := tget_tset_other _ _ _ _ _ h
theorem getPin_modPin_other (s : State) (i j : Nat) (f : Pin → Pin) (h : j ≠ i) : getPin (modPin s i f) j = getPin s j := tget_tset_other _ _ _ _ _ h
@[simp] theorem setPin_wall (s : State) (c : Nat) (x : Pin) : (setPin s c x).wall = s.wall := rfl
@[simp] theorem modPin_wall (s : State) (c : Nat) (f : Pin → Pin) : (modPin s c f).wall = s.wall := rfl
@[simp] theorem setPin_pending (s : State) (c : Nat) (x : Pin) : (setPin s c x).pending = s.pending := rfl
@[simp] theorem modPin_pending (s : State) (c : Nat) (f : Pin → Pin) : (modPin s c f).pending = s.pending := rfl
@[simp] theorem setPin_free (s : State) (c : Nat) (x : Pin) : (setPin s c x).free = s.free := rfl
@[simp] theorem modPin_free (s : State) (c : Nat) (f : Pin → Pin) : (modPin s c f).free = s.free := rfl
@[simp] theorem setPin_arrN (s : State) (c : Nat) (x : Pin) : (setPin s c x).arrN = s.arrN := rfl
@[simp] theorem modPin_arrN (s : State) (c : Nat) (f : Pin → Pin) : (modPin s c f).arrN = s.arrN := rfl
@[simp] theorem setPin_resume (s : State) (c : Nat) (x : Pin) : (setPin s c x).resume = s.resume := rfl
@[simp] theorem modPin_resume (s : State) (c : Nat) (f : Pin → Pin) : (modPin s c f).resume = s.resume := rfl
@[simp] theorem setPin_md (s : State) (c : Nat) (x : Pin) : (setPin s c x).md = s.md := rfl
@[simp] theorem modPin_md (s : State) (c : Nat) (f : Pin → Pin) : (modPin s c f).md = s.md := rfl
@[simp] theorem setPin_nv (s : State) (c : Nat) (x : Pin) : (setPin s c x).nv = s.nv := rfl
@[simp] theorem modPin_nv (s : State) (c : Nat) (f : Pin → Pin) : (modPin s c f).nv = s.nv := rfl
@[simp] theorem setPin_rf (s : State) (c : Nat) (x : Pin) : (setPin s c x).rf = s.rf := rfl
@[simp] theorem modPin_rf (s : State) (c : Nat) (f : Pin → Pin) : (modPin s c f).rf = s.rf := rfl
@[simp] theorem setPin_ch (s : State) (c : Nat) (x : Pin) : (setPin s c x).ch = s.ch := rfl
@[simp] theorem modPin_ch (s : State) (c : Nat) (f : Pin → Pin) : (modPin s c f).ch = s.ch := rfl
@[simp] theorem setPin_pc (s : State) (c : Nat) (x : Pin) : (setPin s c x).pc = s.pc := rfl
@[simp] theorem modPin_pc (s : State) (c : Nat) (f : Pin → Pin) : (modPin s c f).pc = s.pc := rfl
@[simp] theorem setPin_ln (s : State) (c : Nat) (x : Pin) : (setPin s c x).ln = s.ln := rfl
@[simp] theorem modPin_ln (s : State) (c : Nat) (f : Pin → Pin) : (modPin s c f).ln = s.ln := rfl
@[simp] theorem setPin_jobs (s : State) (c : Nat) (x : Pin) : (setPin s c x).jobs = s.jobs := rfl
@[simp] theorem modPin_jobs (s : State) (c : Nat) (f : Pin → Pin) : (modPin s c f).jobs = s.jobs := rfl
@[simp] theorem setPin_ow (s : State) (c : Nat) (x : Pin) : (setPin s c x).ow = s.ow := rfl
@[simp] theorem modPin_ow (s : State) (c : Nat) (f : Pin → Pin) : (modPin s c f).ow = s.ow := rfl
@[simp] theorem setPin_dk (s : State) (c : Nat) (x : Pin) : (setPin s c x).dk = s.dk := rfl
@[simp] theorem modPin_dk (s : State) (c : Nat) (f : Pin → Pin) : (modPin s c f).dk = s.dk := rfl
@[simp] theorem setPin_bk (s : State) (c : Nat) (x : Pin) : (setPin s c x).bk = s.bk := rfl
@[simp] theorem modPin_bk (s : State) (c : Nat) (f : Pin → Pin) : (modPin s c f).bk = s.bk := rfl
@[simp] theorem setPin_vat (s : State) (c : Nat) (x : Pin) : (setPin s c x).vat = s.vat := rfl
@[simp] theorem modPin_vat (s : State) (c : Nat) (f : Pin → Pin) : (modPin s c f).vat = s.vat := rfl
@[simp] theorem setPin_tpad (s : State) (c : Nat) (x : Pin) : (setPin s c x).tpad = s.tpad := rfl
@[simp] theorem modPin_tpad (s : State) (c : Nat) (f : Pin → Pin) : (modPin s c f).tpad = s.tpad := rfl
@[simp] theorem setPin_cep (s : State) (c : Nat) (x : Pin) : (setPin s c x).cep = s.cep := rfl
@[simp] theorem modPin_cep (s : State) (c : Nat) (f : Pin → Pin) : (modPin s c f).cep = s.cep := rfl
@[simp] theorem setPin_mpad (s : State) (c : Nat) (x : Pin) : (setPin s c x).mpad = s.mpad := rfl
@[simp] theorem modPin_mpad (s : State) (c : Nat) (f : Pin → Pin) : (modPin s c f).mpad = s.mpad := rfl
@[simp] theorem setPin_ust (s : State) (c : Nat) (x : Pin) : (setPin s c x).ust = s.ust := rfl
@[simp] theorem modPin_ust (s : State) (c : Nat) (f : Pin → Pin) : (modPin s c f).ust = s.ust := rfl
@[simp] theorem setPin_nst (s : State) (c : Nat) (x : Pin) : (setPin s c x).nst = s.nst := rfl
@[simp] theorem modPin_nst (s : State) (c : Nat) (f : Pin → Pin) : (modPin s c f).nst = s.nst := rfl
@[simp] theorem setPin_upar (s : State) (c : Nat) (x : Pin) : (setPin s c x).upar = s.upar := rfl
@[simp] theorem modPin_upar (s : State) (c : Nat) (f : Pin → Pin) : (modPin s c f).upar = s.upar := rfl
@[simp] theorem setPin_npar (s : State) (c : Nat) (x : Pin) : (setPin s c x).npar = s.npar := rfl
@[simp] theorem modPin_npar (s : State) (c : Nat) (f : Pin → Pin) : (modPin s c f).npar = s.npar := rfl
@[simp] theorem setPin_fe (s : State) (c : Nat) (x : Pin) : (setPin s c x).fe = s.fe := rfl
@[simp] theorem modPin_fe (s : State) (c : Nat) (f : Pin → Pin) : (modPin s c f).fe = s.fe := rfl
@[simp] theorem setPin_dps (s : State) (c : Nat) (x : Pin) : (setPin s c x).dps = s.dps := rfl
@[simp] theorem modPin_dps (s : State) (c : Nat) (f : Pin → Pin) : (modPin s c f).dps = s.dps := rfl
@[simp] theorem setPin_aux (s : State) (c : Nat) (x : Pin) : (setPin s c x).aux = s.aux := rfl
@[simp] theorem modPin_aux (s : State) (c : Nat) (f : Pin → Pin) : (modPin s c f).aux = s.aux := rfl
@[simp] theorem setPin_adc (s : State) (c : Nat) (x : Pin) : (setPin s c x).adc = s.adc := rfl
@[simp] theorem modPin_adc (s : State) (c : Nat) (f : Pin → Pin) : (modPin s c f).adc = s.adc := rfl
@[simp] theorem setPin_tmu (s : State) (c : Nat) (x : Pin) : (setPin s c x).tmu = s.tmu := rfl
@[simp] theorem modPin_tmu (s : State) (c : Nat) (f : Pin → Pin) : (modPin s c f).tmu = s.tmu := rfl
@[simp] theorem setPin_ph (s : State) (c : Nat) (x : Pin) : (setPin s c x).ph = s.ph := rfl
@[simp] theorem modPin_ph (s : State) (c : Nat) (f : Pin → Pin) : (modPin s c f).ph = s.ph := rfl

/-! ### Dps -/

@[simp] theorem getDps_setDps_same (s : State) (n : Nat) (x : Dps) : getDps (setDps s n x) n = x := tget_tset_same _ _ _ _
@[simp] theorem getDps_modDps_same (s : State) (n : Nat) (f : Dps → Dps) : getDps (modDps s n f) n = f (getDps s n) := tget_tset_same _ _ _ _
theorem getDps_setDps_other (s : State) (i j : Nat) (x : Dps) (h : j ≠ i) : getDps (setDps s i x) j = getDps s j := tget_tset_other _ _ _ _ _ h
theorem getDps_modDps_other (s : State) (i j : Nat) (f : Dps → Dps) (h : j ≠ i) : getDps (modDps s i f) j = getDps s j := tget_tset_other _ _ _ _ _ h
@[simp] theorem setDps_wall (s : State) (n : Nat) (x : Dps) : (setDps s n x).wall = s.wall := rfl
@[simp] theorem modDps_wall (s : State) (n : Nat) (f : Dps → Dps) : (modDps s n f).wall = s.wall := rfl
@[simp] theorem setDps_pending (s : State) (n : Nat) (x : Dps) : (setDps s n x).pending = s.pending := rfl
@[simp] theorem modDps_pending (s : State) (n : Nat) (f : Dps → Dps) : (modDps s n f).pending = s.pending := rfl
@[simp] theorem setDps_free (s : State) (n : Nat) (x : Dps) : (setDps s n x).free = s.free := rfl
@[simp] theorem modDps_free (s : State) (n : Nat) (f : Dps → Dps) : (modDps s n f).free = s.free := rfl
@[simp] theorem setDps_arrN (s : State) (n : Nat) (x : Dps) : (setDps s n x).arrN = s.arrN := rfl
@[simp] theorem modDps_arrN (s : State) (n : Nat) (f : Dps → Dps) : (modDps s n f).arrN = s.arrN := rfl
@[simp] theorem setDps_resume (s : State) (n : Nat) (x : Dps) : (setDps s n x).resume = s.resume := rfl
@[simp] theorem modDps_resume (s : State) (n : Nat) (f : Dps → Dps) : (modDps s n f).resume = s.resume := rfl
@[simp] theorem setDps_md (s : State) (n : Nat) (x : Dps) : (setDps s n x).md = s.md := rfl
@[simp] theorem modDps_md (s : State) (n : Nat) (f : Dps → Dps) : (modDps s n f).md = s.md := rfl
@[simp] theorem setDps_nv (s : State) (n : Nat) (x : Dps) : (setDps s n x).nv = s.nv := rfl
@[simp] theorem modDps_nv (s : State) (n : Nat) (f : Dps → Dps) : (modDps s n f).nv = s.nv := rfl
@[simp] theorem setDps_rf (s : State) (n : Nat) (x : Dps) : (setDps s n x).rf = s.rf := rfl
@[simp] theorem modDps_rf (s : State) (n : Nat) (f : Dps → Dps) : (modDps s n f).rf = s.rf := rfl
@[simp] theorem setDps_ch (s : State) (n : Nat) (x : Dps) : (setDps s n x).ch = s.ch := rfl
@[simp] theorem modDps_ch (s : State) (n : Nat) (f : Dps → Dps) : (modDps s n f).ch = s.ch := rfl
@[simp] theorem setDps_pc (s : State) (n : Nat) (x : Dps) : (setDps s n x).pc = s.pc := rfl
@[simp] theorem modDps_pc (s : State) (n : Nat) (f : Dps → Dps) : (modDps s n f).pc = s.pc := rfl
@[simp] theorem setDps_ln (s : State) (n : Nat) (x : Dps) : (setDps s n x).ln = s.ln := rfl
@[simp] theorem modDps_ln (s : State) (n : Nat) (f : Dps → Dps) : (modDps s n f).ln = s.ln := rfl
@[simp] theorem setDps_jobs (s : State) (n : Nat) (x : Dps) : (setDps s n x).jobs = s.jobs := rfl
@[simp] theorem modDps_jobs (s : State) (n : Nat) (f : Dps → Dps) : (modDps s n f).jobs = s.jobs := rfl
@[simp] theorem setDps_ow (s : State) (n : Nat) (x : Dps) : (setDps s n x).ow = s.ow := rfl
@[simp] theorem modDps_ow (s : State) (n : Nat) (f : Dps → Dps) : (modDps s n f).ow = s.ow := rfl
@[simp] theorem setDps_dk (s : State) (n : Nat) (x : Dps) : (setDps s n x).dk = s.dk := rfl
@[simp] theorem modDps_dk (s : State) (n : Nat) (f : Dps → Dps) : (modDps s n f).dk = s.dk := rfl
@[simp] theorem setDps_bk (s : State) (n : Nat) (x : Dps) : (setDps s n x).bk = s.bk := rfl
@[simp] theorem modDps_bk (s : State) (n : Nat) (f : Dps → Dps) : (modDps s n f).bk = s.bk := rfl
@[simp] theorem setDps_vat (s : State) (n : Nat) (x : Dps) : (setDps s n x).vat = s.vat := rfl
@[simp] theorem modDps_vat (s : State) (n : Nat) (f : Dps → Dps) : (modDps s n f).vat = s.vat := rfl
@[simp] theorem setDps_tpad (s : State) (n : Nat) (x : Dps) : (setDps s n x).tpad = s.tpad := rfl
@[simp] theorem modDps_tpad (s : State) (n : Nat) (f : Dps → Dps) : (modDps s n f).tpad = s.tpad := rfl
@[simp] theorem setDps_cep (s : State) (n : Nat) (x : Dps) : (setDps s n x).cep = s.cep := rfl
@[simp] theorem modDps_cep (s : State) (n : Nat) (f : Dps → Dps) : (modDps s n f).cep = s.cep := rfl
@[simp] theorem setDps_mpad (s : State) (n : Nat) (x : Dps) : (setDps s n x).mpad = s.mpad := rfl
@[simp] theorem modDps_mpad (s : State) (n : Nat) (f : Dps → Dps) : (modDps s n f).mpad = s.mpad := rfl
@[simp] theorem setDps_ust (s : State) (n : Nat) (x : Dps) : (setDps s n x).ust = s.ust := rfl
@[simp] theorem modDps_ust (s : State) (n : Nat) (f : Dps → Dps) : (modDps s n f).ust = s.ust := rfl
@[simp] theorem setDps_nst (s : State) (n : Nat) (x : Dps) : (setDps s n x).nst = s.nst := rfl
@[simp] theorem modDps_nst (s : State) (n : Nat) (f : Dps → Dps) : (modDps s n f).nst = s.nst := rfl
@[simp] theorem setDps_upar (s : State) (n : Nat) (x : Dps) : (setDps s n x).upar = s.upar := rfl
@[simp] theorem modDps_upar (s : State) (n : Nat) (f : Dps → Dps) : (modDps s n f).upar = s.upar := rfl
@[simp] theorem setDps_npar (s : State) (n : Nat) (x : Dps) : (setDps s n x).npar = s.npar := rfl
@[simp] theorem modDps_npar (s : State) (n : Nat) (f : Dps → Dps) : (modDps s n f).npar = s.npar := rfl
@[simp] theorem setDps_pin (s : State) (n : Nat) (x : Dps) : (setDps s n x).pin = s.pin := rfl
@[simp] theorem modDps_pin (s : State) (n : Nat) (f : Dps → Dps) : (modDps s n f).pin = s.pin := rfl
@[simp] theorem setDps_fe (s : State) (n : Nat) (x : Dps) : (setDps s n x).fe = s.fe := rfl
@[simp] theorem modDps_fe (s : State) (n : Nat) (f : Dps → Dps) : (modDps s n f).fe = s.fe := rfl
@[simp] theorem setDps_aux (s : State) (n : Nat) (x : Dps) : (setDps s n x).aux = s.aux := rfl
@[simp] theorem modDps_aux (s : State) (n : Nat) (f : Dps → Dps) : (modDps s n f).aux = s.aux := rfl
@[simp] theorem setDps_adc (s : State) (n : Nat) (x : Dps) : (setDps s n x).adc = s.adc := rfl
@[simp] theorem modDps_adc (s : State) (n : Nat) (f : Dps → Dps) : (modDps s n f).adc = s.adc := rfl
@[simp] theorem setDps_tmu (s : State) (n : Nat) (x : Dps) : (setDps s n x).tmu = s.tmu := rfl
@[simp] theorem modDps_tmu (s : State) (n : Nat) (f : Dps → Dps) : (modDps s n f).tmu = s.tmu := rfl
@[simp] theorem setDps_ph (s : State) (n : Nat) (x : Dps) : (setDps s n x).ph = s.ph := rfl
@[simp] theorem modDps_ph (s : State) (n : Nat) (f : Dps → Dps) : (modDps s n f).ph = s.ph := rfl

/-! ### Aux -/

@[simp] theorem getAux_setAux_same (s : State) (n : Nat) (x : Aux) : getAux (setAux s n x) n = x := tget_tset_same _ _ _ _
@[simp] theorem getAux_modAux_same (s : State) (n : Nat) (f : Aux → Aux) : getAux (modAux s n f) n = f (getAux s n) := tget_tset_same _ _ _ _
theorem getAux_setAux_other (s : State) (i j : Nat) (x : Aux) (h : j ≠ i) : getAux (setAux s i x) j = getAux s j := tget_tset_other _ _ _ _ _ h
theorem getAux_modAux_other (s : State) (i j : Nat) (f : Aux → Aux) (h : j ≠ i) : getAux (modAux s i f) j = getAux s j := tget_tset_other _ _ _ _ _ h
@[simp] theorem setAux_wall (s : State) (n : Nat) (x : Aux) : (setAux s n x).wall = s.wall := rfl
@[simp] theorem modAux_wall (s : State) (n : Nat) (f : Aux → Aux) : (modAux s n f).wall = s.wall := rfl
@[simp] theorem setAux_pending (s : State) (n : Nat) (x : Aux) : (setAux s n x).pending = s.pending := rfl
@[simp] theorem modAux_pending (s : State) (n : Nat) (f : Aux → Aux) : (modAux s n f).pending = s.pending := rfl
@[simp] theorem setAux_free (s : State) (n : Nat) (x : Aux) : (setAux s n x).free = s.free := rfl
@[simp] theorem modAux_free (s : State) (n : Nat) (f : Aux → Aux) : (modAux s n f).free = s.free := rfl
@[simp] theorem setAux_arrN (s : State) (n : Nat) (x : Aux) : (setAux s n x).arrN = s.arrN := rfl
@[simp] theorem modAux_arrN (s : State) (n : Nat) (f : Aux → Aux) : (modAux s n f).arrN = s.arrN := rfl
@[simp] theorem setAux_resume (s : State) (n : Nat) (x : Aux) : (setAux s n x).resume = s.resume := rfl
@[simp] theorem modAux_resume (s : State) (n : Nat) (f : Aux → Aux) : (modAux s n f).resume = s.resume := rfl
@[simp] theorem setAux_md (s : State) (n : Nat) (x : Aux) : (setAux s n x).md = s.md := rfl
@[simp] theorem modAux_md (s : State) (n : Nat) (f : Aux → Aux) : (modAux s n f).md = s.md := rfl
@[simp] theorem setAux_nv (s : State) (n : Nat) (x : Aux) : (setAux s n x).nv = s.nv := rfl
@[simp] theorem modAux_nv (s : State) (n : Nat) (f : Aux → Aux) : (modAux s n f).nv = s.nv := rfl
@[simp] theorem setAux_rf (s : State) (n : Nat) (x : Aux) : (setAux s n x).rf = s.rf := rfl
@[simp] theorem modAux_rf (s : State) (n : Nat) (f : Aux → Aux) : (modAux s n f).rf = s.rf := rfl
@[simp] theorem setAux_ch (s : State) (n : Nat) (x : Aux) : (setAux s n x).ch = s.ch := rfl
@[simp] theorem modAux_ch (s : State) (n : Nat) (f : Aux → Aux) : (modAux s n f).ch = s.ch := rfl
@[simp] theorem setAux_pc (s : State) (n : Nat) (x : Aux) : (setAux s n x).pc = s.pc := rfl
@[simp] theorem modAux_pc (s : State) (n : Nat) (f : Aux → Aux) : (modAux s n f).pc = s.pc := rfl
@[simp] theorem setAux_ln (s : State) (n : Nat) (x : Aux) : (setAux s n x).ln = s.ln := rfl
@[simp] theorem modAux_ln (s : State) (n : Nat) (f : Aux → Aux) : (modAux s n f).ln = s.ln := rfl
@[simp] theorem setAux_jobs (s : State) (n : Nat) (x : Aux) : (setAux s n x).jobs = s.jobs := rfl
@[simp] theorem modAux_jobs (s : State) (n : Nat) (f : Aux → Aux) : (modAux s n f).jobs = s.jobs := rfl
@[simp] theorem setAux_ow (s : State) (n : Nat) (x : Aux) : (setAux s n x).ow = s.ow := rfl
@[simp] theorem modAux_ow (s : State) (n : Nat) (f : Aux → Aux) : (modAux s n f).ow = s.ow := rfl
@[simp] theorem setAux_dk (s : State) (n : Nat) (x : Aux) : (setAux s n x).dk = s.dk := rfl
@[simp] theorem modAux_dk (s : State) (n : Nat) (f : Aux → Aux) : (modAux s n f).dk = s.dk := rfl
@[simp] theorem setAux_bk (s : State) (n : Nat) (x : Aux) : (setAux s n x).bk = s.bk := rfl
@[simp] theorem modAux_bk (s : State) (n : Nat) (f : Aux → Aux) : (modAux s n f).bk = s.bk := rfl
@[simp] theorem setAux_vat (s : State) (n : Nat) (x : Aux) : (setAux s n x).vat = s.vat := rfl
@[simp] theorem modAux_vat (s : State) (n : Nat) (f : Aux → Aux) : (modAux s n f).vat = s.vat := rfl
@[simp] theorem setAux_tpad (s : State) (n : Nat) (x : Aux) : (setAux s n x).tpad = s.tpad := rfl
@[simp] theorem modAux_tpad (s : State) (n : Nat) (f : Aux → Aux) : (modAux s n f).tpad = s.tpad := rfl
@[simp] theorem setAux_cep (s : State) (n : Nat) (x : Aux) : (setAux s n x).cep = s.cep := rfl
@[simp] theorem modAux_cep (s : State) (n : Nat) (f : Aux → Aux) : (modAux s n f).cep = s.cep := rfl
@[simp] theorem setAux_mpad (s : State) (n : Nat) (x : Aux) : (setAux s n x).mpad = s.mpad := rfl
@[simp] theorem modAux_mpad (s : State) (n : Nat) (f : Aux → Aux) : (modAux s n f).mpad = s.mpad := rfl
@[simp] theorem setAux_ust (s : State) (n : Nat) (x : Aux) : (setAux s n x).ust = s.ust := rfl
@[simp] theorem modAux_ust (s : State) (n : Nat) (f : Aux → Aux) : (modAux s n f).ust = s.ust := rfl
@[simp] theorem setAux_nst (s : State) (n : Nat) (x : Aux) : (setAux s n x).nst = s.nst := rfl
@[simp] theorem modAux_nst (s : State) (n : Nat) (f : Aux → Aux) : (modAux s n f).nst = s.nst := rfl
@[simp] theorem setAux_upar (s : State) (n : Nat) (x : Aux) : (setAux s n x).upar = s.upar := rfl
@[simp] theorem modAux_upar (s : State) (n : Nat) (f : Aux → Aux) : (modAux s n f).upar = s.upar := rfl
@[simp] theorem setAux_npar (s : State) (n : Nat) (x : Aux) : (setAux s n x).npar = s.npar := rfl
@[simp] theorem modAux_npar (s : State) (n : Nat) (f : Aux → Aux) : (modAux s n f).npar = s.npar := rfl
@[simp] theorem setAux_pin (s : State) (n : Nat) (x : Aux) : (setAux s n x).pin = s.pin := rfl
@[simp] theorem modAux_pin (s : State) (n : Nat) (f : Aux → Aux) : (modAux s n f).pin = s.pin := rfl
@[simp] theorem setAux_fe (s : State) (n : Nat) (x : Aux) : (setAux s n x).fe = s.fe := rfl
@[simp] theorem modAux_fe (s : State) (n : Nat) (f : Aux → Aux) : (modAux s n f).fe = s.fe := rfl
@[simp] theorem setAux_dps (s : State) (n : Nat) (x : Aux) : (setAux s n x).dps = s.dps := rfl
@[simp] theorem modAux_dps (s : State) (n : Nat) (f : Aux → Aux) : (modAux s n f).dps = s.dps := rfl
@[simp] theorem setAux_adc (s : State) (n : Nat) (x : Aux) : (setAux s n x).adc = s.adc := rfl
@[simp] theorem modAux_adc (s : State) (n : Nat) (f : Aux → Aux) : (modAux s n f).adc = s.adc := rfl
@[simp] theorem setAux_tmu (s : State) (n : Nat) (x : Aux) : (setAux s n x).tmu = s.tmu := rfl
@[simp] theorem modAux_tmu (s : State) (n : Nat) (f : Aux → Aux) : (modAux s n f).tmu = s.tmu := rfl
@[simp] theorem setAux_ph (s : State) (n : Nat) (x : Aux) : (setAux s n x).ph = s.ph := rfl
@[simp] theorem modAux_ph (s : State) (n : Nat) (f : Aux → Aux) : (modAux s n f).ph = s.ph := rfl

/-! ### Adc -/

@[simp] theorem getAdc_setAdc_same (s : State) (n : Nat) (x : Adc) : getAdc (setAdc s n x) n = x := tget_tset_same _ _ _ _
@[simp] theorem getAdc_modAdc_same (s : State) (n : Nat) (f : Adc → Adc) : getAdc (modAdc s n f) n = f (getAdc s n) := tget_tset_same _ _ _ _
theorem getAdc_setAdc_other (s : State) (i j : Nat) (x : Adc) (h : j ≠ i) : getAdc (setAdc s i x) j = getAdc s j := tget_tset_other _ _ _ _ _ h
theorem getAdc_modAdc_other (s : State) (i j : Nat) (f : Adc → Adc) (h : j ≠ i) : getAdc (modAdc s i f) j = getAdc s j := tget_tset_other _ _ _ _ _ h
@[simp] theorem setAdc_wall (s : State) (n : Nat) (x : Adc) : (setAdc s n x).wall = s.wall := rfl
@[simp] theorem modAdc_wall (s : State) (n : Nat) (f : Adc → Adc) : (modAdc s n f).wall = s.wall := rfl
@[simp] theorem setAdc_pending (s : State) (n : Nat) (x : Adc) : (setAdc s n x).pending = s.pending := rfl
@[simp] theorem modAdc_pending (s : State) (n : Nat) (f : Adc → Adc) : (modAdc s n f).pending = s.pending := rfl
@[simp] theorem setAdc_free (s : State) (n : Nat) (x : Adc) : (setAdc s n x).free = s.free := rfl
@[simp] theorem modAdc_free (s : State) (n : Nat) (f : Adc → Adc) : (modAdc s n f).free = s.free := rfl
@[simp] theorem setAdc_arrN (s : State) (n : Nat) (x : Adc) : (setAdc s n x).arrN = s.arrN := rfl
@[simp] theorem modAdc_arrN (s : State) (n : Nat) (f : Adc → Adc) : (modAdc s n f).arrN = s.arrN := rfl
@[simp] theorem setAdc_resume (s : State) (n : Nat) (x : Adc) : (setAdc s n x).resume = s.resume := rfl
@[simp] theorem modAdc_resume (s : State) (n : Nat) (f : Adc → Adc) : (modAdc s n f).resume = s.resume := rfl
@[simp] theorem setAdc_md (s : State) (n : Nat) (x : Adc) : (setAdc s n x).md = s.md := rfl
@[simp] theorem modAdc_md (s : State) (n : Nat) (f : Adc → Adc) : (modAdc s n f).md = s.md := rfl
@[simp] theorem setAdc_nv (s : State) (n : Nat) (x : Adc) : (setAdc s n x).nv = s.nv := rfl
@[simp] theorem modAdc_nv (s : State) (n : Nat) (f : Adc → Adc) : (modAdc s n f).nv = s.nv := rfl
@[simp] theorem setAdc_rf (s : State) (n : Nat) (x : Adc) : (setAdc s n x).rf = s.rf := rfl
@[simp] theorem modAdc_rf (s : State) (n : Nat) (f : Adc → Adc) : (modAdc s n f).rf = s.rf := rfl
@[simp] theorem setAdc_ch (s : State) (n : Nat) (x : Adc) : (setAdc s n x).ch = s.ch := rfl
@[simp] theorem modAdc_ch (s : State) (n : Nat) (f : Adc → Adc) : (modAdc s n f).ch = s.ch := rfl
@[simp] theorem setAdc_pc (s : State) (n : Nat) (x : Adc) : (setAdc s n x).pc = s.pc := rfl
@[simp] theorem modAdc_pc (s : State) (n : Nat) (f : Adc → Adc) : (modAdc s n f).pc = s.pc := rfl
@[simp] theorem setAdc_ln (s : State) (n : Nat) (x : Adc) : (setAdc s n x).ln = s.ln := rfl
@[simp] theorem modAdc_ln (s : State) (n : Nat) (f : Adc → Adc) : (modAdc s n f).ln = s.ln := rfl
@[simp] theorem setAdc_jobs (s : State) (n : Nat) (x : Adc) : (setAdc s n x).jobs = s.jobs := rfl
@[simp] theorem modAdc_jobs (s : State) (n : Nat) (f : Adc → Adc) : (modAdc s n f).jobs = s.jobs := rfl
@[simp] theorem setAdc_ow (s : State) (n : Nat) (x : Adc) : (setAdc s n x).ow = s.ow := rfl
@[simp] theorem modAdc_ow (s : State) (n : Nat) (f : Adc → Adc) : (modAdc s n f).ow = s.ow := rfl
@[simp] theorem setAdc_dk (s : State) (n : Nat) (x : Adc) : (setAdc s n x).dk = s.dk := rfl
@[simp] theorem modAdc_dk (s : State) (n : Nat) (f : Adc → Adc) : (modAdc s n f).dk = s.dk := rfl
@[simp] theorem setAdc_bk (s : State) (n : Nat) (x : Adc) : (setAdc s n x).bk = s.bk := rfl
@[simp] theorem modAdc_bk (s : State) (n : Nat) (f : Adc → Adc) : (modAdc s n f).bk = s.bk := rfl
@[simp] theorem setAdc_vat (s : State) (n : Nat) (x : Adc) : (setAdc s n x).vat = s.vat := rfl
@[simp] theorem modAdc_vat (s : State) (n : Nat) (f : Adc → Adc) : (modAdc s n f).vat = s.vat := rfl
@[simp] theorem setAdc_tpad (s : State) (n : Nat) (x : Adc) : (setAdc s n x).tpad = s.tpad := rfl
@[simp] theorem modAdc_tpad (s : State) (n : Nat) (f : Adc → Adc) : (modAdc s n f).tpad = s.tpad := rfl
@[simp] theorem setAdc_cep (s : State) (n : Nat) (x : Adc) : (setAdc s n x).cep = s.cep := rfl
@[simp] theorem modAdc_cep (s : State) (n : Nat) (f : Adc → Adc) : (modAdc s n f).cep = s.cep := rfl
@[simp] theorem setAdc_mpad (s : State) (n : Nat) (x : Adc) : (setAdc s n x).mpad = s.mpad := rfl
@[simp] theorem modAdc_mpad (s : State) (n : Nat) (f : Adc → Adc) : (modAdc s n f).mpad = s.mpad := rfl
@[simp] theorem setAdc_ust (s : State) (n : Nat) (x : Adc) : (setAdc s n x).ust = s.ust := rfl
@[simp] theorem modAdc_ust (s : State) (n : Nat) (f : Adc → Adc) : (modAdc s n f).ust = s.ust := rfl
@[simp] theorem setAdc_nst (s : State) (n : Nat) (x : Adc) : (setAdc s n x).nst = s.nst := rfl
@[simp] theorem modAdc_nst (s : State) (n : Nat) (f : Adc → Adc) : (modAdc s n f).nst = s.nst := rfl
@[simp] theorem setAdc_upar (s : State) (n : Nat) (x : Adc) : (setAdc s n x).upar = s.upar := rfl
@[simp] theorem modAdc_upar (s : State) (n : Nat) (f : Adc → Adc) : (modAdc s n f).upar = s.upar := rfl
@[simp] theorem setAdc_npar (s : State) (n : Nat) (x : Adc) : (setAdc s n x).npar = s.npar := rfl
@[simp] theorem modAdc_npar (s : State) (n : Nat) (f : Adc → Adc) : (modAdc s n f).npar = s.npar := rfl
@[simp] theorem setAdc_pin (s : State) (n : Nat) (x : Adc) : (setAdc s n x).pin = s.pin := rfl
@[simp] theorem modAdc_pin (s : State) (n : Nat) (f : Adc → Adc) : (modAdc s n f).pin = s.pin := rfl
@[simp] theorem setAdc_fe (s : State) (n : Nat) (x : Adc) : (setAdc s n x).fe = s.fe := rfl
@[simp] theorem modAdc_fe (s : State) (n : Nat) (f : Adc → Adc) : (modAdc s n f).fe = s.fe := rfl
@[simp] theorem setAdc_dps (s : State) (n : Nat) (x : Adc) : (setAdc s n x).dps = s.dps := rfl
@[simp] theorem modAdc_dps (s : State) (n : Nat) (f : Adc → Adc) : (modAdc s n f).dps = s.dps := rfl
@[simp] theorem setAdc_aux (s : State) (n : Nat) (x : Adc) : (setAdc s n x).aux = s.aux := rfl
@[simp] theorem modAdc_aux (s : State) (n : Nat) (f : Adc → Adc) : (modAdc s n f).aux = s.aux := rfl
@[simp] theorem setAdc_tmu (s : State) (n : Nat) (x : Adc) : (setAdc s n x).tmu = s.tmu := rfl
@[simp] theorem modAdc_tmu (s : State) (n : Nat) (f : Adc → Adc) : (modAdc s n f).tmu = s.tmu := rfl
@[simp] theorem setAdc_ph (s : State) (n : Nat) (x : Adc) : (setAdc s n x).ph = s.ph := rfl
@[simp] theorem modAdc_ph (s : State) (n : Nat) (f : Adc → Adc) : (modAdc s n f).ph = s.ph := rfl

/-! ### Tmu -/

@[simp] theorem getTmu_setTmu_same (s : State) (n : Nat) (x : Tmu) : getTmu (setTmu s n x) n = x := tget_tset_same _ _ _ _
@[simp] theorem getTmu_modTmu_same (s : State) (n : Nat) (f : Tmu → Tmu) : getTmu (modTmu s n f) n = f (getTmu s n) := tget_tset_same _ _ _ _
theorem getTmu_setTmu_other (s : State) (i j : Nat) (x : Tmu) (h : j ≠ i) : getTmu (setTmu s i x) j = getTmu s j := tget_tset_other _ _ _ _ _ h
theorem getTmu_modTmu_other (s : State) (i j : Nat) (f : Tmu → Tmu) (h : j ≠ i) : getTmu (modTmu s i f) j = getTmu s j := tget_tset_other _ _ _ _ _ h
@[simp] theorem setTmu_wall (s : State) (n : Nat) (x : Tmu) : (setTmu s n x).wall = s.wall := rfl
@[simp] theorem modTmu_wall (s : State) (n : Nat) (f : Tmu → Tmu) : (modTmu s n f).wall = s.wall := rfl
@[simp] theorem setTmu_pending (s : State) (n : Nat) (x : Tmu) : (setTmu s n x).pending = s.pending := rfl
@[simp] theorem modTmu_pending (s : State) (n : Nat) (f : Tmu → Tmu) : (modTmu s n f).pending = s.pending := rfl
@[simp] theorem setTmu_free (s : State) (n : Nat) (x : Tmu) : (setTmu s n x).free = s.free := rfl
@[simp] theorem modTmu_free (s : State) (n : Nat) (f : Tmu → Tmu) : (modTmu s n f).free = s.free := rfl
@[simp] theorem setTmu_arrN (s : State) (n : Nat) (x : Tmu) : (setTmu s n x).arrN = s.arrN := rfl
@[simp] theorem modTmu_arrN (s : State) (n : Nat) (f : Tmu → Tmu) : (modTmu s n f).arrN = s.arrN := rfl
@[simp] theorem setTmu_resume (s : State) (n : Nat) (x : Tmu) : (setTmu s n x).resume = s.resume := rfl
@[simp] theorem modTmu_resume (s : State) (n : Nat) (f : Tmu → Tmu) : (modTmu s n f).resume = s.resume := rfl
@[simp] theorem setTmu_md (s : State) (n : Nat) (x : Tmu) : (setTmu s n x).md = s.md := rfl
@[simp] theorem modTmu_md (s : State) (n : Nat) (f : Tmu → Tmu) : (modTmu s n f).md = s.md := rfl
@[simp] theorem setTmu_nv (s : State) (n : Nat) (x : Tmu) : (setTmu s n x).nv = s.nv := rfl
@[simp] theorem modTmu_nv (s : State) (n : Nat) (f : Tmu → Tmu) : (modTmu s n f).nv = s.nv := rfl
@[simp] theorem setTmu_rf (s : State) (n : Nat) (x : Tmu) : (setTmu s n x).rf = s.rf := rfl
@[simp] theorem modTmu_rf (s : State) (n : Nat) (f : Tmu → Tmu) : (modTmu s n f).rf = s.rf := rfl
@[simp] theorem setTmu_ch (s : State) (n : Nat) (x : Tmu) : (setTmu s n x).ch = s.ch := rfl
@[simp] theorem modTmu_ch (s : State) (n : Nat) (f : Tmu → Tmu) : (modTmu s n f).ch = s.ch := rfl
@[simp] theorem setTmu_pc (s : State) (n : Nat) (x : Tmu) : (setTmu s n x).pc = s.pc := rfl
@[simp] theorem modTmu_pc (s : State) (n : Nat) (f : Tmu → Tmu) : (modTmu s n f).pc = s.pc := rfl
@[simp] theorem setTmu_ln (s : State) (n : Nat) (x : Tmu) : (setTmu s n x).ln = s.ln := rfl
@[simp] theorem modTmu_ln (s : State) (n : Nat) (f : Tmu → Tmu) : (modTmu s n f).ln = s.ln := rfl
@[simp] theorem setTmu_jobs (s : State) (n : Nat) (x : Tmu) : (setTmu s n x).jobs = s.jobs := rfl
@[simp] theorem modTmu_jobs (s : State) (n : Nat) (f : Tmu → Tmu) : (modTmu s n f).jobs = s.jobs := rfl
@[simp] theorem setTmu_ow (s : State) (n : Nat) (x : Tmu) : (setTmu s n x).ow = s.ow := rfl
@[simp] theorem modTmu_ow (s : State) (n : Nat) (f : Tmu → Tmu) : (modTmu s n f).ow = s.ow := rfl
@[simp] theorem setTmu_dk (s : State) (n : Nat) (x : Tmu) : (setTmu s n x).dk = s.dk := rfl
@[simp] theorem modTmu_dk (s : State) (n : Nat) (f : Tmu → Tmu) : (modTmu s n f).dk = s.dk := rfl
@[simp] theorem setTmu_bk (s : State) (n : Nat) (x : Tmu) : (setTmu s n x).bk = s.bk := rfl
@[simp] theorem modTmu_bk (s : State) (n : Nat) (f : Tmu → Tmu) : (modTmu s n f).bk = s.bk := rfl
@[simp] theorem setTmu_vat (s : State) (n : Nat) (x : Tmu) : (setTmu s n x).vat = s.vat := rfl
@[simp] theorem modTmu_vat (s : State) (n : Nat) (f : Tmu → Tmu) : (modTmu s n f).vat = s.vat := rfl
@[simp] theorem setTmu_tpad (s : State) (n : Nat) (x : Tmu) : (setTmu s n x).tpad = s.tpad := rfl
@[simp] theorem modTmu_tpad (s : State) (n : Nat) (f : Tmu → Tmu) : (modTmu s n f).tpad = s.tpad := rfl
@[simp] theorem setTmu_cep (s : State) (n : Nat) (x : Tmu) : (setTmu s n x).cep = s.cep := rfl
@[simp] theorem modTmu_cep (s : State) (n : Nat) (f : Tmu → Tmu) : (modTmu s n f).cep = s.cep := rfl
@[simp] theorem setTmu_mpad (s : State) (n : Nat) (x : Tmu) : (setTmu s n x).mpad = s.mpad := rfl
@[simp] theorem modTmu_mpad (s : State) (n : Nat) (f : Tmu → Tmu) : (modTmu s n f).mpad = s.mpad := rfl
@[simp] theorem setTmu_ust (s : State) (n : Nat) (x : Tmu) : (setTmu s n x).ust = s.ust := rfl
@[simp] theorem modTmu_ust (s : State) (n : Nat) (f : Tmu → Tmu) : (modTmu s n f).ust = s.ust := rfl
@[simp] theorem setTmu_nst (s : State) (n : Nat) (x : Tmu) : (setTmu s n x).nst = s.nst := rfl
@[simp] theorem modTmu_nst (s : State) (n : Nat) (f : Tmu → Tmu) : (modTmu s n f).nst = s.nst := rfl
@[simp] theorem setTmu_upar (s : State) (n : Nat) (x : Tmu) : (setTmu s n x).upar = s.upar := rfl
@[simp] theorem modTmu_upar (s : State) (n : Nat) (f : Tmu → Tmu) : (modTmu s n f).upar = s.upar := rfl
@[simp] theorem setTmu_npar (s : State) (n : Nat) (x : Tmu) : (setTmu s n x).npar = s.npar := rfl
@[simp] theorem modTmu_npar (s : State) (n : Nat) (f : Tmu → Tmu) : (modTmu s n f).npar = s.npar := rfl
@[simp] theorem setTmu_pin (s : State) (n : Nat) (x : Tmu) : (setTmu s n x).pin = s.pin := rfl
@[simp] theorem modTmu_pin (s : State) (n : Nat) (f : Tmu → Tmu) : (modTmu s n f).pin = s.pin := rfl
@[simp] theorem setTmu_fe (s : State) (n : Nat) (x : Tmu) : (setTmu s n x).fe = s.fe := rfl
@[simp] theorem modTmu_fe (s : State) (n : Nat) (f : Tmu → Tmu) : (modTmu s n f).fe = s.fe := rfl
@[simp] theorem setTmu_dps (s : State) (n : Nat) (x : Tmu) : (setTmu s n x).dps = s.dps := rfl
@[simp] theorem modTmu_dps (s : State) (n : Nat) (f : Tmu → Tmu) : (modTmu s n f).dps = s.dps := rfl
@[simp] theorem setTmu_aux (s : State) (n : Nat) (x : Tmu) : (setTmu s n x).aux = s.aux := rfl
@[simp] theorem modTmu_aux (s : State) (n : Nat) (f : Tmu → Tmu) : (modTmu s n f).aux = s.aux := rfl
@[simp] theorem setTmu_adc (s : State) (n : Nat) (x : Tmu) : (setTmu s n x).adc = s.adc := rfl
@[simp] theorem modTmu_adc (s : State) (n : Nat) (f : Tmu → Tmu) : (modTmu s n f).adc = s.adc := rfl
@[simp] theorem setTmu_ph (s : State) (n : Nat) (x : Tmu) : (setTmu s n x).ph = s.ph := rfl
@[simp] theorem modTmu_ph (s : State) (n : Nat) (f : Tmu → Tmu) : (modTmu s n f).ph = s.ph := rfl

/-! ### Fe -/

@[simp] theorem modFe_wall (s : State) (n : Nat) (f : Fe → Fe) : (modFe s n f).wall = s.wall := rfl
@[simp] theorem modFe_pending (s : State) (n : Nat) (f : Fe → Fe) : (modFe s n f).pending = s.pending := rfl
@[simp] theorem modFe_free (s : State) (n : Nat) (f : Fe → Fe) : (modFe s n f).free = s.free := rfl
@[simp] theorem modFe_arrN (s : State) (n : Nat) (f : Fe → Fe) : (modFe s n f).arrN = s.arrN := rfl
@[simp] theorem modFe_resume (s : State) (n : Nat) (f : Fe → Fe) : (modFe s n f).resume = s.resume := rfl
@[simp] theorem modFe_md (s : State) (n : Nat) (f : Fe → Fe) : (modFe s n f).md = s.md := rfl
@[simp] theorem modFe_nv (s : State) (n : Nat) (f : Fe → Fe) : (modFe s n f).nv = s.nv := rfl
@[simp] theorem modFe_rf (s : State) (n : Nat) (f : Fe → Fe) : (modFe s n f).rf = s.rf := rfl
@[simp] theorem modFe_ch (s : State) (n : Nat) (f : Fe → Fe) : (modFe s n f).ch = s.ch := rfl
@[simp] theorem modFe_pc (s : State) (n : Nat) (f : Fe → Fe) : (modFe s n f).pc = s.pc := rfl
@[simp] theorem modFe_ln (s : State) (n : Nat) (f : Fe → Fe) : (modFe s n f).ln = s.ln := rfl
@[simp] theorem modFe_jobs (s : State) (n : Nat) (f : Fe → Fe) : (modFe s n f).jobs = s.jobs := rfl
@[simp] theorem modFe_ow (s : State) (n : Nat) (f : Fe → Fe) : (modFe s n f).ow = s.ow := rfl
@[simp] theorem modFe_dk (s : State) (n : Nat) (f : Fe → Fe) : (modFe s n f).dk = s.dk := rfl
@[simp] theorem modFe_bk (s : State) (n : Nat) (f : Fe → Fe) : (modFe s n f).bk = s.bk := rfl
@[simp] theorem modFe_vat (s : State) (n : Nat) (f : Fe → Fe) : (modFe s n f).vat = s.vat := rfl
@[simp] theorem modFe_tpad (s : State) (n : Nat) (f : Fe → Fe) : (modFe s n f).tpad = s.tpad := rfl
@[simp] theorem modFe_cep (s : State) (n : Nat) (f : Fe → Fe) : (modFe s n f).cep = s.cep := rfl
@[simp] theorem modFe_mpad (s : State) (n : Nat) (f : Fe → Fe) : (modFe s n f).mpad = s.mpad := rfl
@[simp] theorem modFe_ust (s : State) (n : Nat) (f : Fe → Fe) : (modFe s n f).ust = s.ust := rfl
@[simp] theorem modFe_nst (s : State) (n : Nat) (f : Fe → Fe) : (modFe s n f).nst = s.nst := rfl
@[simp] theorem modFe_upar (s : State) (n : Nat) (f : Fe → Fe) : (modFe s n f).upar = s.upar := rfl
@[simp] theorem modFe_npar (s : State) (n : Nat) (f : Fe → Fe) : (modFe s n f).npar = s.npar := rfl
@[simp] theorem modFe_pin (s : State) (n : Nat) (f : Fe → Fe) : (modFe s n f).pin = s.pin := rfl
@[simp] theorem modFe_dps (s : State) (n : Nat) (f : Fe → Fe) : (modFe s n f).dps = s.dps := rfl
@[simp] theorem modFe_aux (s : State) (n : Nat) (f : Fe → Fe) : (modFe s n f).aux = s.aux := rfl
@[simp] theorem modFe_adc (s : State) (n : Nat) (f : Fe → Fe) : (modFe s n f).adc = s.adc := rfl
@[simp] theorem modFe_tmu (s : State) (n : Nat) (f : Fe → Fe) : (modFe s n f).tmu = s.tmu := rfl
@[simp] theorem modFe_ph (s : State) (n : Nat) (f : Fe → Fe) : (modFe s n f).ph = s.ph := rfl

/-! ### Evt -/

@[simp] theorem modEvt_wall (s : State) (n : Nat) (f : EvtSt → EvtSt) : (modEvt s n f).wall = s.wall := rfl
@[simp] theorem modEvt_pending (s : State) (n : Nat) (f : EvtSt → EvtSt) : (modEvt s n f).pending = s.pending := rfl
@[simp] theorem modEvt_free (s : State) (n : Nat) (f : EvtSt → EvtSt) : (modEvt s n f).free = s.free := rfl
@[simp] theorem modEvt_arrN (s : State) (n : Nat) (f : EvtSt → EvtSt) : (modEvt s n f).arrN = s.arrN := rfl
@[simp] theorem modEvt_resume (s : State) (n : Nat) (f : EvtSt → EvtSt) : (modEvt s n f).resume = s.resume := rfl
@[simp] theorem modEvt_md (s : State) (n : Nat) (f : EvtSt → EvtSt) : (modEvt s n f).md = s.md := rfl
@[simp] theorem modEvt_nv (s : State) (n : Nat) (f : EvtSt → EvtSt) : (modEvt s n f).nv = s.nv := rfl
@[simp] theorem modEvt_rf (s : State) (n : Nat) (f : EvtSt → EvtSt) : (modEvt s n f).rf = s.rf := rfl
@[simp] theorem modEvt_ch (s : State) (n : Nat) (f : EvtSt → EvtSt) : (modEvt s n f).ch = s.ch := rfl
@[simp] theorem modEvt_pc (s : State) (n : Nat) (f : EvtSt → EvtSt) : (modEvt s n f).pc = s.pc := rfl
@[simp] theorem modEvt_ln (s : State) (n : Nat) (f : EvtSt → EvtSt) : (modEvt s n f).ln = s.ln := rfl
@[simp] theorem modEvt_jobs (s : State) (n : Nat) (f : EvtSt → EvtSt) : (modEvt s n f).jobs = s.jobs := rfl
@[simp] theorem modEvt_ow (s : State) (n : Nat) (f : EvtSt → EvtSt) : (modEvt s n f).ow = s.ow := rfl
@[simp] theorem modEvt_dk (s : State) (n : Nat) (f : EvtSt → EvtSt) : (modEvt s n f).dk = s.dk := rfl
@[simp] theorem modEvt_bk (s : State) (n : Nat) (f : EvtSt → EvtSt) : (modEvt s n f).bk = s.bk := rfl
@[simp] theorem modEvt_vat (s : State) (n : Nat) (f : EvtSt → EvtSt) : (modEvt s n f).vat = s.vat := rfl
@[simp] theorem modEvt_tpad (s : State) (n : Nat) (f : EvtSt → EvtSt) : (modEvt s n f).tpad = s.tpad := rfl
@[simp] theorem modEvt_cep (s : State) (n : Nat) (f : EvtSt → EvtSt) : (modEvt s n f).cep = s.cep := rfl
@[simp] theorem modEvt_mpad (s : State) (n : Nat) (f : EvtSt → EvtSt) : (modEvt s n f).mpad = s.mpad := rfl
@[simp] theorem modEvt_ust (s : State) (n : Nat) (f : EvtSt → EvtSt) : (modEvt s n f).ust = s.ust := rfl
@[simp] theorem modEvt_nst (s : State) (n : Nat) (f : EvtSt → EvtSt) : (modEvt s n f).nst = s.nst := rfl
@[simp] theorem modEvt_upar (s : State) (n : Nat) (f : EvtSt → EvtSt) : (modEvt s n f).upar = s.upar := rfl
@[simp] theorem modEvt_npar (s : State) (n : Nat) (f : EvtSt → EvtSt) : (modEvt s n f).npar = s.npar := rfl
@[simp] theorem modEvt_pin (s : State) (n : Nat) (f : EvtSt → EvtSt) : (modEvt s n f).pin = s.pin := rfl
@[simp] theorem modEvt_fe (s : State) (n : Nat) (f : EvtSt → EvtSt) : (modEvt s n f).fe = s.fe := rfl
@[simp] theorem modEvt_dps (s : State) (n : Nat) (f : EvtSt → EvtSt) : (modEvt s n f).dps = s.dps := rfl
@[simp] theorem modEvt_aux (s : State) (n : Nat) (f : EvtSt → EvtSt) : (modEvt s n f).aux = s.aux := rfl
@[simp] theorem modEvt_adc (s : State) (n : Nat) (f : EvtSt → EvtSt) : (modEvt s n f).adc = s.adc := rfl
@[simp] theorem modEvt_tmu (s : State) (n : Nat) (f : EvtSt → EvtSt) : (modEvt s n f).tmu = s.tmu := rfl

/-! ### Thr -/

@[simp] theorem getDk_modThr_same (s : State) (d : Nat) (f : Thread → Thread) : getDk (modThr s d f) d = (fun k : Deckle => { k with thr := f k.thr }) (getDk s d) := tget_tset_same _ _ _ _
@[simp] theorem modThr_wall (s : State) (d : Nat) (f : Thread → Thread) : (modThr s d f).wall = s.wall := rfl
@[simp] theorem modThr_pending (s : State) (d : Nat) (f : Thread → Thread) : (modThr s d f).pending = s.pending := rfl
@[simp] theorem modThr_free (s : State) (d : Nat) (f : Thread → Thread) : (modThr s d f).free = s.free := rfl
@[simp] theorem modThr_arrN (s : State) (d : Nat) (f : Thread → Thread) : (modThr s d f).arrN = s.arrN := rfl
@[simp] theorem modThr_resume (s : State) (d : Nat) (f : Thread → Thread) : (modThr s d f).resume = s.resume := rfl
@[simp] theorem modThr_md (s : State) (d : Nat) (f : Thread → Thread) : (modThr s d f).md = s.md := rfl
@[simp] theorem modThr_nv (s : State) (d : Nat) (f : Thread → Thread) : (modThr s d f).nv = s.nv := rfl
@[simp] theorem modThr_rf (s : State) (d : Nat) (f : Thread → Thread) : (modThr s d f).rf = s.rf := rfl
@[simp] theorem modThr_ch (s : State) (d : Nat) (f : Thread → Thread) : (modThr s d f).ch = s.ch := rfl
@[simp] theorem modThr_pc (s : State) (d : Nat) (f : Thread → Thread) : (modThr s d f).pc = s.pc := rfl
@[simp] theorem modThr_ln (s : State) (d : Nat) (f : Thread → Thread) : (modThr s d f).ln = s.ln := rfl
@[simp] theorem modThr_jobs (s : State) (d : Nat) (f : Thread → Thread) : (modThr s d f).jobs = s.jobs := rfl
@[simp] theorem modThr_ow (s : State) (d : Nat) (f : Thread → Thread) : (modThr s d f).ow = s.ow := rfl
@[simp] theorem modThr_bk (s : State) (d : Nat) (f : Thread → Thread) : (modThr s d f).bk = s.bk := rfl
@[simp] theorem modThr_vat (s : State) (d : Nat) (f : Thread → Thread) : (modThr s d f).vat = s.vat := rfl
@[simp] theorem modThr_tpad (s : State) (d : Nat) (f : Thread → Thread) : (modThr s d f).tpad = s.tpad := rfl
@[simp] theorem modThr_cep (s : State) (d : Nat) (f : Thread → Thread) : (modThr s d f).cep = s.cep := rfl
@[simp] theorem modThr_mpad (s : State) (d : Nat) (f : Thread → Thread) : (modThr s d f).mpad = s.mpad := rfl
@[simp] theorem modThr_ust (s : State) (d : Nat) (f : Thread → Thread) : (modThr s d f).ust = s.ust := rfl
@[simp] theorem modThr_nst (s : State) (d : Nat) (f : Thread → Thread) : (modThr s d f).nst = s.nst := rfl
@[simp] theorem modThr_upar (s : State) (d : Nat) (f : Thread → Thread) : (modThr s d f).upar = s.upar := rfl
@[simp] theorem modThr_npar (s : State) (d : Nat) (f : Thread → Thread) : (modThr s d f).npar = s.npar := rfl
@[simp] theorem modThr_pin (s : State) (d : Nat) (f : Thread → Thread) : (modThr s d f).pin = s.pin := rfl
@[simp] theorem modThr_fe (s : State) (d : Nat) (f : Thread → Thread) : (modThr s d f).fe = s.fe := rfl
@[simp] theorem modThr_dps (s : State) (d : Nat) (f : Thread → Thread) : (modThr s d f).dps = s.dps := rfl
@[simp] theorem modThr_aux (s : State) (d : Nat) (f : Thread → Thread) : (modThr s d f).aux = s.aux := rfl
@[simp] theorem modThr_adc (s : State) (d : Nat) (f : Thread → Thread) : (modThr s d f).adc = s.adc := rfl
@[simp] theorem modThr_tmu (s : State) (d : Nat) (f : Thread → Thread) : (modThr s d f).tmu = s.tmu := rfl
@[simp] theorem modThr_ph (s : State) (d : Nat) (f : Thread → Thread) : (modThr s d f).ph = s.ph := rfl

/-! ### Seq -/

@[simp] theorem getDk_modSeq_same (s : State) (d : Nat) (f : Seq → Seq) : getDk (modSeq s d f) d = (fun k : Deckle => { k with seq := f k.seq }) (getDk s d) := tget_tset_same _ _ _ _
@[simp] theorem modSeq_wall (s : State) (d : Nat) (f : Seq → Seq) : (modSeq s d f).wall = s.wall := rfl
@[simp] theorem modSeq_pending (s : State) (d : Nat) (f : Seq → Seq) : (modSeq s d f).pending = s.pending := rfl
@[simp] theorem modSeq_free (s : State) (d : Nat) (f : Seq → Seq) : (modSeq s d f).free = s.free := rfl
@[simp] theorem modSeq_arrN (s : State) (d : Nat) (f : Seq → Seq) : (modSeq s d f).arrN = s.arrN := rfl
@[simp] theorem modSeq_resume (s : State) (d : Nat) (f : Seq → Seq) : (modSeq s d f).resume = s.resume := rfl
@[simp] theorem modSeq_md (s : State) (d : Nat) (f : Seq → Seq) : (modSeq s d f).md = s.md := rfl
@[simp] theorem modSeq_nv (s : State) (d : Nat) (f : Seq → Seq) : (modSeq s d f).nv = s.nv := rfl
@[simp] theorem modSeq_rf (s : State) (d : Nat) (f : Seq → Seq) : (modSeq s d f).rf = s.rf := rfl
@[simp] theorem modSeq_ch (s : State) (d : Nat) (f : Seq → Seq) : (modSeq s d f).ch = s.ch := rfl
@[simp] theorem modSeq_pc (s : State) (d : Nat) (f : Seq → Seq) : (modSeq s d f).pc = s.pc := rfl
@[simp] theorem modSeq_ln (s : State) (d : Nat) (f : Seq → Seq) : (modSeq s d f).ln = s.ln := rfl
@[simp] theorem modSeq_jobs (s : State) (d : Nat) (f : Seq → Seq) : (modSeq s d f).jobs = s.jobs := rfl
@[simp] theorem modSeq_ow (s : State) (d : Nat) (f : Seq → Seq) : (modSeq s d f).ow = s.ow := rfl
@[simp] theorem modSeq_bk (s : State) (d : Nat) (f : Seq → Seq) : (modSeq s d f).bk = s.bk := rfl
@[simp] theorem modSeq_vat (s : State) (d : Nat) (f : Seq → Seq) : (modSeq s d f).vat = s.vat := rfl
@[simp] theorem modSeq_tpad (s : State) (d : Nat) (f : Seq → Seq) : (modSeq s d f).tpad = s.tpad := rfl
@[simp] theorem modSeq_cep (s : State) (d : Nat) (f : Seq → Seq) : (modSeq s d f).cep = s.cep := rfl
@[simp] theorem modSeq_mpad (s : State) (d : Nat) (f : Seq → Seq) : (modSeq s d f).mpad = s.mpad := rfl
@[simp] theorem modSeq_ust (s : State) (d : Nat) (f : Seq → Seq) : (modSeq s d f).ust = s.ust := rfl
@[simp] theorem modSeq_nst (s : State) (d : Nat) (f : Seq → Seq) : (modSeq s d f).nst = s.nst := rfl
@[simp] theorem modSeq_upar (s : State) (d : Nat) (f : Seq → Seq) : (modSeq s d f).upar = s.upar := rfl
@[simp] theorem modSeq_npar (s : State) (d : Nat) (f : Seq → Seq) : (modSeq s d f).npar = s.npar := rfl
@[simp] theorem modSeq_pin (s : State) (d : Nat) (f : Seq → Seq) : (modSeq s d f).pin = s.pin := rfl
@[simp] theorem modSeq_fe (s : State) (d : Nat) (f : Seq → Seq) : (modSeq s d f).fe = s.fe := rfl
@[simp] theorem modSeq_dps (s : State) (d : Nat) (f : Seq → Seq) : (modSeq s d f).dps = s.dps := rfl
@[simp] theorem modSeq_aux (s : State) (d : Nat) (f : Seq → Seq) : (modSeq s d f).aux = s.aux := rfl
@[simp] theorem modSeq_adc (s : State) (d : Nat) (f : Seq → Seq) : (modSeq s d f).adc = s.adc := rfl
@[simp] theorem modSeq_tmu (s : State) (d : Nat) (f : Seq → Seq) : (modSeq s d f).tmu = s.tmu := rfl
@[simp] theorem modSeq_ph (s : State) (d : Nat) (f : Seq → Seq) : (modSeq s d f).ph = s.ph := rfl

/-! ### Res -/

@[simp] theorem getDk_modRes_same (s : State) (d : Nat) (f : Results → Results) : getDk (modRes s d f) d = (fun k : Deckle => { k with res := f k.res }) (getDk s d) := tget_tset_same _ _ _ _
@[simp] theorem modRes_wall (s : State) (d : Nat) (f : Results → Results) : (modRes s d f).wall = s.wall := rfl
@[simp] theorem modRes_pending (s : State) (d : Nat) (f : Results → Results) : (modRes s d f).pending = s.pending := rfl
@[simp] theorem modRes_free (s : State) (d : Nat) (f : Results → Results) : (modRes s d f).free = s.free := rfl
@[simp] theorem modRes_arrN (s : State) (d : Nat) (f : Results → Results) : (modRes s d f).arrN = s.arrN := rfl
@[simp] theorem modRes_resume (s : State) (d : Nat) (f : Results → Results) : (modRes s d f).resume = s.resume := rfl
@[simp] theorem modRes_md (s : State) (d : Nat) (f : Results → Results) : (modRes s d f).md = s.md := rfl
@[simp] theorem modRes_nv (s : State) (d : Nat) (f : Results → Results) : (modRes s d f).nv = s.nv := rfl
@[simp] theorem modRes_rf (s : State) (d : Nat) (f : Results → Results) : (modRes s d f).rf = s.rf := rfl
@[simp] theorem modRes_ch (s : State) (d : Nat) (f : Results → Results) : (modRes s d f).ch = s.ch := rfl
@[simp] theorem modRes_pc (s : State) (d : Nat) (f : Results → Results) : (modRes s d f).pc = s.pc := rfl
@[simp] theorem modRes_ln (s : State) (d : Nat) (f : Results → Results) : (modRes s d f).ln = s.ln := rfl
@[simp] theorem modRes_jobs (s : State) (d : Nat) (f : Results → Results) : (modRes s d f).jobs = s.jobs := rfl
@[simp] theorem modRes_ow (s : State) (d : Nat) (f : Results → Results) : (modRes s d f).ow = s.ow := rfl
@[simp] theorem modRes_bk (s : State) (d : Nat) (f : Results → Results) : (modRes s d f).bk = s.bk := rfl
@[simp] theorem modRes_vat (s : State) (d : Nat) (f : Results → Results) : (modRes s d f).vat = s.vat := rfl
@[simp] theorem modRes_tpad (s : State) (d : Nat) (f : Results → Results) : (modRes s d f).tpad = s.tpad := rfl
@[simp] theorem modRes_cep (s : State) (d : Nat) (f : Results → Results) : (modRes s d f).cep = s.cep := rfl
@[simp] theorem modRes_mpad (s : State) (d : Nat) (f : Results → Results) : (modRes s d f).mpad = s.mpad := rfl
@[simp] theorem modRes_ust (s : State) (d : Nat) (f : Results → Results) : (modRes s d f).ust = s.ust := rfl
@[simp] theorem modRes_nst (s : State) (d : Nat) (f : Results → Results) : (modRes s d f).nst = s.nst := rfl
@[simp] theorem modRes_upar (s : State) (d : Nat) (f : Results → Results) : (modRes s d f).upar = s.upar := rfl
@[simp] theorem modRes_npar (s : State) (d : Nat) (f : Results → Results) : (modRes s d f).npar = s.npar := rfl
@[simp] theorem modRes_pin (s : State) (d : Nat) (f : Results → Results) : (modRes s d f).pin = s.pin := rfl
@[simp] theorem modRes_fe (s : State) (d : Nat) (f : Results → Results) : (modRes s d f).fe = s.fe := rfl
@[simp] theorem modRes_dps (s : State) (d : Nat) (f : Results → Results) : (modRes s d f).dps = s.dps := rfl
@[simp] theorem modRes_aux (s : State) (d : Nat) (f : Results → Results) : (modRes s d f).aux = s.aux := rfl
@[simp] theorem modRes_adc (s : State) (d : Nat) (f : Results → Results) : (modRes s d f).adc = s.adc := rfl
@[simp] theorem modRes_tmu (s : State) (d : Nat) (f : Results → Results) : (modRes s d f).tmu = s.tmu := rfl
@[simp] theorem modRes_ph (s : State) (d : Nat) (f : Results → Results) : (modRes s d f).ph = s.ph := rfl

/-! ### Counters -/

@[simp] theorem getDk_incr_same (s : State) (d i n : Nat) : getDk (incr s d i n) d = cntAdd (getDk s d) i n := tget_tset_same _ _ _ _
@[simp] theorem incr_wall (s : State) (d i n : Nat) : (incr s d i n).wall = s.wall := rfl
@[simp] theorem incr_pending (s : State) (d i n : Nat) : (incr s d i n).pending = s.pending := rfl
@[simp] theorem incr_free (s : State) (d i n : Nat) : (incr s d i n).free = s.free := rfl
@[simp] theorem incr_arrN (s : State) (d i n : Nat) : (incr s d i n).arrN = s.arrN := rfl
@[simp] theorem incr_resume (s : State) (d i n : Nat) : (incr s d i n).resume = s.resume := rfl
@[simp] theorem incr_md (s : State) (d i n : Nat) : (incr s d i n).md = s.md := rfl
@[simp] theorem incr_nv (s : State) (d i n : Nat) : (incr s d i n).nv = s.nv := rfl
@[simp] theorem incr_rf (s : State) (d i n : Nat) : (incr s d i n).rf = s.rf := rfl
@[simp] theorem incr_ch (s : State) (d i n : Nat) : (incr s d i n).ch = s.ch := rfl
@[simp] theorem incr_pc (s : State) (d i n : Nat) : (incr s d i n).pc = s.pc := rfl
@[simp] theorem incr_ln (s : State) (d i n : Nat) : (incr s d i n).ln = s.ln := rfl
@[simp] theorem incr_jobs (s : State) (d i n : Nat) : (incr s d i n).jobs = s.jobs := rfl
@[simp] theorem incr_ow (s : State) (d i n : Nat) : (incr s d i n).ow = s.ow := rfl
@[simp] theorem incr_bk (s : State) (d i n : Nat) : (incr s d i n).bk = s.bk := rfl
@[simp] theorem incr_vat (s : State) (d i n : Nat) : (incr s d i n).vat = s.vat := rfl
@[simp] theorem incr_tpad (s : State) (d i n : Nat) : (incr s d i n).tpad = s.tpad := rfl
@[simp] theorem incr_cep (s : State) (d i n : Nat) : (incr s d i n).cep = s.cep := rfl
@[simp] theorem incr_mpad (s : State) (d i n : Nat) : (incr s d i n).mpad = s.mpad := rfl
@[simp] theorem incr_ust (s : State) (d i n : Nat) : (incr s d i n).ust = s.ust := rfl
@[simp] theorem incr_nst (s : State) (d i n : Nat) : (incr s d i n).nst = s.nst := rfl
@[simp] theorem incr_upar (s : State) (d i n : Nat) : (incr s d i n).upar = s.upar := rfl
@[simp] theorem incr_npar (s : State) (d i n : Nat) : (incr s d i n).npar = s.npar := rfl
@[simp] theorem incr_pin (s : State) (d i n : Nat) : (incr s d i n).pin = s.pin := rfl
@[simp] theorem incr_fe (s : State) (d i n : Nat) : (incr s d i n).fe = s.fe := rfl
@[simp] theorem incr_dps (s : State) (d i n : Nat) : (incr s d i n).dps = s.dps := rfl
@[simp] theorem incr_aux (s : State) (d i n : Nat) : (incr s d i n).aux = s.aux := rfl
@[simp] theorem incr_adc (s : State) (d i n : Nat) : (incr s d i n).adc = s.adc := rfl
@[simp] theorem incr_tmu (s : State) (d i n : Nat) : (incr s d i n).tmu = s.tmu := rfl
@[simp] theorem incr_ph (s : State) (d i n : Nat) : (incr s d i n).ph = s.ph := rfl

end Sys2Proof.Machine
end

