-- ==== Sys2Proof/Laws/Lines.lean ====
section
/-! SUPPORT. What a command line does, said once: an accepted line runs its body in the state `begun`, and answers or starts. -/

namespace Sys2Proof.Machine

theorem advance_getLn (s : State) (dt l : Nat) : getLn (advance s dt) l = getLn s l := rfl

theorem macTake_slots (x : LineSt) : (macTake x).slots = x.slots := by unfold macTake; split <;> rfl
theorem macTake_nslot (x : LineSt) : (macTake x).nslot = x.nslot := by unfold macTake; split <;> rfl

/-- A place taken at the end of a line's order. -/
theorem newSlot_getLn (s : State) (l n : Nat) : getLn (newSlot s l n).2 l =
    { getLn s l with nslot := (getLn s l).nslot + 1,
                     slots := (getLn s l).slots ++ [{ id := (getLn s l).nslot, tb := now s, rx := s.wall, seq := s.arrN, bytes := n,
                                                      sealed := (getLn s l).sm.isSome }] } :=
  getLn_modLn_same _ _ _

/-- The line as it is when its command runs. -/
theorem begun_getLn (h : Hdr) (s : State) : getLn (begun h s) h.line =
    { macTake { getLn s h.line with rxT := s.wall + h.dt, part := [], crT := none } with
      nslot := (macTake { getLn s h.line with rxT := s.wall + h.dt, part := [], crT := none }).nslot + 1,
      slots := (macTake { getLn s h.line with rxT := s.wall + h.dt, part := [], crT := none }).slots ++
        [{ id := (macTake { getLn s h.line with rxT := s.wall + h.dt, part := [], crT := none }).nslot, tb := now (advance s h.dt),
           rx := s.wall + h.dt, seq := s.arrN, bytes := h.text.length + 1,
           sealed := (macTake { getLn s h.line with rxT := s.wall + h.dt, part := [], crT := none }).sm.isSome }] } := by
  rw [begun, newSlot_getLn, getLn_modLn_same, getLn_setLn_same]; rfl

theorem begun_nslot (h : Hdr) (s : State) : (getLn (begun h s) h.line).nslot = (getLn s h.line).nslot + 1 := by
  simp [begun_getLn, macTake_nslot]

end Sys2Proof.Machine

namespace Sys2Proof

open Machine

/-- A check that passes lets the rest of a command run. -/
theorem res_bind_ok (a : α) (f : α → Res β) : (Except.ok a >>= f) = f a := rfl

/-- A check that fails ends a command with its error line. -/
theorem res_bind_error (e : Line) (f : α → Res β) : ((Except.error e : Res α) >>= f) = .error e := rfl

/-- A check whose condition holds passes. -/
theorem need_ok (c : Bool) (e : Line) (h : c = true) : need c e = .ok ⟨⟩ := by simp [need, h]

/-- A check whose condition fails gives its error line. -/
theorem need_error (c : Bool) (e : Line) (h : c = false) : need c e = .error e := by simp [need, h]

/-! Of the state that a line finds, only time, the timebase and the line itself have changed when its command runs. -/

theorem begun_wall (h : Hdr) (s : State) : (begun h s).wall = s.wall + h.dt := rfl
theorem begun_rf (h : Hdr) (s : State) : (begun h s).rf = (advance s h.dt).rf := rfl
theorem begun_free (h : Hdr) (s : State) : (begun h s).free = s.free := rfl
theorem begun_resume (h : Hdr) (s : State) : (begun h s).resume = s.resume := rfl
theorem begun_pending (h : Hdr) (s : State) : (begun h s).pending = s.pending := rfl
theorem begun_md (h : Hdr) (s : State) : (begun h s).md = s.md := rfl
theorem begun_nv (h : Hdr) (s : State) : (begun h s).nv = s.nv := rfl
theorem begun_ch (h : Hdr) (s : State) : (begun h s).ch = s.ch := rfl
theorem begun_pc (h : Hdr) (s : State) : (begun h s).pc = s.pc := rfl
theorem begun_jobs (h : Hdr) (s : State) : (begun h s).jobs = s.jobs := rfl
theorem begun_ow (h : Hdr) (s : State) : (begun h s).ow = s.ow := rfl
theorem begun_dk (h : Hdr) (s : State) : (begun h s).dk = s.dk := rfl
theorem begun_bk (h : Hdr) (s : State) : (begun h s).bk = s.bk := rfl
theorem begun_vat (h : Hdr) (s : State) : (begun h s).vat = s.vat := rfl
theorem begun_tpad (h : Hdr) (s : State) : (begun h s).tpad = s.tpad := rfl
theorem begun_cep (h : Hdr) (s : State) : (begun h s).cep = s.cep := rfl
theorem begun_mpad (h : Hdr) (s : State) : (begun h s).mpad = s.mpad := rfl
theorem begun_ust (h : Hdr) (s : State) : (begun h s).ust = s.ust := rfl
theorem begun_upar (h : Hdr) (s : State) : (begun h s).upar = s.upar := rfl
theorem begun_npar (h : Hdr) (s : State) : (begun h s).npar = s.npar := rfl
theorem begun_nst (h : Hdr) (s : State) : (begun h s).nst = s.nst := rfl
theorem begun_pin (h : Hdr) (s : State) : (begun h s).pin = s.pin := rfl
theorem begun_fe (h : Hdr) (s : State) : (begun h s).fe = s.fe := rfl
theorem begun_dps (h : Hdr) (s : State) : (begun h s).dps = s.dps := rfl
theorem begun_aux (h : Hdr) (s : State) : (begun h s).aux = s.aux := rfl
theorem begun_adc (h : Hdr) (s : State) : (begun h s).adc = s.adc := rfl
theorem begun_tmu (h : Hdr) (s : State) : (begun h s).tmu = s.tmu := rfl
theorem begun_ph (h : Hdr) (s : State) : (begun h s).ph = s.ph := rfl
theorem begun_getDk (h : Hdr) (s : State) (d : Nat) : getDk (begun h s) d = getDk s d := rfl

/-- Whether a line may begin depends on its order of replies and on what it holds alone. -/
theorem heldReady_congr (s t : State)
    (h : ∀ l, (getLn t l).slots = (getLn s l).slots ∧ (getLn t l).held = (getLn s l).held) : heldReady t = heldReady s := by
  unfold heldReady
  refine congrArg (fun f => List.filterMap f lineNos) (funext (fun l => ?_))
  simp [heldOf, (h l).1, (h l).2]

theorem macTake_held (x : LineSt) : (macTake x).held = x.held := by unfold macTake; split <;> rfl
theorem macTake_seal (x : LineSt) : (macTake x).sm.isSome = x.sm.isSome := by
  unfold macTake; split
  · rfl
  · rename_i h; simp [h]

/-- The right MACs of a block change the host counter of the line alone. -/
theorem blkMacs_good (s : State) (l : Nat) : ∀ rows : List BlkRow, (blkMacs s l rows).2 = false →
    (getLn (blkMacs s l rows).1 l).slots = (getLn s l).slots ∧ (getLn (blkMacs s l rows).1 l).nslot = (getLn s l).nslot ∧
      (getLn (blkMacs s l rows).1 l).sm.isSome = (getLn s l).sm.isSome := by
  intro rows
  induction rows generalizing s with
  | nil => intro _; exact ⟨rfl, rfl, rfl⟩
  | cons r t ih =>
    intro hr
    simp only [blkMacs] at hr ⊢
    split at hr
    · rename_i hm
      rw [if_pos hm]
      obtain ⟨h1, h2, h3⟩ := ih _ hr
      simp only [h1, h2, h3, getLn_modLn_same, macTake_slots, macTake_nslot, macTake_seal, and_self]
    · cases hr

theorem begun_seal (h : Hdr) (s : State) : (getLn (begun h s) h.line).sm.isSome = (getLn s h.line).sm.isSome := by
  simp [begun_getLn, macTake_seal]

theorem begun_slots (h : Hdr) (s : State) (hid : (getLn s h.line).slots = []) :
    (getLn (begun h s) h.line).slots =
      [{ id := (getLn s h.line).nslot, tb := now (begun h s), rx := (begun h s).wall, seq := s.arrN, bytes := h.text.length + 1,
         sealed := (getLn s h.line).sm.isSome }] := by
  simp only [begun_getLn, macTake_nslot, macTake_slots, macTake_seal, hid, List.nil_append]; rfl

/-- The place that a line takes, its block's MACs all right. -/
theorem placeAt_begun (h : Hdr) (s : State) (rows : List BlkRow) (hid : (getLn s h.line).slots = [])
    (hm : (blkMacs (begun h s) h.line rows).2 = false) :
    placeAt (blkMacs (begun h s) h.line rows).1 h.line ((getLn (begun h s) h.line).nslot - 1) =
      { id := (getLn s h.line).nslot, tb := now (begun h s), rx := (begun h s).wall, seq := s.arrN, bytes := h.text.length + 1,
        sealed := (getLn s h.line).sm.isSome } := by
  rw [placeAt, (blkMacs_good _ _ _ hm).1, begun_slots h s hid, begun_nslot]; simp

@[simp] theorem seen_line (h : Hdr) (s : State) : (seen h s).line = h.line := by unfold seen Hdr.plain; split <;> rfl

theorem seen_begun (h : Hdr) (s : State) : seen h (begun h s) = seen h s := by rw [seen, seen, begun_seal]

/-- An accepted line reaches the start of its command, read without its suffix, in the state `begun` after the lines of its block, at the
place that it took. -/
theorem arrive_begun (hA : Arrives h s) (c : Instr) (blk : List BlkRow) (o : Bool) (go : Hdr → State → Nat → State)
    (hb : (blkMacs (begun h s) h.line blk).2 = false) :
    arrive s c h blk o go = go (seen h s) (blkMacs (begun h s) h.line blk).1 ((getLn (begun h s) h.line).nslot - 1) := by
  have h1 := hA.own
  have hlt : ¬ 1024 < (seen h s).text.length := by have := hA.short; omega
  have hh : heldReady (modLn (setLn (advance s h.dt) h.line
      { getLn (advance s h.dt) h.line with rxT := (advance s h.dt).wall, part := [], crT := none }) h.line macTake) = [] := by
    rw [← hA.first]
    refine heldReady_congr _ _ (fun l => ?_)
    by_cases hl : l = h.line
    · subst hl; simp [macTake_slots, macTake_held]
    · constructor <;> simp [getLn_modLn_other, getLn_setLn_other, hl]
  have hbusy : busy (getLn (modLn (setLn (advance s h.dt) h.line
      { getLn (advance s h.dt) h.line with rxT := (advance s h.dt).wall, part := [], crT := none }) h.line macTake) h.line) = false := by
    simp [busy, macTake_slots, hA.idle]
  have hs : (newSlot (modLn (setLn (advance s h.dt) h.line
      { getLn (advance s h.dt) h.line with rxT := (advance s h.dt).wall, part := [], crT := none }) h.line macTake) h.line
        (h.text.length + 1)) = ((getLn (begun h s) h.line).nslot - 1, begun h s) := by
    rw [begun_nslot]; simp [newSlot, begun, macTake_nslot]
  have hp : h.plain (getLn (advance s h.dt) h.line).sm.isSome = seen h s := rfl
  rw [arrive, h1]
  dsimp only
  rw [hp, hs, hbusy, hh]
  simp [hA.up, hA.whole, hlt, hA.mac, hA.chars, hA.form, hA.word, hb]

/-- The start of a command whose body answers at once. -/
theorem start_now (pre : State → Res Unit) (h : Hdr) (x : List Nat) (n : Nat) (body : Body) (s r : State) (b : List Line) (fin : Line)
    (hp : pre s = .ok ⟨⟩)
    (hf : Fresh h s)
    (hn : n = (getLn s h.line).nslot - 1) (hb : body s = .ok (r, .now b fin)) : start s pre (seen h s) x n body = replied h x s r b fin := by
  subst hn
  cases ht : lineTag (seen h s).text with
  | none => simp [start, replied, ht, hp, hb, bind, Except.bind]
  | some t => simp [start, replied, ht, hp, hb, hf t ht, bind, Except.bind]

/-- The start of a command whose reply comes later. -/
theorem start_later (pre : State → Res Unit) (h : Hdr) (x : List Nat) (n : Nat) (body : Body) (s r : State) (k : JobKind) (late : Option Int)
    (hp : pre s = .ok ⟨⟩)
    (hf : Fresh h s)
    (hn : n = (getLn s h.line).nslot - 1) (hb : body s = .ok (r, .later k late)) : start s pre (seen h s) x n body = awaits h x s r k late := by
  subst hn
  cases ht : lineTag (seen h s).text with
  | none => simp [start, awaits, ht, hp, hb, bind, Except.bind]
  | some t => simp [start, awaits, ht, hp, hb, hf t ht, bind, Except.bind]

/-- The start of a command that is refused. -/
theorem start_refused (pre : State → Res Unit) (h : Hdr) (x : List Nat) (n : Nat) (body : Body) (s : State) (e : Line)
    (hf : Fresh h s) (hn : n = (getLn s h.line).nslot - 1) (hb : (do pre s; body s) = .error e) :
    start s pre (seen h s) x n body = replied h x s (errNote s e) [] e := by
  subst hn
  cases ht : lineTag (seen h s).text with
  | none => simp only [start, replied, ht, hb, seen_line]
  | some t => simp only [start, replied, ht, hb, seen_line, hf t ht]

/-- A refusal other than E437 tells the owner nothing. -/
theorem errNote_other (s : State) (e : Line) (h : e.head? ≠ some (w "E437")) : errNote s e = s := by
  unfold errNote
  split
  · rename_i c _ b _; rw [if_neg]; intro hc; exact h (by simp [hc])
  · rfl

/-- The fault of a block that did not end is a form or length error, or the end itself. -/
theorem blkFault_cases (lost : Bool) (hd : BlkHdr) (rows : List BlkRow) (e : Line) :
    blkFault lost hd rows e = e415 ∨ blkFault lost hd rows e = e := by
  have hd' : ∀ (rows : List BlkRow) (n i : Nat) (x : Line), blkDecode n i rows = .error x → x = e415 := by
    intro rows
    induction rows with
    | nil => intro n i x h; simp [blkDecode] at h
    | cons r t ih =>
      intro n i x h
      simp only [blkDecode] at h
      split at h
      · injection h with h; exact h.symm
      · split at h
        · rename_i b _
          cases hr : blkDecode n (i + 1) t with
          | error y => rw [hr] at h; injection h with h; rw [← h]; exact ih _ _ _ hr
          | ok y => rw [hr] at h; cases h
        · injection h with h; exact h.symm
  unfold blkFault
  split
  · rename_i x hx
    split
    · exact .inr rfl
    · exact .inl (hd' _ _ _ _ hx)
  · exact .inr rfl

/-- A command line whose line is accepted starts in the state `begun`, its checks passed. -/
theorem arrive_start (hA : Accepts f h s) (c : Instr) (o : Bool) (body : Body) :
    arrive s c h [] o (fun p s n => start s (precheck f p) p [] n body) =
      start (begun h s) (precheck f (seen h s)) (seen h (begun h s)) [] ((getLn (begun h s) h.line).nslot - 1) body := by
  rw [arrive_begun hA.toArrives _ [] _ _ rfl, seen_begun]; rfl

/-- A command line that is refused by its command. -/
theorem noram_refused (hA : Accepts f h s) (hb : body (begun h s) = .error e) (h37 : e.head? ≠ some (w "E437") := by decide) :
    noram s c f h body = .next (replied h [] (begun h s) (begun h s) [] e) := by
  rw [noram, arrive_start hA, start_refused _ _ _ _ _ _ e hA.fresh rfl (by simp [hA.pass, hb, bind, Except.bind]), errNote_other _ e h37]

/-- A command line that is accepted and whose body answers at once. -/
theorem noram_now (hA : Accepts f h s) (hb : body (begun h s) = .ok (r, .now b fin)) :
    noram s c f h body = .next (replied h [] (begun h s) r b fin) := by
  rw [noram, arrive_start hA, start_now _ _ _ _ _ _ _ _ _ hA.pass hA.fresh rfl hb]

/-- A command line that is accepted and whose reply comes later. -/
theorem noram_later (hA : Accepts f h s) (hb : body (begun h s) = .ok (r, .later k late)) :
    noram s c f h body = .next (awaits h [] (begun h s) r k late) := by
  rw [noram, arrive_start hA, start_later _ _ _ _ _ _ _ _ _ hA.pass hA.fresh rfl hb]

theorem noramFirst_now (hA : Accepts f h s) (hb : body (begun h s) = .ok (r, .now b fin)) :
    noramFirst s c f h body = .next (replied h [] (begun h s) r b fin) := by
  rw [noramFirst, arrive_start hA, start_now _ _ _ _ _ _ _ _ _ hA.pass hA.fresh rfl hb]

theorem noramFirst_later (hA : Accepts f h s) (hb : body (begun h s) = .ok (r, .later k late)) :
    noramFirst s c f h body = .next (awaits h [] (begun h s) r k late) := by
  rw [noramFirst, arrive_start hA, start_later _ _ _ _ _ _ _ _ _ hA.pass hA.fresh rfl hb]

theorem begunBlk_seal (hB : (blkMacs (begun h s) h.line (blkAll b)).2 = false) :
    (getLn (begunBlk h b s) h.line).sm.isSome = (getLn s h.line).sm.isSome :=
  (blkMacs_good _ _ _ hB).2.2.trans (begun_seal h s)

theorem seen_begunBlk (hB : (blkMacs (begun h s) h.line (blkAll b)).2 = false) : seen h (begunBlk h b s) = seen h s := by
  rw [seen, seen, begunBlk_seal hB]

/-- A command line with a block that is accepted, as far as its start. -/
theorem noramBlk_start (hA : AcceptsBlk f h b s) (hB : BlkIs h b s p) (hpre : pre (begunBlk h b s) = .ok ⟨⟩) :
    ∃ go : Body, go (begunBlk h b s) = body p (begunBlk h b s) ∧
      noramBlk s c f h b pre body = .next (start (begunBlk h b s) (precheck f (seen h s)) (seen h (begunBlk h b s)) (blkText b)
        ((getLn (begunBlk h b s) h.line).nslot - 1) go) := by
  have hm := hB.macs
  have hn := (blkMacs_good (begun h s) h.line (blkAll b) hm).2.1
  refine ⟨fun s' => do
    pre s'
    need (1 ≤ b.hdr.n ∧ b.hdr.n ≤ 1048576) (e419 2)
    need (!false) e415
    let q ← blkBytes { b with rows := rowsPlain (getLn s h.line).sm.isSome b.rows }
    body q s', ?_, ?_⟩
  · simp only [hpre, hB.data, res_bind_ok, need_ok _ _ (decide_eq_true hB.size), need_ok _ _ Bool.not_false]
  · rw [noramBlk, arrive_begun hA.line.toArrives _ _ _ _ hm, seen_begunBlk hm]
    simp only [placeAt_begun h s _ hA.line.idle hm]
    rw [begunBlk, hn]

/-- A command line with a block that is accepted and whose body answers at once. -/
theorem noramBlk_now (hA : AcceptsBlk f h b s) (hB : BlkIs h b s p) (hpre : pre (begunBlk h b s) = .ok ⟨⟩)
    (hb : body p (begunBlk h b s) = .ok (r, .now l fin)) :
    noramBlk s c f h b pre body = .next (replied h (blkText b) (begunBlk h b s) r l fin) := by
  obtain ⟨go, hg, he⟩ := noramBlk_start (c := c) (body := body) hA hB hpre
  rw [he, start_now _ _ _ _ _ _ _ _ _ hA.pass hA.fresh rfl (hg.trans hb)]

/-- A command line with a block that is accepted and whose reply comes later. -/
theorem noramBlk_later (hA : AcceptsBlk f h b s) (hB : BlkIs h b s p) (hpre : pre (begunBlk h b s) = .ok ⟨⟩)
    (hb : body p (begunBlk h b s) = .ok (r, .later k late)) :
    noramBlk s c f h b pre body = .next (awaits h (blkText b) (begunBlk h b s) r k late) := by
  obtain ⟨go, hg, he⟩ := noramBlk_start (c := c) (body := body) hA hB hpre
  rw [he, start_later _ _ _ _ _ _ _ _ _ hA.pass hA.fresh rfl (hg.trans hb)]

end Sys2Proof
end

