-- ==== Sys2Proof/Laws/Ops.lean ====
section
/-! SUPPORT. Every memory operation keeps the canonical form: addresses strictly rising, no zero byte listed. -/

namespace Sys2Proof.Machine

theorem wf_nil : Memory.wf [] := ⟨.nil, fun _ h => absurd h (by simp)⟩

theorem wf_filter (m : Mem) (p : Nat × BitVec 8 → Bool) (h : Memory.wf m) : Memory.wf (m.filter p) :=
  ⟨h.1.filter p, fun c hc => h.2 c (List.mem_filter.1 hc).1⟩

/-- Three canonical pieces in rising address ranges make a canonical memory. -/
theorem wf_three (x y z : Mem) (a b : Nat) (hab : a ≤ b) (hx : Memory.wf x) (hy : Memory.wf y) (hz : Memory.wf z)
    (h1 : ∀ c ∈ x, c.1 < a) (h2 : ∀ c ∈ y, a ≤ c.1 ∧ c.1 < b) (h3 : ∀ c ∈ z, b ≤ c.1) : Memory.wf (x ++ y ++ z) := by
  refine ⟨?_, ?_⟩
  · rw [List.pairwise_append, List.pairwise_append]
    refine ⟨⟨hx.1, hy.1, ?_⟩, hz.1, ?_⟩
    · intro c hc e he; have := h1 c hc; have := h2 e he; omega
    · intro c hc e he
      have := h3 e he
      rcases List.mem_append.1 hc with hc | hc
      · have := h1 c hc; omega
      · have := h2 c hc; omega
  · intro c hc
    rcases List.mem_append.1 hc with hc | hc
    · rcases List.mem_append.1 hc with hc | hc
      · exact hx.2 c hc
      · exact hy.2 c hc
    · exact hz.2 c hc

theorem cells_range (a : Nat) (bs : List (BitVec 8)) : ∀ c ∈ cells a bs, a ≤ c.1 ∧ c.1 < a + bs.length := by
  induction bs generalizing a with
  | nil => simp [cells]
  | cons b r ih =>
    intro c hc
    have hr : ∀ c ∈ cells (a + 1) r, a ≤ c.1 ∧ c.1 < a + (b :: r).length := fun c hc => by
      have := ih (a + 1) c hc
      simp only [List.length_cons]; omega
    simp only [cells] at hc
    split at hc
    · exact hr c hc
    · rcases List.mem_cons.1 hc with hc | hc
      · subst hc; simp
      · exact hr c hc

theorem wf_cells (a : Nat) (bs : List (BitVec 8)) : Memory.wf (cells a bs) := by
  induction bs generalizing a with
  | nil => exact wf_nil
  | cons b r ih =>
    simp only [cells]
    split
    · exact ih _
    · rename_i hb
      refine ⟨List.pairwise_cons.2 ⟨?_, (ih _).1⟩, ?_⟩
      · intro c hc; have := cells_range _ _ c hc; omega
      · intro c hc
        rcases List.mem_cons.1 hc with hc | hc
        · subst hc; exact hb
        · exact (ih _).2 c hc

/-- Writing bytes keeps the canonical form. -/
theorem wf_mput (m : Mem) (a : Nat) (bs : List (BitVec 8)) (h : Memory.wf m) : Memory.wf (mput m a bs) :=
  wf_three _ _ _ a (a + bs.length) (by omega) (wf_filter _ _ h) (wf_cells _ _) (wf_filter _ _ h)
    (by intro c hc; simpa using (List.mem_filter.1 hc).2) (cells_range a bs)
    (by intro c hc; simpa using (List.mem_filter.1 hc).2)

/-- Writing a number keeps the canonical form. -/
theorem wf_mputNum (m : Mem) (a n v : Nat) (h : Memory.wf m) : Memory.wf (mputNum m a n v) := wf_mput _ _ _ h

/-- Zeroing a range keeps the canonical form. -/
theorem wf_mzero (m : Mem) (a n : Nat) (h : Memory.wf m) : Memory.wf (mzero m a n) := wf_filter _ _ h

/-- The check of the canonical form says what the form says. -/
theorem mok_iff (m : Mem) : mok m = true ↔ Memory.wf m := by
  induction m with
  | nil => exact ⟨fun _ => wf_nil, fun _ => rfl⟩
  | cons c r ih =>
    cases r with
    | nil => simp [mok, Memory.wf]
    | cons d r =>
      simp only [mok, Bool.and_eq_true, decide_eq_true_eq, bne_iff_ne, ne_eq, ih]
      constructor
      · rintro ⟨⟨h1, h2⟩, h3, h4⟩
        refine ⟨List.pairwise_cons.2 ⟨?_, h3⟩, ?_⟩
        · intro e he
          rcases List.mem_cons.1 he with he | he
          · subst he; exact h2
          · have := (List.pairwise_cons.1 h3).1 e he; omega
        · intro e he
          rcases List.mem_cons.1 he with he | he
          · subst he; exact h1
          · exact h4 e he
      · rintro ⟨h1, h2⟩
        have h3 := List.pairwise_cons.1 h1
        exact ⟨⟨h2 c (by simp), h3.1 d (by simp)⟩, h3.2, fun e he => h2 e (List.mem_cons_of_mem _ he)⟩

theorem wf_mslice (m : Mem) (a n b : Nat) (h : Memory.wf m) : Memory.wf (mslice m a n b) := by
  have hf := wf_filter m (fun c => decide (a ≤ c.1 ∧ c.1 < a + n)) h
  have hr : ∀ c ∈ m.filter (fun c => decide (a ≤ c.1 ∧ c.1 < a + n)), a ≤ c.1 := by
    intro c hc; have := (List.mem_filter.1 hc).2; simp at this; exact this.1
  refine ⟨?_, ?_⟩
  · refine List.pairwise_map.2 (List.Pairwise.imp_of_mem ?_ hf.1)
    intro c e hc he hce
    have := hr c hc; have := hr e he
    show c.1 - a + b < e.1 - a + b
    omega
  · intro c hc
    obtain ⟨e, he, rfl⟩ := List.mem_map.1 hc
    exact hf.2 e he

/-- Copying keeps the canonical form of the destination, whatever the form of the source. -/
theorem wf_mcopy (m src : Mem) (a n b : Nat) (h : Memory.wf m) : Memory.wf (mcopy m src a n b) := by
  unfold mcopy
  split
  · rename_i hs
    refine wf_three _ _ _ b (b + n) (by omega) (wf_filter _ _ h) (wf_mslice _ _ _ _ ((mok_iff src).1 hs)) (wf_filter _ _ h) ?_ ?_ ?_
    · intro c hc; simpa using (List.mem_filter.1 hc).2
    · intro c hc
      obtain ⟨e, he, rfl⟩ := List.mem_map.1 hc
      have := (List.mem_filter.1 he).2
      simp at this
      show b ≤ e.1 - a + b ∧ e.1 - a + b < b + n
      omega
    · intro c hc; simpa using (List.mem_filter.1 hc).2
  · exact wf_mput _ _ _ h

end Sys2Proof.Machine
end

