-- ==== Sys2Proof/Laws/Stores.lean ====
section
/-! SUPPORT. Laws of the control stores: what a write of words changes, and that every operation keeps the canonical form. -/

namespace Sys2Proof.Machine

/-- The parity bits of a range of words are in canonical form. -/
theorem wf_parOf (sz part : Nat) (m : Mem) (a n : Nat) : Memory.wf (parOf sz part m a n) := by
  unfold parOf
  generalize m.filter _ = l
  suffices h : ∀ (l p : Mem), Memory.wf p → Memory.wf (l.foldl (fun p c =>
      if bytePar c.2 then mput p (c.1 / sz) [mget p (c.1 / sz) ^^^ BitVec.ofNat 8 (2 ^ (c.1 % sz / part))] else p) p) from h l [] wf_nil
  intro l
  induction l with
  | nil => intro p h; exact h
  | cons c r ih =>
    intro p h
    refine ih _ ?_
    dsimp only
    split
    · exact wf_mput _ _ _ h
    · exact h

/-- A write of microwords changes the micro store and its parity bits alone. -/
theorem storeU_frame (s : State) (m : Mem) (a n : Nat) :
    storeU s m a n = { s with ust := (storeU s m a n).ust, upar := (storeU s m a n).upar } := rfl

/-- A write of nanowords changes the nano store and its parity bits alone. -/
theorem storeN_frame (s : State) (m : Mem) (a n : Nat) :
    storeN s m a n = { s with nst := (storeN s m a n).nst, npar := (storeN s m a n).npar } := rfl

@[simp] theorem storeU_dk (s : State) (m : Mem) (a n : Nat) : (storeU s m a n).dk = s.dk := rfl
@[simp] theorem storeN_dk (s : State) (m : Mem) (a n : Nat) : (storeN s m a n).dk = s.dk := rfl
@[simp] theorem storeU_md (s : State) (m : Mem) (a n : Nat) : (storeU s m a n).md = s.md := rfl
@[simp] theorem storeN_md (s : State) (m : Mem) (a n : Nat) : (storeN s m a n).md = s.md := rfl
@[simp] theorem storeU_nst (s : State) (m : Mem) (a n : Nat) : (storeU s m a n).nst = s.nst := rfl
@[simp] theorem storeN_ust (s : State) (m : Mem) (a n : Nat) : (storeN s m a n).ust = s.ust := rfl
@[simp] theorem storeU_npar (s : State) (m : Mem) (a n : Nat) : (storeU s m a n).npar = s.npar := rfl
@[simp] theorem storeN_upar (s : State) (m : Mem) (a n : Nat) : (storeN s m a n).upar = s.upar := rfl
@[simp] theorem storeU_vat (s : State) (m : Mem) (a n : Nat) : (storeU s m a n).vat = s.vat := rfl
@[simp] theorem storeN_vat (s : State) (m : Mem) (a n : Nat) : (storeN s m a n).vat = s.vat := rfl

/-- The four memories of the control stores are in canonical form. -/
def StoresWf (s : State) : Prop := Memory.wf s.ust ∧ Memory.wf s.upar ∧ Memory.wf s.nst ∧ Memory.wf s.npar

theorem wf_storeU (s : State) (m : Mem) (a n : Nat) (h : StoresWf s) : StoresWf (storeU s m a n) :=
  ⟨wf_mcopy _ _ _ _ _ h.1, wf_mcopy _ _ _ _ _ h.2.1, h.2.2.1, h.2.2.2⟩

theorem wf_storeN (s : State) (m : Mem) (a n : Nat) (h : StoresWf s) : StoresWf (storeN s m a n) :=
  ⟨h.1, h.2.1, wf_mcopy _ _ _ _ _ h.2.2.1, wf_mcopy _ _ _ _ _ h.2.2.2⟩

theorem wf_writeStore (s : State) (nano : Bool) (a : Nat) (bs : List (BitVec 8)) (h : StoresWf s) : StoresWf (writeStore s nano a bs) := by
  unfold writeStore
  split
  · exact wf_storeN _ _ _ _ h
  · exact wf_storeU _ _ _ _ h

/-- An upset keeps the canonical form. -/
theorem wf_upset (s : State) (x : Upset) (h : StoresWf s) : StoresWf (upset s x) := by
  unfold upset turnBit
  split <;> split
  · exact ⟨h.1, h.2.1, wf_mput _ _ _ h.2.2.1, h.2.2.2⟩
  · exact ⟨h.1, h.2.1, h.2.2.1, wf_mput _ _ _ h.2.2.2⟩
  · exact ⟨wf_mput _ _ _ h.1, h.2.1, h.2.2.1, h.2.2.2⟩
  · exact ⟨h.1, wf_mput _ _ _ h.2.1, h.2.2.1, h.2.2.2⟩

theorem wf_rewriteVendor (s : State) (h : StoresWf s) : StoresWf (rewriteVendor s) := wf_storeN _ _ _ _ (wf_storeU _ _ _ _ h)

/-- The vendor image written by LOAD leaves the stores in canonical form. -/
theorem wf_writeVendor (s : State) (h : StoresWf s) : StoresWf (writeVendor s) := by
  have hrec : ∀ (l : List PatchRec) (s : State), StoresWf s → StoresWf (l.foldl (fun s r => writeStore s r.nano r.addr r.bytes) s) := by
    intro l
    induction l with
    | nil => intro s h; exact h
    | cons r t ih => intro s h; exact ih _ (wf_writeStore _ _ _ _ h)
  unfold writeVendor
  suffices hx : ∀ (l : List Image) (s : State), StoresWf s → StoresWf (l.foldl writeImage s) from hx _ _ h
  intro l
  induction l with
  | nil => intro s h; exact h
  | cons x t ih => intro s h; exact ih _ (hrec _ _ h)

end Sys2Proof.Machine
end

