-- ==== Sys2Proof/WellFormed.lean ====
section
/-! DEFINITION. Well-formed commands: every operand lies in the range that its sender can send, a byte of a line below 256, a
field of an event below the width the spec gives it. Ranges that a command line may break are no part of this: the module checks
and answers those (R121, R122). -/

namespace Sys2Proof

open Machine

/-- R116 | the characters of a line are bytes -/
def lineWf (t : List Nat) : Bool := t.all (fun b => b < 256)

/-- R116 | a command line -/
def Machine.Hdr.wf (h : Hdr) : Bool := lineWf h.text

/-- R141 | a line of a DATA block -/
def Machine.BlkRow.wf (r : BlkRow) : Bool := lineWf r.text

/-- R141 | a DATA block, whose CRC has 8 hex digits -/
def Machine.Blk.wf (b : Blk) : Bool := b.hdr.row.wf && b.rows.all BlkRow.wf && b.fin.wf && decide (b.crc < 2 ^ 32)

/-- R120 | a secret has no more bits than its hex digits spell -/
def Machine.Sec.wf (x : Sec) : Bool := x.val < 16 ^ x.digits

/-- R306 | the payload of a patch, decrypted, is bytes -/
def Machine.Container.wf (c : Container) : Bool := lineWf c.plain

/-- R286 | a bit of a word that its store has -/
def Machine.Upset.wf (x : Upset) : Bool := if x.nano then x.addr < 4096 && x.bit < 130 else x.addr < 16384 && x.bit < 33

/-- R294 | fields of a nanoword as the control store holds them -/
def Machine.AluF.wf (f : AluF) : Bool := f.asel < 32 && f.bsel < 32 && f.dsel < 32 && f.u0op < 4 && f.u1op < 4 && f.imm < 131072 && f.k16 < 65536

/-- R239 | the fields of a chain frame, and the fine part of a stamp (R236) -/
def Machine.Frame.wf (f : Frame) : Bool :=
  f.ty < 16 && f.hop < 8 && f.tb < 2 ^ 64 && f.group < 16 && f.arg < 2 ^ 64 && f.rsv < 2 ^ 29 && f.fine < 1024 && f.sync < 2 ^ 16 && f.crc < 2 ^ 16

/-- R22 | a deckle or an observer identity that a login names -/
def Machine.Target.wf : Target → Bool
  | .deckle d => d < 8
  | .owner => true
  | .observer n => n < 8

/-- R135 | a tag memory of a deckle, of the owner or of a session -/
def Machine.TagMem.wf : TagMem → Bool
  | .deckle d => d < 8
  | .owner => true
  | .session l => l < 10

/-- R416 | binary32 bit patterns -/
def Machine.DpsMeas.wf (m : DpsMeas) : Bool := m.vs < 2 ^ 32 && m.vf < 2 ^ 32 && m.io < 2 ^ 32

/-- R207 | an observation names a channel and a sheet of a quire -/
def Machine.PinObs.wf (o : PinObs) : Bool := o.ch < 48 && o.sheet < 32

/-- Whether every operand of a command lies in the range that its sender can send. -/
def Instr.wf : Instr → Bool
  | .powerInputRise _ => true
  | .railsInTolerance _ => true
  | .firmwareSlotVerify _ => true
  | .fBootRepeat _ => true
  | .verifyComplete _ => true
  | .loadComplete _ _ => true
  | .selfTestComplete _ _ => true
  | .slotRestoreComplete _ _ => true
  | .ownerClearWindowEnd _ => true
  | .powerLoss _ => true
  | .holdUpEnd _ => true
  | .resetNLow _ => true
  | .resetNHigh _ => true
  | .fPwr _ => true
  | .fHot _ => true
  | .fSupply _ => true
  | .coreWarm _ => true
  | .supplyRailCore _ => true
  | .supplyRailInput _ _ => true
  | .inputCurrentLimit _ => true
  | .warmSet _ => true
  | .warmLost _ => true
  | .acceptDegraded h _ => h.wf
  | .keeperLoad _ => true
  | .usbDtrSet _ _ => true
  | .usbDtrClear _ _ => true
  | .usbBusLoss _ => true
  | .conBreak _ => true
  | .idleTimeout _ _ => true
  | .sendBlockedTimeout _ _ => true
  | .xoffReceived _ _ => true
  | .xonReceived _ _ => true
  | .conOverrun _ => true
  | .unknownCommand h => h.wf
  | .dataBlockTimeout h hdr rows => h.wf && hdr.row.wf && rows.all BlkRow.wf
  | .dataBlockAbort h hdr rows => h.wf && hdr.row.wf && rows.all BlkRow.wf
  | .tagEntryExpiry _ mem => mem.wf
  | .hello h => h.wf
  | .helloEcho h blk => h.wf && blk.wf
  | .help h _ => h.wf
  | .ident h => h.wf
  | .identCert h => h.wf
  | .identAttest h nonce => h.wf && nonce.wf
  | .status h => h.wf
  | .statusMeter h => h.wf
  | .selftest h => h.wf
  | .time h => h.wf
  | .mode h => h.wf
  | .modeMachine h => h.wf
  | .modeTyped h => h.wf
  | .modeSeal h => h.wf
  | .modeEcho h _ => h.wf
  | .modeXon h _ => h.wf
  | .modeIdle h _ => h.wf
  | .modeBaud h _ => h.wf
  | .baudChangeApply _ => true
  | .ownerTake h key => h.wf && key.wf
  | .ownerRekey h w c => h.wf && w.wf && c.wf
  | .ownerObserverKey h _ w c => h.wf && w.wf && c.wf
  | .ownerRelease h => h.wf
  | .ownerClear h => h.wf
  | .deckleKey h _ w c => h.wf && w.wf && c.wf
  | .login h target => h.wf && target.wf
  | .loginResp h a => h.wf && a.wf
  | .loginReply _ _ => true
  | .nonceExpiry _ _ => true
  | .lockoutExpiry _ target => target.wf
  | .loginRekey h w c => h.wf && w.wf && c.wf
  | .logout h => h.wf
  | .atSchedule h _ _ _ => h.wf
  | .atActionDue _ _ _ => true
  | .atCancel h _ => h.wf
  | .deckleOpen h _ _ => h.wf
  | .couchComplete _ _ => true
  | .deckleGrant h _ _ => h.wf
  | .deckleClose h _ => h.wf
  | .deckleReclaim h _ => h.wf
  | .zeroingComplete _ _ => true
  | .deckleRearm h => h.wf
  | .deckleList h _ => h.wf
  | .furnishSeal h => h.wf
  | .furnishLoad h _ => h.wf
  | .furnishSave h _ => h.wf
  | .furnishStart h _ => h.wf
  | .furnishDrop h _ => h.wf
  | .slotEraseComplete _ _ => true
  | .furnishSlots h => h.wf
  | .furnishSet h _ => h.wf
  | .furnishRevert h => h.wf
  | .furnishShow h _ _ => h.wf
  | .arm h => h.wf
  | .run h => h.wf
  | .trig h => h.wf
  | .stop h => h.wf
  | .quireBoundaryStop _ _ => true
  | .stopOff h => h.wf
  | .stopOffComplete _ _ => true
  | .press h => h.wf
  | .pressBoundary _ _ => true
  | .pressNoboundary _ _ => true
  | .paceSet h _ => h.wf
  | .paceReached _ => true
  | .pace h => h.wf
  | .monitorWindowEnd _ ratio => 0 ≤ ratio
  | .headboxQuireWrite _ _ => true
  | .quireDecision _ _ obs => obs.all PinObs.wf
  | .failOutFall _ => true
  | .failOutRemapApply _ => true
  | .trigOutFall _ _ => true
  | .brokeDrain _ _ _ => true
  | .opNop _ _ => true
  | .opHalt _ _ => true
  | .opRun _ _ => true
  | .opMatch _ _ => true
  | .opWaitt _ _ => true
  | .opLoop _ _ => true
  | .opEndl _ _ => true
  | .opJump _ _ => true
  | .opCall _ _ => true
  | .opRet _ _ => true
  | .opBrfail _ _ => true
  | .opMark _ _ => true
  | .opLearn _ _ => true
  | .opTsel _ _ => true
  | .opCustom _ _ => true
  | .resultWaitRelease _ _ => true
  | .umodeSeq _ _ up => up.all Upset.wf
  | .umodeJmp _ _ up => up.all Upset.wf
  | .umodeCall _ _ up => up.all Upset.wf
  | .umodeRet _ _ up => up.all Upset.wf
  | .umodeBr _ _ up => up.all Upset.wf
  | .umodeMway _ _ up => up.all Upset.wf
  | .umodeLoop _ _ up => up.all Upset.wf
  | .umodeWait _ _ up => up.all Upset.wf
  | .vendorReloadComplete _ _ _ => true
  | .aluNop _ _ f => f.wf
  | .aluPass _ _ f => f.wf
  | .aluAdd _ _ f => f.wf
  | .aluAdc _ _ f => f.wf
  | .aluSub _ _ f => f.wf
  | .aluSbc _ _ f => f.wf
  | .aluAnd _ _ f => f.wf
  | .aluOr _ _ f => f.wf
  | .aluXor _ _ f => f.wf
  | .aluAndn _ _ f => f.wf
  | .aluShl _ _ f => f.wf
  | .aluShr _ _ f => f.wf
  | .aluAsr _ _ f => f.wf
  | .aluRor _ _ f => f.wf
  | .aluCmp _ _ f => f.wf
  | .aluTst _ _ f => f.wf
  | .aluMin _ _ f => f.wf
  | .aluMax _ _ f => f.wf
  | .aluClz _ _ f => f.wf
  | .aluPopc _ _ f => f.wf
  | .portMrd _ _ _ _ => true
  | .portMwr _ _ _ _ => true
  | .portDisp _ _ _ _ _ => true
  | .portQpop _ _ _ => true
  | .portQpush _ _ _ => true
  | .portEvent _ _ _ _ => true
  | .seqctlTsel _ _ _ => true
  | .seqctlMark _ _ _ _ => true
  | .seqctlHalt _ _ => true
  | .portTbset _ _ _ => true
  | .portShwr _ _ _ _ _ _ _ => true
  | .portStew _ _ _ => true
  | .dpsTargetReg _ _ _ _ => true
  | .dpsFfofsReg _ _ _ _ => true
  | .auxPlayReg _ _ _ _ => true
  | .auxHaltReg _ _ _ _ => true
  | .adcStartReg _ _ _ _ => true
  | .tmuStartReg _ _ _ _ => true
  | .tmuHaltReg _ _ _ _ => true
  | .instrOtherReg _ _ _ _ => true
  | .microImage h _ _ blk img => h.wf && blk.wf && img.wf
  | .microImageList h => h.wf
  | .microImageDrop h _ => h.wf
  | .microLoad h _ _ blk => h.wf && blk.wf
  | .microWord h _ _ _ => h.wf
  | .microDispatchWrite h _ _ => h.wf
  | .microDispatchList h => h.wf
  | .microRead h _ _ _ => h.wf
  | .microCheck h => h.wf
  | .microClear h => h.wf
  | .bankStripe h _ => h.wf
  | .dataSheets h _ _ blk => h.wf && blk.wf
  | .dataSheet h _ _ _ _ _ => h.wf
  | .dataRead h _ _ => h.wf
  | .seqBank h _ => h.wf
  | .seqLoad h _ blk => h.wf && blk.wf
  | .seqOp h _ _ => h.wf
  | .seqEntry h _ => h.wf
  | .seqList h _ => h.wf
  | .seqCost h => h.wf
  | .ref h => h.wf
  | .refSelect h _ _ => h.wf
  | .loopLock _ => true
  | .refinUsable _ _ => true
  | .refLost _ => true
  | .timebaseHold _ => true
  | .trigInEdge _ _ fine => fine < 1024
  | .chain h => h.wf
  | .chainRole h _ _ => h.wf
  | .chainCal h => h.wf
  | .chainGroup h _ _ _ => h.wf
  | .chainFrameSend _ => true
  | .heartbeatFrame _ f => f.wf
  | .groupStartFrame _ f => f.wf
  | .calibrationFrame _ f => f.wf
  | .chainLost _ lane => lane < 2
  | .chainTbLoad _ => true
  | .tsetCount h _ => h.wf
  | .tsetPeriod h _ _ => h.wf
  | .tsetPinFields h _ _ _ => h.wf
  | .tsetCopy h _ _ => h.wf
  | .tsetShow h _ _ => h.wf
  | .tsetDeskew h _ _ => h.wf
  | .tsetDeskewMeasure h _ => h.wf
  | .tsetDeskewShow h => h.wf
  | .fDll _ _ => true
  | .dllLocked _ _ => true
  | .pinName h _ _ => h.wf
  | .pinRest h _ _ => h.wf
  | .pinShow h _ => h.wf
  | .level h _ _ => h.wf
  | .levelPmu h _ _ => h.wf
  | .levelShow h _ => h.wf
  | .levelTick _ => true
  | .rangeDwellEnd _ _ => true
  | .pmuReconnectEnd _ _ => true
  | .fPinDrvi _ _ => true
  | .pmuClampLimit _ _ _ => true
  | .feWarm _ _ => true
  | .fPinHot _ _ => true
  | .broke h => h.wf
  | .brokeShow h _ _ => h.wf
  | .brokeRead h _ _ => h.wf
  | .brokeCount h _ => h.wf
  | .brokeClear h => h.wf
  | .capture h => h.wf
  | .captureShow h _ _ => h.wf
  | .captureRead h _ _ => h.wf
  | .captureClear h => h.wf
  | .bankPower h _ _ => h.wf
  | .bankZero h _ => h.wf
  | .bankShow h _ => h.wf
  | .bankPool h => h.wf
  | .dpsFields h _ _ => h.wf
  | .dpsMatrix h _ _ _ => h.wf
  | .dpsFftable h _ _ blk => h.wf && blk.wf
  | .dpsShow h _ => h.wf
  | .dpsTarget h _ _ => h.wf
  | .dpsFfofs h _ _ => h.wf
  | .dpsRead h _ => h.wf
  | .learnParams h _ _ => h.wf
  | .learnRead h _ => h.wf
  | .learnLoad h _ blk => h.wf && blk.wf
  | .learnClear h _ => h.wf
  | .controlPeriod _ _ m => m.wf
  | .fDpsOv _ _ => true
  | .fDpsHot _ _ => true
  | .dpsClampLimit _ _ _ => true
  | .dpsRangeDwellEnd _ _ => true
  | .auxFields h _ _ => h.wf
  | .auxEntry h _ _ _ => h.wf
  | .auxListWrite h _ _ blk => h.wf && blk.wf
  | .auxListRead h _ _ _ => h.wf
  | .auxShow h _ => h.wf
  | .auxPlay h _ => h.wf
  | .auxHalt h _ => h.wf
  | .auxRead h _ => h.wf
  | .auxStartTick _ _ => true
  | .auxEntryBoundary _ _ => true
  | .auxListEnd _ _ => true
  | .mkFall _ _ => true
  | .auxSpanDwellEnd _ _ => true
  | .adcFields h _ _ => h.wf
  | .adcEntry h _ _ _ => h.wf
  | .adcSources h => h.wf
  | .adcShow h _ => h.wf
  | .adcStart h _ => h.wf
  | .adcResults h _ _ => h.wf
  | .adcRead h _ _ => h.wf
  | .adcStatus h _ => h.wf
  | .adcTimerTick _ _ => true
  | .adcScanStart _ _ => true
  | .adcConversionDone _ _ _ => true
  | .tmuFields h _ _ => h.wf
  | .tmuShow h _ => h.wf
  | .tmuStart h _ => h.wf
  | .tmuHalt h _ => h.wf
  | .tmuClear h _ => h.wf
  | .tmuStat h _ => h.wf
  | .tmuResults h _ _ => h.wf
  | .tmuRead h _ _ => h.wf
  | .tmuStatus h _ => h.wf
  | .tmuStartEdge _ _ _ _ => true
  | .tmuStopEdge _ _ _ _ => true
  | .tmuTimeout _ _ => true
  | .tmuFreqStamp _ _ _ _ _ => true
  | .tmuGateClose _ _ => true
  | .fTmuLock _ _ => true
  | .tmuRelock _ _ => true
  | .eventMapEvt h _ _ _ _ => h.wf
  | .eventMapModule h _ _ _ => h.wf
  | .eventMapTrigOut h _ _ _ => h.wf
  | .eventMapFailOut h _ => h.wf
  | .eventMapMk h _ _ => h.wf
  | .eventUnmap h _ => h.wf
  | .eventClear h _ => h.wf
  | .eventShow h => h.wf
  | .eventGrantPort h => h.wf
  | .eventRevokePort h => h.wf
  | .evtPulseEnd _ _ => true
  | .eventLineSend _ _ => true
  | .trace h _ => h.wf
  | .traceShow h _ _ _ => h.wf
  | .traceRead h _ _ _ => h.wf
  | .traceSelect h _ => h.wf
  | .traceGrantPort h => h.wf
  | .traceRevokePort h => h.wf
  | .traceGrantObserver h _ => h.wf
  | .traceRevokeObserver h _ => h.wf
  | .traceEnable h _ _ => h.wf
  | .traceDisable h _ _ => h.wf
  | .tracePort h _ _ => h.wf
  | .traceSlot _ => true
  | .count h _ _ => h.wf
  | .countModule h _ => h.wf
  | .countClear h _ => h.wf
  | .moduleCounterUpdate _ _ => true
  | .lineEditing _ _ b => b < 256
  | .armComplete _ _ => true
  | .furnishSaveComplete _ _ => true
  | .microImageStored _ => true
  | .deskewMeasureComplete _ _ res => res.all (fun r => r.ch < 48)
  | .bankZeroComplete _ _ => true

end Sys2Proof
end

