-- ==== Sys2Proof/Tests/Slice0.lean ====
section
/-! SUPPORT. States and lines that the tests use, a witness for the hypotheses of every statement (a conjunct for each clause), ill-formed
commands that the checks of well-formedness refuse, and small tests from the spec's worked examples. -/

namespace Sys2Proof.Tests

open Sys2Proof.Machine

set_option Elab.async false

/-- A line on CON, and one on USB0. -/
def hO : Hdr := { text := [65] }
def hT : Hdr := { line := 1, text := [65] }

/-- The module right after reset in another state. -/
def bare (m : ModState) : State := { State.reset with md := { State.reset.md with st := m } }

/-- A READY module, locked to its own reference. -/
def rdy : State :=
  { State.reset with md := { State.reset.md with st := .ready, usb := true }, rf := { tb := 1000000, run := true, lock := .locked, active := some .int } }

/-- A READY module with one session. -/
def one (l : Nat) (r : Role) : State := { rdy with ln := [(l, { up := true, role := r })] }

def grant0 : Grant := { ch := [0, 1], banks := [0, 1], dps := [0], aux := [0], adc := [0], tmu := [0], share := 1, slots := 1 }

def furn0 : Furnish := { stripe := [0], prog := some 1, loaded := [(1, 1)] }

/-- Deckle D0 in a state, with its units. -/
def dkS (t : DkState) : Deckle := { st := t, grant := grant0, work := furn0, act := furn0, shad := furn0 }

/-- A READY module with a tenant of D0 on USB0. -/
def ten (k : Deckle) : State := { one 1 (.tenant 0) with dk := [(0, k)], bk := [(0, { own := some 0 }), (1, { own := some 0 })] }

/-- `Arrives`, decided. -/
def arrB (h : Hdr) (s : State) : Bool :=
  s.resume.isNone && (getLn s h.line).up && !(getLn s h.line).skip && (getLn s h.line).slots.isEmpty && (heldReady s).isEmpty &&
    decide ((seen h s).text.length ≤ 1024) && lineChars h.text && (badTag (seen h s).text).isNone && !(tokens (seen h s).text).isEmpty &&
    macOk (getLn s h.line) h.text

theorem arr {h : Hdr} {s : State} (hb : arrB h s = true) : Arrives h s := by
  simp only [arrB, Bool.and_eq_true, Bool.not_eq_true', decide_eq_true_eq, List.isEmpty_iff, Option.isNone_iff_eq_none] at hb
  obtain ⟨⟨⟨⟨⟨⟨⟨⟨⟨h1, h2⟩, h3⟩, h4⟩, h5⟩, h6⟩, h7⟩, h8⟩, h9⟩, h10⟩ := hb
  exact ⟨h1, h2, h3, h4, h5, h6, h7, h8, h9, h10⟩

/-- `Accepts`, decided. -/
def accB (f : Form) (h : Hdr) (s : State) : Bool :=
  arrB h s && (match lineTag (seen h (begun h s)).text with
    | none => true
    | some t => (findTag (begun h s) (tagMemOf h.line (getLn (begun h s) h.line).role) t).isNone) &&
    (match precheck f (seen h s) (begun h s) with | .ok _ => true | .error _ => false)

theorem acc {f : Form} {h : Hdr} {s : State} (hb : accB f h s = true) : Accepts f h s := by
  simp only [accB, Bool.and_eq_true] at hb
  obtain ⟨⟨h1, h9⟩, h10⟩ := hb
  refine ⟨arr h1, ?_, fun t ht => by rw [ht] at h9; simpa using h9⟩
  split at h10
  · rename_i x hx; exact hx
  · cases h10

/-- The DATA block of a payload. -/
def blkOf (p : List Nat) : Blk :=
  { hdr := { row := { text := [68] }, n := p.length }, rows := (chunk57 p.length p).map (fun r => { text := b64Enc r }), fin := { text := [69] }, crc := crc32 p }

theorem blkIs {h : Hdr} {s : State} {p : List Nat}
    (hb : (!(blkMacs (begun h s) h.line (blkAll (blkOf p))).2 && decide (1 ≤ p.length ∧ p.length ≤ 1048576) &&
      decide ((getLn s h.line).sm = none) && (match blkDecode p.length 0 (blkOf p).rows with | .ok q => q == p | .error _ => false) &&
      decide ((blkOf p).rows.length = blkRows p.length)) = true) : BlkIs h (blkOf p) s p := by
  simp only [Bool.and_eq_true, Bool.not_eq_true', decide_eq_true_eq] at hb
  obtain ⟨⟨⟨⟨h1, h2⟩, h0⟩, h3⟩, h4⟩ := hb
  refine ⟨h1, h2, ?_⟩
  rw [h0]
  show blkBytes (blkOf p) = .ok p
  split at h3
  · rename_i q hq
    have : q = p := by simpa using h3
    subst this
    unfold blkBytes
    rw [show (blkOf q).hdr.n = q.length from rfl, hq, res_bind_ok, need_ok _ _ (by simpa using h4), res_bind_ok, need_ok _ _ (by simp [blkOf]), res_bind_ok]
    rfl
  · cases h3

theorem accBlk {f : Form} {h : Hdr} {b : Blk} {s : State}
    (hb : (accB f h s && (match precheck f (seen h s) (begunBlk h b s) with | .ok _ => true | .error _ => false) &&
      (match lineTag (seen h (begunBlk h b s)).text with | none => true | some _ => false)) = true) : AcceptsBlk f h b s := by
  simp only [Bool.and_eq_true] at hb
  obtain ⟨⟨h1, h2⟩, h3⟩ := hb
  refine ⟨acc h1, ?_, fun t ht => by rw [ht] at h3; cases h3⟩
  split at h2
  · rename_i x hx; exact hx
  · cases h2

/-- A list item of one unit. -/
def u1 (k : UKind) (n : Nat) : URange := { k1 := k, a := n, k2 := k, b := n }

/-- A session that holds a login nonce, of the role whose key is 0. -/
def keyed (l : Nat) (r : Role) : State :=
  { one l r with nv := { owner := some {}, dk := [(0, {})], obs := [(0, {})] }, ln := [(l, { up := true, role := r, nonce := some 1, prov := l != 0 })] }

/-- A wrapped key that the key 0 and the nonce 1 open, and its check. -/
def keyOf (label : String) : Nat := 0 ^^^ hmacNum 0 (nonceBytes 1 ++ strBytes label)
def wrapped : Sec := { val := 0, digits := 64 }
def checkOf (label : String) : Sec := { val := hmacNum (keyOf label) (nonceBytes 1) / 2 ^ 192, digits := 16 }

theorem unwraps {s : State} {h : Hdr} (label : String) (pos : Nat) (hn : (getLn s h.line).nonce = some 1)
    (hk : roleKey s (getLn s h.line).role = some {}) : unwrapKey s h label pos wrapped (checkOf label) = .ok (keyOf label) := by
  unfold unwrapKey
  rw [need_ok _ _ (by rfl), res_bind_ok, need_ok _ _ (by rfl), res_bind_ok]
  dsimp only
  rw [hn, hk]
  dsimp only
  rw [need_ok _ _ (by simp [checkOf, keyOf, wrapped]), res_bind_ok]
  rfl

/-- A deckle with channels and banks only. -/
def plainK (t : DkState) : Deckle := { st := t, grant := { ch := [0, 1], banks := [0, 1], share := 1 }, work := furn0, act := furn0, shad := furn0 }

/-- A program of four quires and HALT in bank V1, and a furnish that names it. -/
def furn1 : Furnish := { furn0 with loaded := [(1, 2)] }
def plain1 (t : DkState) : Deckle := { plainK t with work := furn1, act := furn1, shad := furn1 }
def tenP (k : Deckle) : State := { ten k with vat := mputNum (mputNum [] (2 ^ 20) 8 (0x10 * 2 ^ 56 + 3)) (2 ^ 20 + 8) 8 (2 ^ 56) }

theorem okGet {r : Res α} (h : r.toOption.isSome = true) : r = .ok (r.toOption.get h) := by
  cases r with
  | error e => cases h
  | ok a => rfl

theorem okGet2 {r : Res (α × β)} (h : r.toOption.isSome = true) : r = .ok ((r.toOption.get h).1, (r.toOption.get h).2) := okGet h

theorem okGet3 {r : Res (α × β × γ)} (h : r.toOption.isSome = true) :
    r = .ok ((r.toOption.get h).1, (r.toOption.get h).2.1, (r.toOption.get h).2.2) := okGet h

/-- The op of a code with no operands, alone in bank V1. -/
def opW (c : Nat) : Op := { code := c }

theorem atOp {dt : Nat} {d : Fin 8} {s : State} {o : Op}
    (hb : (threadOk (advance s dt) (getDk s d) && !(getDk s d).thr.cust && (getDk s d).act.prog == some 1 && decide ((getDk s d).thr.ip < (getDk s d).act.nops) &&
      (bankErr (advance s dt) (opAddr 1 (getDk s d).thr.ip) 8).isNone && decide (readOp (advance s dt) (getDk s d).act (getDk s d).thr.ip = o)) = true) : AtOp dt d s o := by
  simp only [Bool.and_eq_true, Bool.not_eq_true', decide_eq_true_eq, beq_iff_eq, Option.isNone_iff_eq_none] at hb
  obtain ⟨⟨⟨⟨⟨h1, h2⟩, h3⟩, h4⟩, h5⟩, h6⟩ := hb
  refine ⟨h1, h2, ?_⟩
  unfold fetchOp
  have hg : getDk (advance s dt) d = getDk s d := rfl
  dsimp only
  rw [hg, h3]
  dsimp only
  rw [if_neg (by omega), h5, h6]

theorem atPart {dt : Nat} {d : Fin 8} {s : State} {n : NWord}
    (hb : (threadOk (advance s dt) (getDk s d) && (getDk s d).thr.wait.isNone && (partFence (getDk s d) d n).isNone && (portWait (getDk s d) n).isNone) = true) :
    AtPart dt d s n := by
  simp only [Bool.and_eq_true, Option.isNone_iff_eq_none] at hb
  obtain ⟨⟨⟨h1, h2⟩, h3⟩, h4⟩ := hb
  exact ⟨h1, h2, h3, h4⟩

/-- A RUNNING deckle whose thread runs, and the same in customer code at the first word of its slice, the word having a mode and an argument. -/
def runK : Deckle := { dkS .running with thr := { active := true } }
def ucode (m a : Nat) (ms : List UEntry) : State :=
  writeStore (ten { dkS .running with thr := { active := true, cust := true, upc := 0x2000, ms := ms } }) false 0x2000 (leBytes 4 (0x800 * 2 ^ 20 + m * 2 ^ 17 + a))

theorem atWord {dt : Nat} {d : Fin 8} {s : State} {x : UWord} {n : NWord}
    (hb : (threadOk (advance s dt) (getDk s d) && (getDk s d).thr.cust && decide (fetchBad (advance s dt) (getDk s d).thr.upc = (false, false)) && decide (readU (advance s dt) (getDk s d).thr.upc = x) &&
      decide (readN (advance s dt) x.nano = n) &&
      (if vendorWord (getDk s d).thr.upc then none else fence (runCtx (getDk s d) d (x.targets (getDk s d).thr.upc)) x n).isNone &&
      decide (x.mode = 2 → (getDk s d).thr.ms.length < 8) && decide (x.mode = 3 → (getDk s d).thr.ms.isEmpty = false) &&
      (stepWait (advance s dt) (getDk s d) x n).isNone) = true) : AtWord dt d s x n := by
  simp only [Bool.and_eq_true, decide_eq_true_eq, Option.isNone_iff_eq_none] at hb
  obtain ⟨⟨⟨⟨⟨⟨⟨⟨h1, h2⟩, h0⟩, h3⟩, h4⟩, h5⟩, h6⟩, h7⟩, h8⟩ := hb
  exact ⟨h1, h2, h0, h3, h4, h5, h6, h7, h8⟩

/-! ### Witnesses -/

theorem witness_StartCompletes :
    (∃ (_dt : Nat) (s : State), s.md.power = false) ∧
    (∃ (_dt : Nat) (s : State), s.md.st = .powerOn) ∧
    (∃ (_dt : Nat) (s : State) (b : Bool) (fw : Image), s.md.st = .boot ∧ s.md.fboot = false ∧ bootSlot s = some (b, fw) ∧ s.md.early = none) ∧
    (∃ (_dt : Nat) (s : State), s.md.st = .boot ∧ s.md.fboot = false ∧ bootSlot s = none) ∧
    (∃ (_dt : Nat) (s : State), s.md.st = .boot ∧ s.md.fboot = true) ∧
    (∃ (_dt : Nat) (s : State), s.md.st = .verify ∧ imagesOk s = true) ∧
    (∃ (_dt : Nat) (s : State), s.md.st = .load) ∧
    (∃ (_dt : Nat) (obs : List ItemObs) (s : State), s.md.st = .selfTest ∧ s.md.latch = false ∧ (testItems.map (reportItem obs)).all (fun r => r.v = .pass) = true) ∧
    (∃ (_dt : Nat) (_d : Fin 8) (s : State), (s.md.st = .warming ∨ s.md.st = .ready)) ∧
    (∃ (dt : Nat) (s : State) (t : Nat), s.md.endT = some t ∧ t + 30 * Config.sec ≤ s.wall + dt) :=
  ⟨⟨0, { State.reset with md := { State.reset.md with power := false } }, by decide +kernel⟩,
    ⟨0, State.reset, by decide +kernel⟩,
    ⟨0, bare .boot, _, _, by decide +kernel, by decide +kernel, rfl, by decide +kernel⟩,
    ⟨0, { bare .boot with nv := { fwA := none } }, by decide +kernel, by decide +kernel, by decide +kernel⟩,
    ⟨0, { State.reset with md := { State.reset.md with st := .boot, fboot := true } }, by decide +kernel, by decide +kernel⟩,
    ⟨0, bare .verify, by decide +kernel, by decide +kernel⟩,
    ⟨0, bare .load, by decide +kernel⟩,
    ⟨0, [], bare .selfTest, by decide +kernel, by decide +kernel, by decide +kernel⟩,
    ⟨0, 0, rdy, by decide +kernel⟩,
    ⟨30 * Config.sec, { State.reset with md := { State.reset.md with endT := some 0 } }, _, rfl, by decide +kernel⟩⟩

theorem witness_ModuleEventsComplete :
    (∃ (_dt : Nat) (s : State), s.md.power = true) ∧
    (∃ (dt : Nat) (s : State) (t : Nat), s.md.holdUp = some t ∧ s.md.power = false ∧ t + 2 * Config.ms ≤ s.wall + dt) ∧
    (∃ (_dt : Nat) (s : State), s.md.power = true ∧ s.md.st ≠ .inReset) ∧
    (∃ (_dt : Nat) (s : State), s.md.st = .inReset) ∧
    (∃ (_dt : Nat) (s : State), (s.md.st = .degraded ∨ s.md.st = .warming ∨ s.md.st = .ready)) ∧
    (∃ (_dt : Nat) (s : State), linesOpen s = true) ∧
    (∃ (_dt : Nat) (mv : Nat) (s : State), linesOpen s = true ∧ (mv < 19800 ∨ 28200 < mv)) ∧
    (∃ (_dt : Nat) (s : State), s.nv.variant = .o ∧ s.md.power = true ∧ s.rf.lock = .locked ∧ s.rf.active = some .int) ∧
    (∃ (_dt : Nat) (s : State), s.nv.variant = .o ∧ s.rf.lock = .locked ∧ s.rf.active = some .int) ∧
    (∃ (_dt : Nat) (s : State), s.md.keeper = true) ∧
    (∃ (h : Hdr) (units : List String) (s : State) (r : State), Accepts { word := "ACCEPT", roles := [.o] } h s ∧ (begun h s).md.st = .degraded ∧ units ≠ [] ∧ namesExactly units (failedUnits (begun h s)) = true ∧ r = replied h [] (begun h s) (let u := units.foldl withdraw (begun h s); { u with md := { u.md with withdrawn := units } }) [] ([w "OK", w "ACCEPT", w "DEGRADED"] ++ units.map w) ∧ r.md.st = .degraded ∧ r.md.withdrawn = units) :=
  ⟨⟨0, rdy, by decide +kernel⟩,
    ⟨2 * Config.ms, { State.reset with md := { State.reset.md with power := false, holdUp := some 0 } }, _, rfl, by decide +kernel, by decide +kernel⟩,
    ⟨0, rdy, by decide +kernel, by decide +kernel⟩,
    ⟨0, bare .inReset, by decide +kernel⟩,
    ⟨0, rdy, by decide +kernel⟩,
    ⟨0, rdy, by decide +kernel⟩,
    ⟨0, 0, rdy, by decide +kernel, by decide +kernel⟩,
    ⟨0, { rdy with nv := { variant := .o } }, by decide +kernel, by decide +kernel, by decide +kernel, by decide +kernel⟩,
    ⟨0, { rdy with nv := { variant := .o } }, by decide +kernel, by decide +kernel, by decide +kernel⟩,
    ⟨0, { rdy with md := { rdy.md with keeper := true } }, by decide +kernel⟩,
    ⟨hO, ["TMU0"], { one 0 .owner with md := { rdy.md with st := .degraded, report := [{ name := "TMU", v := .fail, units := ["TMU0"] }] } }, _, acc (by decide +kernel), by decide +kernel, by decide +kernel, by decide +kernel, rfl, by decide +kernel, by decide +kernel⟩⟩

theorem witness_LineEventsComplete :
    (∃ (_dt : Nat) (n : Fin 9) (s : State) (l : Nat), l = (n : Fin 9).val + 1 ∧ linesOpen s = true ∧ s.md.usb = true ∧ (getLn s l).up = false) ∧
    (∃ (dt : Nat) (l : Fin 10) (s : State), (getLn s (l : Fin 10)).up = true ∧ (getLn s l).rxT + (getLn s l).idle * Config.sec ≤ s.wall + dt) ∧
    (∃ (_dt : Nat) (l : Fin 10) (s : State), (getLn s (l : Fin 10)).up = true ∧ (getLn s l).xon = true ∧ (getLn s l).machine = false) ∧
    (∃ (_dt : Nat) (l : Fin 10) (s : State), (getLn s (l : Fin 10)).paused = true) ∧
    (∃ (_dt : Nat) (s : State), (getLn s 0).up = true ∧ 4096 < bufBytes (getLn s 0) + 1048) ∧
    (∃ (_dt : Nat) (l : Fin 10) (b : Nat) (s : State), (getLn s (l : Fin 10)).up = true ∧ (getLn s l).machine = false ∧ (getLn s l).echo = true ∧ (getLn s l).xon = false ∧ b ≠ 3 ∧ b ≠ 8 ∧ b ≠ 10 ∧ b ≠ 13 ∧ b ≠ 18 ∧ b ≠ 21 ∧ b ≠ 127) ∧
    (∃ (dt : Nat) (s : State) (b : Nat) (t : Nat), (getLn s 0).baudNext = some (b, t) ∧ (getLn s 0).paused = false ∧ t + 20 * Config.ms ≤ s.wall + dt) ∧
    (∃ (dt : Nat) (l : Fin 10) (s : State) (n : Nat) (b : Nat) (t : Nat), (getLn s (l : Fin 10)).chal = some (n, b, t) ∧ t + 30 * Config.sec ≤ s.wall + dt) ∧
    (∃ (dt : Nat) (g : Target) (s : State) (n : Nat) (t : Nat), tget? s.nv.lock (Target.byte g) = some (n, t) ∧ t ≤ s.wall + dt) :=
  ⟨⟨0, 0, rdy, _, rfl, by decide +kernel, by decide +kernel, by decide +kernel⟩,
    ⟨3600 * Config.sec, 0, one 0 .owner, by decide +kernel, by decide +kernel⟩,
    ⟨0, 0, { rdy with ln := [(0, { up := true, xon := true })] }, by decide +kernel, by decide +kernel, by decide +kernel⟩,
    ⟨0, 0, { rdy with ln := [(0, { up := true, paused := true })] }, by decide +kernel⟩,
    ⟨0, { rdy with ln := [(0, { up := true, part := List.replicate 3049 65 })] }, by decide +kernel, by decide +kernel⟩,
    ⟨0, 0, 65, one 0 .anon, by decide +kernel, by decide +kernel, by decide +kernel, by decide +kernel, by decide +kernel, by decide +kernel, by decide +kernel, by decide +kernel, by decide +kernel, by decide +kernel, by decide +kernel⟩,
    ⟨20 * Config.ms, { rdy with ln := [(0, { up := true, baudNext := some (9600, 0) })] }, _, _, rfl, by decide +kernel, by decide +kernel⟩,
    ⟨30 * Config.sec, 0, { rdy with ln := [(0, { up := true, chal := some (1, 2, 0) })] }, _, _, _, rfl, by decide +kernel⟩,
    ⟨1, .owner, { rdy with nv := { lock := [(Target.byte .owner, (3, 1))] } }, _, _, rfl, by decide +kernel⟩⟩

theorem witness_IdentityLinesReply :
    (∃ (h : Hdr) (s : State) (x : LineSt), getLn (begun h s) h.line = x ∧ Accepts { word := "HELLO", roles := allRoles, ro := true } h s) ∧
    (∃ (h : Hdr) (b : Blk) (s : State) (p : List Nat), BlkIs h b s p ∧ AcceptsBlk { word := "HELLO", roles := allRoles, ro := true } h b s) ∧
    (∃ (h : Hdr) (s : State) (l : List String), l = commandWords.filter (helpWord (begun h s) (getLn (begun h s) h.line)) ∧ Accepts { word := "HELP", roles := allRoles, ro := true, prov := true } h s) ∧
    (∃ (h : Hdr) (c : String) (s : State) (u : String) (l : List IndexRow), upWord c = u ∧ u ∈ commandWords ∧ l = index.filter (fun r => r.word == u) ∧ Accepts { word := "HELP", roles := allRoles, ro := true, prov := true } h s) ∧
    (∃ (h : Hdr) (s : State), Accepts { word := "IDENT", roles := allRoles, ro := true, prov := true } h s) ∧
    (∃ (h : Hdr) (s : State), Accepts { word := "IDENT", roles := allRoles, ro := true, prov := true } h s) ∧
    (∃ (h : Hdr) (n : Sec) (s : State), n.digits % 4 = 0 ∧ 4 ≤ n.digits ∧ n.digits ≤ 32 ∧ n.val < 16 ^ n.digits ∧ Accepts { word := "IDENT", roles := allRoles, ro := true, prov := true } h s) ∧
    (∃ (h : Hdr) (s : State), Accepts { word := "STATUS", roles := allRoles, ro := true, prov := true } h s) ∧
    (∃ (h : Hdr) (s : State), Accepts { word := "STATUS", roles := [.o], ro := true } h s) ∧
    (∃ (h : Hdr) (s : State), Accepts { word := "SELFTEST", roles := allRoles, ro := true } h s) ∧
    (∃ (h : Hdr) (s : State), Accepts { word := "TIME", roles := allRoles, ro := true } h s) ∧
    (∃ (h : Hdr) (s : State), Arrives h s ∧ Fresh h (begun h s)) ∧
    (∃ (h : Hdr) (hd : BlkHdr) (rows : List BlkRow) (s : State) (s0 : State), Arrives h s ∧ blkMacs (begun h s) h.line (hd.row :: rows) = (s0, false) ∧ Fresh h s0 ∧ 10 * Config.sec < h.dt) ∧
    (∃ (h : Hdr) (hd : BlkHdr) (rows : List BlkRow) (stop : BlkRow) (s : State) (s0 : State), Arrives h s ∧ blkMacs (begun h s) h.line (hd.row :: (rows ++ [stop])) = (s0, false) ∧ Fresh h s0) :=
  ⟨⟨hO, one 0 .anon, _, rfl, acc (by decide +kernel)⟩,
    ⟨hO, blkOf [1], one 0 .anon, [1], blkIs (by decide +kernel), accBlk (by decide +kernel)⟩,
    ⟨hO, one 0 .anon, _, rfl, acc (by decide +kernel)⟩,
    ⟨hO, "time", one 0 .anon, _, _, rfl, by decide +kernel, rfl, acc (by decide +kernel)⟩,
    ⟨hO, one 0 .anon, acc (by decide +kernel)⟩,
    ⟨hO, one 0 .anon, acc (by decide +kernel)⟩,
    ⟨hO, { val := 1, digits := 4 }, one 0 .anon, by decide +kernel, by decide +kernel, by decide +kernel, by decide +kernel, acc (by decide +kernel)⟩,
    ⟨hO, one 0 .anon, acc (by decide +kernel)⟩,
    ⟨hO, one 0 .owner, acc (by decide +kernel)⟩,
    ⟨hO, one 0 .anon, acc (by decide +kernel)⟩,
    ⟨hO, one 0 .anon, acc (by decide +kernel)⟩,
    ⟨hO, one 0 .anon, (acc (f := modeForm) (by decide +kernel)).toArrives, (acc (f := modeForm) (by decide +kernel)).fresh⟩,
    ⟨{ dt := 11 * Config.sec, text := [65] }, { row := { text := [65] }, n := 1 }, [], one 0 .anon, _, (acc (f := modeForm) (by decide +kernel)).toArrives, rfl, (acc (f := modeForm) (by decide +kernel)).fresh, by decide +kernel⟩,
    ⟨hO, { row := { text := [65] }, n := 1 }, [], { text := [66] }, one 0 .anon, _, (acc (f := modeForm) (by decide +kernel)).toArrives, rfl, (acc (f := modeForm) (by decide +kernel)).fresh⟩⟩

theorem witness_ModeReplies :
    (∃ (h : Hdr) (s : State) (s0 : State) (x : LineSt), begun h s = s0 ∧ getLn s0 h.line = x ∧ Accepts { modeForm with ro := true } h s) ∧
    (∃ (h : Hdr) (s : State), Accepts modeForm h s) ∧
    (∃ (h : Hdr) (s : State), (getLn (begun h s) h.line).sm = none ∧ Accepts modeForm h s) ∧
    (∃ (h : Hdr) (s : State) (x : LineSt) (n : Nat) (k : Key), getLn (begun h s) h.line = x ∧ x.machine = true ∧ x.sm = none ∧ x.nonce = some n ∧ roleKey (begun h s) x.role = some k ∧ Accepts modeForm h s) ∧
    (∃ (h : Hdr) (_on : Bool) (s : State), Accepts modeForm h s) ∧
    (∃ (h : Hdr) (_on : Bool) (s : State), Accepts modeForm h s) ∧
    (∃ (h : Hdr) (v : Val) (s : State) (n : Nat), readRange 2 .s 60 86400 v = .ok (n : Nat) ∧ Accepts modeForm h s) ∧
    (∃ (h : Hdr) (v : Val) (s : State) (n : Nat), readNat 2 0 (10 ^ 12) v = .ok n ∧ n ∈ bauds ∧ Accepts modeForm h s) :=
  ⟨⟨hO, one 0 .anon, _, _, rfl, rfl, acc (by decide +kernel)⟩,
    ⟨hO, one 0 .anon, acc (by decide +kernel)⟩,
    ⟨hO, one 0 .anon, by decide +kernel, acc (by decide +kernel)⟩,
    ⟨{ text := [77, 32, 35, 49] }, { rdy with nv := { owner := some {} }, ln := [(0, { up := true, role := .owner, machine := true, nonce := some 1 })] }, _, _, _, rfl, by decide +kernel, by decide +kernel, rfl, rfl, acc (by decide +kernel)⟩,
    ⟨hO, true, one 0 .anon, acc (by decide +kernel)⟩,
    ⟨hO, true, one 0 .anon, acc (by decide +kernel)⟩,
    ⟨hO, { digits := 60 }, one 0 .anon, 60, by decide +kernel, acc (by decide +kernel)⟩,
    ⟨hO, { digits := 9600 }, one 0 .anon, 9600, by decide +kernel, by decide +kernel, acc (by decide +kernel)⟩⟩

theorem witness_RolesAndKeysReply :
    (∃ (h : Hdr) (k : Sec) (s : State), k.digits = 64 ∧ (h.line : Nat) = 0 ∧ s.nv.owner = none ∧ Accepts { word := "OWNER", roles := [.a] } h s) ∧
    (∃ (h : Hdr) (wr : Sec) (c : Sec) (s : State) (k : Nat), unwrapKey (begun h s) h "OWNER-REKEY" 3 wr c = .ok k ∧ Accepts (ownerForm "OWNER") h s) ∧
    (∃ (h : Hdr) (n : Nat) (wr : Sec) (c : Sec) (s : State) (k : Nat), n < 8 ∧ unwrapKey (begun h s) h (labelled "OBSERVER-KEY" n) 5 wr c = .ok k ∧ Accepts (ownerForm "OWNER") h s) ∧
    (∃ (h : Hdr) (s : State) (r : State), Accepts (ownerForm "OWNER") h s ∧ r = awaits h [] (begun h s) (if deckles.all (fun d => (getDk (begun h s) d).st = .closed) then begun h s else deckles.foldl reclaim (begun h s)) (.release [w "OK", w "OWNER", w "RELEASED"]) none) ∧
    (∃ (h : Hdr) (s : State) (r : State) (t : Nat), Accepts { word := "OWNER", roles := [.a] } h s ∧ h.line = 0 ∧ s.md.clearWin = true ∧ s.md.endT = some t ∧ s.wall + h.dt ≤ t + 30 * Config.sec ∧ r = awaits h [] (begun h s) (if deckles.all (fun d => (getDk (begun h s) d).st = .closed) then begun h s else deckles.foldl reclaim (begun h s)) (.release [w "OK", w "OWNER", w "CLEARED"]) none) ∧
    (∃ (h : Hdr) (d : Nat) (wr : Sec) (c : Sec) (s : State) (k : Nat), d < 8 ∧ wr.digits = 64 ∧ c.digits = 16 ∧ (getDk s d).st = .closed ∧ unwrapKey (begun h s) h (labelled "DECKLE-KEY" d) 4 wr c = .ok k ∧ Accepts (ownerForm "DECKLE") h s) ∧
    (∃ (h : Hdr) (g : Target) (s : State), Target.inRange g = true ∧ (g ≠ .owner ∨ (h.line : Nat) ≤ 1) ∧ lockLeft (begun h s) g.byte = 0 ∧ Accepts { word := "LOGIN", roles := allRoles } h s) ∧
    (∃ (h : Hdr) (a : Sec) (s : State) (n : Nat) (b : Nat) (t : Nat) (k : Key), a.digits = 32 ∧ (getLn (begun h s) h.line).chal = some (n, b, t) ∧ nonceOld (begun h s) t = false ∧ targetKey (begun h s) (targetOf b) = some k ∧ a.val = rightResponse k.k n b h.line s.nv.serial ∧ Accepts { word := "LOGIN", roles := allRoles } h s) ∧
    (∃ (dt : Nat) (l : Fin 10) (s : State) (b : Nat) (n : Nat) (t : Nat), (getLn s (l : Fin 10)).resp = some (false, b, n, t) ∧ t + 49 * Config.ms ≤ s.wall + dt) ∧
    (∃ (dt : Nat) (l : Fin 10) (s : State) (b : Nat) (n : Nat) (t : Nat) (i : Nat) (r : State) (k : Key), (getLn s (l : Fin 10)).resp = some (true, b, n, t) ∧ t + 49 * Config.ms ≤ s.wall + dt ∧ targetOf b = .observer i ∧ tget? s.nv.obs i = some k ∧ (getLn s l).role = .anon ∧ r = clearFail (modLn (advance s dt) l (fun x => { x with resp := none })) b) ∧
    (∃ (h : Hdr) (wr : Sec) (c : Sec) (s : State) (k : Nat) (d : Nat), myDk (begun h s) h = d ∧ unwrapKey (begun h s) h "TENANT-REKEY" 3 wr c = .ok k ∧ Accepts { word := "LOGIN", prov := true } h s) ∧
    (∃ (h : Hdr) (s : State), Accepts { word := "LOGOUT", roles := allRoles, prov := true } h s) :=
  ⟨⟨hO, { digits := 64 }, one 0 .anon, by decide +kernel, by decide +kernel, by decide +kernel, acc (by decide +kernel)⟩,
    ⟨hO, wrapped, checkOf "OWNER-REKEY", keyed 0 .owner, _, unwraps _ _ (by decide +kernel) (by decide +kernel), acc (by decide +kernel)⟩,
    ⟨hO, 7, wrapped, checkOf (labelled "OBSERVER-KEY" 7), keyed 0 .owner, _, by decide +kernel, unwraps _ _ (by decide +kernel) (by decide +kernel), acc (by decide +kernel)⟩,
    ⟨hO, one 0 .owner, _, acc (by decide +kernel), rfl⟩,
    ⟨hO, { one 0 .anon with md := { rdy.md with clearWin := true, endT := some 0 } }, _, _, acc (by decide +kernel), by decide +kernel, by decide +kernel, rfl, by decide +kernel, rfl⟩,
    ⟨hO, 7, wrapped, checkOf (labelled "DECKLE-KEY" 7), keyed 0 .owner, _, by decide +kernel, by decide +kernel, by decide +kernel, by decide +kernel, unwraps _ _ (by decide +kernel) (by decide +kernel), acc (by decide +kernel)⟩,
    ⟨hO, .owner, one 0 .anon, by decide +kernel, by decide +kernel, by decide +kernel, acc (by decide +kernel)⟩,
    ⟨hO, { val := rightResponse 0 1 0x40 0 0, digits := 32 }, { rdy with nv := { owner := some {} }, ln := [(0, { up := true, chal := some (1, 0x40, 0) })] }, 1, 0x40, 0, {}, by decide +kernel, by decide +kernel, by decide +kernel, by decide +kernel, (by rfl : rightResponse 0 1 0x40 0 0 = rightResponse 0 1 0x40 0 0), acc (by decide +kernel)⟩,
    ⟨49 * Config.ms, 0, { rdy with ln := [(0, { up := true, resp := some (false, 0, 0, 0) })] }, _, _, _, rfl, by decide +kernel⟩,
    ⟨49 * Config.ms, 0, { rdy with nv := { obs := [(0, {})] }, ln := [(0, { up := true, resp := some (true, 0x80, 0, 0) })] }, _, _, _, 0, _, _, rfl, by decide +kernel, by decide +kernel, rfl, by decide +kernel, rfl⟩,
    ⟨hT, wrapped, checkOf "TENANT-REKEY", keyed 1 (.tenant 0), _, _, rfl, unwraps _ _ (by decide +kernel) (by decide +kernel), acc (by decide +kernel)⟩,
    ⟨hO, one 0 .owner, acc (by decide +kernel)⟩⟩

theorem witness_DeckleCommandsComplete :
    (∃ (h : Hdr) (d : Nat) (g : List GFld) (s : State) (s0 : State) (l : List GRead) (n : Grant), begun h s = s0 ∧ d < 8 ∧ readGrant false 4 g = .ok l ∧ ["CH", "BANKS", "SHARE"].find? (fun k => !(l.any (fun r => r.key == k))) = none ∧ (getDk s0 d).st = .closed ∧ (tget? s0.nv.dk d).isSome = true ∧ n = applyGrant {} l ∧ grantChecks s0 d l n = .ok () ∧ Accepts (ownerForm "DECKLE") h s) ∧
    (∃ (dt : Nat) (b : Fin 64) (s : State) (r : State), r = couchDone (advance s dt) (b : Fin 64) ∧ r.jobs = []) ∧
    (∃ (h : Hdr) (d : Nat) (g : List GFld) (s : State) (s0 : State) (l : List GRead) (k : Deckle) (n : Grant) (r : State), begun h s = s0 ∧ d < 8 ∧ readGrant true 4 g = .ok l ∧ getDk s0 d = k ∧ (k.st = .opened ∨ k.st = .held) ∧ k.arming = none ∧ n = applyGrant k.grant l ∧ n.ch ≠ [] ∧ n.banks ≠ [] ∧ grantChecks s0 d l n = .ok () ∧ (heldSlots s0 d).length ≤ n.slots ∧ r = holdDeckle (cancelWarm (modDk (beginCouch (beginCouch (keep (forEach (allKinds.map (fun u => (u, (k.grant.of u).filter (fun x => !(n.of u).contains x)))) s0 (fun s e => zeroUnits s d e.1 e.2))) (k.grant.banks.filter (fun b => !n.banks.contains b)) none) (n.banks.filter (fun b => !k.grant.banks.contains b)) (some d)) d (fun k => { k with grant := n })) d "GRANT") d .grant ∧ couchesOf r d = [] ∧ Accepts (ownerForm "DECKLE") h s) ∧
    (∃ (h : Hdr) (d : Nat) (s : State), d < 8 ∧ ((getDk (begun h s) d).st = .opened ∨ (getDk (begun h s) d).st = .held) ∧ (getDk (begun h s) d).arming = none ∧ Accepts (ownerForm "DECKLE") h s) ∧
    (∃ (h : Hdr) (d : Nat) (s : State), d < 8 ∧ (getDk (begun h s) d).st.isOpen = true ∧ Accepts (ownerForm "DECKLE") h s) ∧
    (∃ (dt : Nat) (d : Fin 8) (s : State) (r : State), (getDk s (d : Fin 8)).st = .zeroing ∧ r = zeroDeckle (tellReclaimed (advance s dt) d) d ∧ r.jobs = []) ∧
    (∃ (h : Hdr) (s : State), Accepts (ownerForm "DECKLE") h s) ∧
    (∃ (h : Hdr) (s : State), Accepts { ownerForm "DECKLE" with ro := true } h s) ∧
    (∃ (h : Hdr) (d : Nat) (s : State), d < 8 ∧ Accepts { ownerForm "DECKLE" with ro := true } h s) :=
  ⟨⟨hO, 0, [{ key := "CH", val := .units [(.plain, u1 .ch 0)] }, { key := "BANKS", val := .units [(.plain, u1 .v 0)] }, { key := "SHARE", val := .num 1 }], { one 0 .owner with nv := { dk := [(0, {})] } }, _, _, _, rfl, by decide +kernel, okGet (by decide +kernel), by decide +kernel, by decide +kernel, by decide +kernel, rfl, by decide +kernel, acc (by decide +kernel)⟩,
    ⟨0, 0, rdy, _, rfl, by decide +kernel⟩,
    ⟨hO, 0, [{ key := "SHARE", val := .num 2 }], { ten (dkS .opened) with ln := [(0, { up := true, role := .owner })] }, _, _, _, _, _, rfl, by decide +kernel, okGet (by decide +kernel), rfl, by decide +kernel, by decide +kernel, rfl, by decide +kernel, by decide +kernel, by decide +kernel, by decide +kernel, rfl, by decide +kernel, acc (by decide +kernel)⟩,
    ⟨hO, 0, { ten (dkS .opened) with ln := [(0, { up := true, role := .owner })] }, by decide +kernel, by decide +kernel, by decide +kernel, acc (by decide +kernel)⟩,
    ⟨hO, 0, { ten (dkS .running) with ln := [(0, { up := true, role := .owner })] }, by decide +kernel, by decide +kernel, acc (by decide +kernel)⟩,
    ⟨0, 0, ten (dkS .zeroing), _, by decide +kernel, rfl, by decide +kernel⟩,
    ⟨hO, one 0 .owner, acc (by decide +kernel)⟩,
    ⟨hO, one 0 .owner, acc (by decide +kernel)⟩,
    ⟨hO, 7, one 0 .owner, by decide +kernel, acc (by decide +kernel)⟩⟩

theorem witness_AtCommandsComplete :
    (∃ (h : Hdr) (t : AtTime) (late : Bool) (c : Sched) (s : State) (s0 : State) (d : Nat) (k : Deckle) (n : Nat) (id : Nat), begun h s = s0 ∧ myDk s0 h = d ∧ getDk s0 d = k ∧ atTick s0 h t = .ok n ∧ checkSched k (if late then 4 else 3) c = .ok () ∧ k.ats.length < 16 ∧ now s0 + 2500 ≤ n ∧ id = freeId k 16 k.atNext ∧ Accepts (tenantForm "AT") h s) ∧
    (∃ (dt : Nat) (d : Fin 8) (id : Nat) (s : State) (a : AtAct), (getDk s (d : Fin 8)).ats.find? (fun a => a.id == id) = some a ∧ atDue (advance s dt) d a = true ∧ s.md.reload = false) ∧
    (∃ (dt : Nat) (d : Fin 8) (id : Nat) (s : State) (a : AtAct), (getDk s (d : Fin 8)).ats.find? (fun a => a.id == id) = some a ∧ atDue (advance s dt) d a = true ∧ s.md.reload = true) ∧
    (∃ (h : Hdr) (n : Nat) (s : State) (s0 : State) (d : Nat) (k : Deckle) (a : AtAct), begun h s = s0 ∧ myDk s0 h = d ∧ getDk s0 d = k ∧ 1 ≤ n ∧ n ≤ 255 ∧ k.ats.find? (fun a => a.id == n) = some a ∧ now s0 + 2500 ≤ a.t ∧ Accepts (tenantForm "AT") h s) ∧
    (∃ (dt : Nat) (s : State) (r : State) (r1 : State), s.md.reload = true ∧ r = { advance s dt with md := { s.md with reload := false, vreload := min (s.md.vreload + 1) 65535 } } ∧ r1 = ownerEvent (rewriteVendor r) .fault [w "F-MCHK", kw "REGION" "VENDOR", w "RELOADED"]) :=
  ⟨⟨hT, .abs 1002500, false, .run, ten (dkS .armed), _, _, _, _, _, rfl, rfl, rfl, okGet (by decide +kernel), by decide +kernel, by decide +kernel, by decide +kernel, rfl, acc (by decide +kernel)⟩,
    ⟨2500, 0, 1, { ten (dkS .opened) with dk := [(0, { dkS .opened with ats := [{ id := 1, t := 1002500 }] })] }, _, rfl, by decide +kernel, by decide +kernel⟩,
    ⟨2500, 0, 1, { { ten (dkS .opened) with dk := [(0, { dkS .opened with ats := [{ id := 1, t := 1002500 }] })] } with md := { rdy.md with reload := true } }, _, rfl, by decide +kernel, by decide +kernel⟩,
    ⟨hT, 1, { ten (dkS .opened) with dk := [(0, { dkS .opened with ats := [{ id := 1, t := 1002500 }] })] }, _, _, _, _, rfl, rfl, rfl, by decide +kernel, by decide +kernel, rfl, by decide +kernel, acc (by decide +kernel)⟩,
    ⟨0, { rdy with md := { rdy.md with reload := true } }, _, _, by decide +kernel, rfl, rfl⟩⟩

theorem witness_FurnishCommandsComplete :
    (∃ (h : Hdr) (s : State) (s0 : State) (d : Nat) (r : State), begun h s = s0 ∧ myDk s0 h = d ∧ ((getDk s0 d).st = .opened ∨ (getDk s0 d).st = .held) ∧ (getDk s0 d).arming = none ∧ validate s0 d (getDk s0 d).grant (getDk s0 d).work = none ∧ r = setSeal s0 d ∧ Accepts (tenantForm "FURNISH") h s) ∧
    (∃ (h : Hdr) (n : Nat) (s : State) (s0 : State) (d : Nat) (x : FSlot) (r : State), begun h s = s0 ∧ myDk s0 h = d ∧ ownSlot s0 d 3 n = .ok x ∧ ((getDk s0 d).st = .opened ∨ (getDk s0 d).st = .held) ∧ (getDk s0 d).arming = none ∧ x.ok = true ∧ validate (cancelWarm (loadSlot s0 d x) d "EDIT") d (getDk s0 d).grant x.f = none ∧ r = loadSeal (cancelWarm (loadSlot s0 d x) d "EDIT") d x ∧ Accepts (tenantForm "FURNISH") h s) ∧
    (∃ (h : Hdr) (n : Nat) (s : State) (s0 : State) (d : Nat) (k : Deckle), begun h s = s0 ∧ myDk s0 h = d ∧ getDk s0 d = k ∧ n < 16 ∧ slotErasing s0 n = false ∧ (tget? s0.nv.slots n).map (fun x => x.own) = some d ∧ k.st = .opened ∧ k.sealN.isSome = true ∧ k.arming = none ∧ Accepts (tenantForm "FURNISH") h s) ∧
    (∃ (dt : Nat) (d : Fin 8) (s : State) (j : Job) (l : List Job) (n : Nat) (r : State), s.jobs = j :: l ∧ j.kind = .save (d : Fin 8) n ∧ r = slotDone (advance s dt) n) ∧
    (∃ (h : Hdr) (n : Nat) (s : State) (s0 : State) (d : Nat) (x : FSlot), begun h s = s0 ∧ myDk s0 h = d ∧ ownSlot s0 d 3 n = .ok x ∧ (getDk s0 d).st = .opened ∧ Accepts (tenantForm "FURNISH") h s) ∧
    (∃ (h : Hdr) (s : State) (s0 : State) (d : Nat), begun h s = s0 ∧ myDk s0 h = d ∧ (getDk s0 d).st = .opened ∧ Accepts (tenantForm "FURNISH") h s) ∧
    (∃ (h : Hdr) (n : Nat) (s : State) (s0 : State) (d : Nat) (x : FSlot), begun h s = s0 ∧ myDk s0 h = d ∧ ownSlot s0 d 3 n = .ok x ∧ (getDk s0 d).st = .opened ∧ Accepts (tenantForm "FURNISH") h s) ∧
    (∃ (h : Hdr) (s : State) (s0 : State) (d : Nat) (k : Deckle) (l : List (Nat × FSlot)), begun h s = s0 ∧ myDk s0 h = d ∧ getDk s0 d = k ∧ l = s0.nv.slots.filter (fun e => e.2.own = d) ∧ Accepts (readForm "FURNISH") h s) ∧
    (∃ (h : Hdr) (x : Fld) (f : List Fld) (s : State) (s0 : State) (d : Nat) (k : Deckle) (g : Furnish → Furnish) (r : State) (t : Line), begun h s = s0 ∧ myDk s0 h = d ∧ getDk s0 d = k ∧ optionHead (x : Fld).key = "" ∧ (numbered 3 (x :: f)).find? (fun e => optionHead e.2.key != "") = none ∧ foldFields optionField 3 id (x :: f) = .ok g ∧ holds k .v ((x :: f).flatMap fieldBanks) = .ok () ∧ edit s0 d (some "OPTIONS") g = .ok (r, t) ∧ Accepts (tenantForm "FURNISH") h s) ∧
    (∃ (h : Hdr) (s : State) (s0 : State) (d : Nat), begun h s = s0 ∧ myDk s0 h = d ∧ (getDk s0 d).st.shadowed = true ∧ Accepts (tenantForm "FURNISH") h s) ∧
    (∃ (h : Hdr) (x : String) (s : State) (s0 : State) (d : Nat) (k : Deckle) (l : List (List Tok)), begun h s = s0 ∧ myDk s0 h = d ∧ getDk s0 d = k ∧ x ∈ sections ∧ x ≠ "PATTERN" ∧ l = (sectionText (shown s0 d true) d k.editing x).map (fun t => [w "FU", w x] ++ t) ∧ Accepts (readForm "FURNISH") h s) ∧
    (∃ (h : Hdr) (s : State) (s0 : State) (s1 : State) (d : Nat) (k : Deckle) (l : List (List Tok)), begun h s = s0 ∧ myDk s0 h = d ∧ getDk s0 d = k ∧ s1 = forEach ((k.editing.stripe ++ k.editing.prog.toList).filter k.grant.banks.contains) s0 wakeBank ∧ imageOk (shown s1 d true) k (k.editing.within k.grant) = .ok () ∧ l = (sectionText (shown s1 d true) d k.editing "PATTERN").map (fun t => [w "FU", w "PATTERN"] ++ t) ∧ Accepts (readForm "FURNISH") h s) :=
  ⟨⟨hT, tenP (plain1 .opened), _, _, _, rfl, rfl, by decide +kernel, by decide +kernel, by decide +kernel, rfl, acc (by decide +kernel)⟩,
    ⟨hT, 0, { tenP (plain1 .opened) with nv := { slots := [(0, { own := 0, f := furn1, ok := true, img := (tenP (plain1 .opened)).vat })] } }, _, _, _, _, rfl, rfl, okGet (by decide +kernel), by decide +kernel, by decide +kernel, by decide +kernel, by decide +kernel, rfl, acc (by decide +kernel)⟩,
    ⟨hT, 0, { { ten (dkS .opened) with nv := { slots := [(0, { own := 0, f := furn0, ok := true })] } } with dk := [(0, { dkS .opened with sealN := some 1 })] }, _, _, _, rfl, rfl, rfl, by decide +kernel, by decide +kernel, rfl, by decide +kernel, by decide +kernel, by decide +kernel, acc (by decide +kernel)⟩,
    ⟨0, 0, { ten (dkS .opened) with jobs := [{ kind := .save 0 0 }] }, _, _, _, _, rfl, rfl, rfl⟩,
    ⟨hT, 0, { ten (dkS .opened) with nv := { slots := [(0, { own := 0, f := furn0, ok := true })] } }, _, _, _, rfl, rfl, okGet (by decide +kernel), by decide +kernel, acc (by decide +kernel)⟩,
    ⟨hT, ten (dkS .opened), _, _, rfl, rfl, by decide +kernel, acc (by decide +kernel)⟩,
    ⟨hT, 0, { ten (dkS .opened) with nv := { slots := [(0, { own := 0, f := furn0, ok := true })] } }, _, _, _, rfl, rfl, okGet (by decide +kernel), by decide +kernel, acc (by decide +kernel)⟩,
    ⟨hT, { ten (dkS .opened) with nv := { slots := [(0, { own := 0, f := furn0, ok := true })] } }, _, _, _, _, rfl, rfl, rfl, rfl, acc (by decide +kernel)⟩,
    ⟨hT, { key := "WARM", val := .num { digits := 1 } }, [], ten (dkS .opened), _, _, _, _, _, _, rfl, rfl, rfl, by decide +kernel, by decide +kernel, okGet (by decide +kernel), by decide +kernel, rfl, acc (by decide +kernel)⟩,
    ⟨hT, ten (dkS .armed), _, _, rfl, rfl, by decide +kernel, acc (by decide +kernel)⟩,
    ⟨hT, "LEVEL", ten (dkS .armed), _, _, _, _, rfl, rfl, rfl, by decide +kernel, by decide +kernel, rfl, acc (by decide +kernel)⟩,
    ⟨hT, tenP (plain1 .armed), _, _, _, _, _, rfl, rfl, rfl, rfl, by decide +kernel, rfl, acc (by decide +kernel)⟩⟩

theorem witness_RunCommandsComplete :
    (∃ (h : Hdr) (s : State) (s0 : State) (d : Nat), begun h s = s0 ∧ myDk s0 h = d ∧ armState s0 d = .ok () ∧ armLock s0 = .ok () ∧ mustWait s0 d = false ∧ armChecks s0 d = .ok () ∧ Accepts (tenantForm "ARM") h s) ∧
    (∃ (h : Hdr) (s : State) (s0 : State) (d : Nat), begun h s = s0 ∧ myDk s0 h = d ∧ armState s0 d = .ok () ∧ armLock s0 = .ok () ∧ mustWait s0 d = true ∧ Accepts (tenantForm "ARM") h s) ∧
    (∃ (dt : Nat) (d : Fin 8) (s : State) (t : Nat) (r : State), (getDk s (d : Fin 8)).arming = some t ∧ r = keep (setSt (modDk (armUnits (advance s dt) d) d (fun k => { k with arming := none })) d .armed) ∧ hasJob r (fun j => j == .arm d) = true) ∧
    (∃ (h : Hdr) (s : State) (s0 : State) (d : Nat), begun h s = s0 ∧ myDk s0 h = d ∧ (getDk s0 d).st = .armed ∧ Accepts (tenantForm "RUN") h s) ∧
    (∃ (h : Hdr) (s : State) (s0 : State) (d : Nat) (t : Nat), begun h s = s0 ∧ myDk s0 h = d ∧ (getDk s0 d).st = .armed ∧ cmdGroup s0 (getDk s0 d) = none ∧ t = ceilTo (now s0 + 2500) 1250 ∧ Accepts (tenantForm "TRIG") h s) ∧
    (∃ (h : Hdr) (s : State) (s0 : State) (d : Nat), begun h s = s0 ∧ myDk s0 h = d ∧ (getDk s0 d).waitWarm = true ∧ Accepts (tenantForm "STOP") h s) ∧
    (∃ (h : Hdr) (s : State) (s0 : State) (d : Nat), begun h s = s0 ∧ myDk s0 h = d ∧ (getDk s0 d).waitWarm = false ∧ (getDk s0 d).st = .armed ∧ Accepts (tenantForm "STOP") h s) ∧
    (∃ (h : Hdr) (s : State) (s0 : State) (d : Nat), begun h s = s0 ∧ myDk s0 h = d ∧ (getDk s0 d).waitWarm = false ∧ (getDk s0 d).st = .running ∧ Accepts (tenantForm "STOP") h s) ∧
    (∃ (h : Hdr) (s : State) (s0 : State) (d : Nat), begun h s = s0 ∧ myDk s0 h = d ∧ (getDk s0 d).st = .running ∧ (getDk s0 d).arming = none ∧ Accepts (tenantForm "STOP") h s) ∧
    (∃ (h : Hdr) (s : State) (s0 : State) (d : Nat), begun h s = s0 ∧ myDk s0 h = d ∧ (getDk s0 d).st = .armed ∧ (getDk s0 d).arming = none ∧ Accepts (tenantForm "STOP") h s) ∧
    (∃ (dt : Nat) (d : Fin 8) (s : State) (s0 : State) (k : Deckle) (r : State), advance s dt = s0 ∧ getDk s0 (d : Fin 8) = k ∧ hasJob s0 (fun j => j == .stopOff d) = true ∧ k.st ≠ .running ∧ tdrBusy s0 d = false ∧ ramping s0 d = false ∧ k.mchk = false ∧ k.dirty = false ∧ r = setSt (modDk (modDk (outputsOff s0 d) d (fun k => { k with cause := none, mchk := false })) d (fun k => { k with why := none })) d .opened ∧ (getDk (outputsOff s0 d) d).dirty = false) ∧
    (∃ (h : Hdr) (s : State) (s0 : State) (d : Nat), begun h s = s0 ∧ myDk s0 h = d ∧ (getDk s0 d).st.live = true ∧ (getDk s0 d).arming = none ∧ (getDk s0 d).press = none ∧ (getDk s0 d).need.find? (fun i => i != auxList || listBusy s0 (getDk s0 d) (getDk s0 d).shad) = none ∧ validatePress s0 d (getDk s0 d).grant (getDk s0 d).shad (getDk s0 d).act = none ∧ Accepts (tenantForm "PRESS") h s) ∧
    (∃ (_dt : Nat) (d : Fin 8) (s : State) (t : Nat) (f : Furnish), ((getDk s (d : Fin 8)).st = .armed ∨ (getDk s d).st = .stopped) ∧ (getDk s d).press = some (t, f)) ∧
    (∃ (dt : Nat) (d : Fin 8) (s : State) (t : Nat) (f : Furnish), (getDk s (d : Fin 8)).st = .running ∧ (getDk s d).press = some (t, f) ∧ t + 12500000 ≤ now (advance s dt) ∧ pressReached (getDk s d) = none) :=
  ⟨⟨hT, tenP { plain1 .opened with sealN := some 1 }, _, _, rfl, rfl, by decide +kernel, by decide +kernel, by decide +kernel, by decide +kernel, acc (by decide +kernel)⟩,
    ⟨hT, { ten { dkS .opened with sealN := some 1, work := { furn0 with warm := true } } with md := { rdy.md with st := .warming } }, _, _, rfl, rfl, by decide +kernel, by decide +kernel, by decide +kernel, acc (by decide +kernel)⟩,
    ⟨0, 0, { ten { dkS .opened with arming := some 1 } with jobs := [{ kind := .arm 0 }] }, _, _, rfl, rfl, by decide +kernel⟩,
    ⟨hT, ten (dkS .armed), _, _, rfl, rfl, by decide +kernel, acc (by decide +kernel)⟩,
    ⟨hT, ten (dkS .armed), _, _, _, rfl, rfl, by decide +kernel, by decide +kernel, rfl, acc (by decide +kernel)⟩,
    ⟨hT, ten { dkS .stopped with waitWarm := true }, _, _, rfl, rfl, by decide +kernel, acc (by decide +kernel)⟩,
    ⟨hT, ten (dkS .armed), _, _, rfl, rfl, by decide +kernel, by decide +kernel, acc (by decide +kernel)⟩,
    ⟨hT, ten (dkS .running), _, _, rfl, rfl, by decide +kernel, by decide +kernel, acc (by decide +kernel)⟩,
    ⟨hT, ten (dkS .running), _, _, rfl, rfl, by decide +kernel, by decide +kernel, acc (by decide +kernel)⟩,
    ⟨hT, ten (dkS .armed), _, _, rfl, rfl, by decide +kernel, by decide +kernel, acc (by decide +kernel)⟩,
    ⟨0, 0, { ten (dkS .armed) with jobs := [{ kind := .stopOff 0 }] }, _, _, _, rfl, rfl, by decide +kernel, by decide +kernel, by decide +kernel, by decide +kernel, by decide +kernel, by decide +kernel, rfl, by decide +kernel⟩,
    ⟨hT, tenP (plain1 .armed), _, _, rfl, rfl, by decide +kernel, by decide +kernel, by decide +kernel, by decide +kernel, by decide +kernel, acc (by decide +kernel)⟩,
    ⟨0, 0, ten { dkS .armed with press := some (0, furn0) }, _, _, by decide +kernel, rfl⟩,
    ⟨12500000, 0, ten { dkS .running with press := some (0, furn0) }, _, _, by decide +kernel, rfl, by decide +kernel, by decide +kernel⟩⟩

theorem witness_TsetCommandsComplete :
    (∃ (h : Hdr) (n : Nat) (s : State) (s0 : State) (d : Nat) (r : State) (t : Line), begun h s = s0 ∧ myDk s0 h = d ∧ 1 ≤ n ∧ n ≤ 32 ∧ edit s0 d (some "TSET-COUNT") (fun f => { f with tcount := n, tsets := f.tsets.filter (fun e => e.1 < n) }) = .ok (r, t) ∧ Accepts (tenantForm "TSET") h s) ∧
    (∃ (h : Hdr) (i : Nat) (v : Val) (s : State) (s0 : State) (d : Nat) (p : Int) (r : State) (t : Line), begun h s = s0 ∧ myDk s0 h = d ∧ i < (getDk s0 d).editing.tcount ∧ readFine 3 0 2147483647 v = .ok p ∧ edit s0 d none (fun f => { f with tsets := tset f.tsets i { f.tset i with period := p.toNat } }) = .ok (r, t) ∧ Accepts (tenantForm "TSET") h s) ∧
    (∃ (h : Hdr) (i : Nat) (l : List URange) (f : List Fld) (s : State) (s0 : State) (d : Nat) (g : TPin → TPin) (cs : List Nat) (r : State) (t : Line), begun h s = s0 ∧ myDk s0 h = d ∧ i < (getDk s0 d).editing.tcount ∧ f ≠ [] ∧ foldFields tpinField 4 id f = .ok g ∧ chansOf (getDk s0 d) 3 l = .ok cs ∧ edit s0 d none (fun x => { x with tsets := tset x.tsets i { x.tset i with pin := cs.foldl (fun p c => tset p c (g (tget p c {}))) (x.tset i).pin } }) = .ok (r, t) ∧ Accepts (tenantForm "TSET") h s) ∧
    (∃ (h : Hdr) (i : Nat) (j : Nat) (s : State) (s0 : State) (d : Nat) (r : State) (t : Line), begun h s = s0 ∧ myDk s0 h = d ∧ i < (getDk s0 d).editing.tcount ∧ j < (getDk s0 d).editing.tcount ∧ edit s0 d none (fun f => { f with tsets := tset f.tsets i (f.tset j) }) = .ok (r, t) ∧ Accepts (tenantForm "TSET") h s) ∧
    (∃ (h : Hdr) (i : Nat) (s : State) (s0 : State) (d : Nat) (k : Deckle) (x : TSet), begun h s = s0 ∧ myDk s0 h = d ∧ getDk s0 d = k ∧ i < k.inForce.tcount ∧ x = k.inForce.tset i ∧ Accepts (readForm "TSET") h s) ∧
    (∃ (h : Hdr) (l : List URange) (f : List Fld) (s : State) (s0 : State) (d : Nat) (g : Deskew → Deskew) (cs : List Nat) (r : State) (t : Line), begun h s = s0 ∧ myDk s0 h = d ∧ f ≠ [] ∧ foldFields deskewField 4 id f = .ok g ∧ unitsOf (getDk s0 d) 3 .ch l = .ok cs ∧ edit s0 d none (fun x => { x with dsk := cs.foldl (fun p c => tset p c (g (tget p c {}))) x.dsk }) = .ok (r, t) ∧ Accepts (tenantForm "TSET") h s) ∧
    (∃ (h : Hdr) (l : List URange) (s : State) (s0 : State) (d : Nat) (cs : List Nat), begun h s = s0 ∧ myDk s0 h = d ∧ unitsOf (getDk s0 d) 4 .ch l = .ok cs ∧ (getDk s0 d).st = .stopped ∧ Accepts (tenantForm "TSET") h s) ∧
    (∃ (dt : Nat) (d : Fin 8) (res : List TdrRes) (s : State) (j : Job) (l : List Job) (cs : List Nat) (s0 : State) (s1 : State), s.jobs = j :: l ∧ j.kind = .deskew d cs ∧ (getDk s d).st = .stopped ∧ advance s dt = s0 ∧ s1 = modDk (forEach cs s0 (fun s c => modPin s c (fun p => pinRest p (restOf (getDk s0 d) c)))) d (fun k => { k with dirty := true, shad := { k.shad with dsk := (cs.filterMap (fun c => (tripOf res c).map (fun rt => (c, rt)))).foldl (fun p e => tset p e.1 { drv := -halfTrip e.2, cmp := halfTrip e.2 }) k.shad.dsk } })) ∧
    (∃ (h : Hdr) (s : State) (s0 : State) (d : Nat) (k : Deckle), begun h s = s0 ∧ myDk s0 h = d ∧ getDk s0 d = k ∧ Accepts (readForm "TSET") h s) ∧
    (∃ (dt : Nat) (c : Fin 48) (s : State) (d : Nat) (r : State), (getPin s (c : Fin 48)).dll = true ∧ (advance s dt).rf.lock ≠ .holdover ∧ holder s .ch (c : Fin 48) = some d ∧ r = setPin (advance s dt) c { getPin s c with dll := false }) ∧
    (∃ (dt : Nat) (c : Fin 48) (s : State) (r : State), (getPin s (c : Fin 48)).dll = false ∧ holder s .ch c = none ∧ linesOpen s = true ∧ r = setPin (advance s dt) c { getPin s c with dll := true }) :=
  ⟨⟨hT, 32, ten (dkS .opened), _, _, _, _, rfl, rfl, by decide +kernel, by decide +kernel, rfl, acc (by decide +kernel)⟩,
    ⟨hT, 0, { digits := 20, unit := .ns }, ten (dkS .opened), _, _, _, _, _, rfl, rfl, by decide +kernel, okGet (by decide +kernel), rfl, acc (by decide +kernel)⟩,
    ⟨hT, 0, [], [{ key := "D1", val := .num { digits := 1, unit := .ns } }], ten (dkS .opened), _, _, _, _, _, _, rfl, rfl, by decide +kernel, by decide +kernel, okGet (by decide +kernel), okGet (by decide +kernel), rfl, acc (by decide +kernel)⟩,
    ⟨hT, 0, 0, ten (dkS .opened), _, _, _, _, rfl, rfl, by decide +kernel, by decide +kernel, rfl, acc (by decide +kernel)⟩,
    ⟨hT, 0, ten (dkS .opened), _, _, _, _, rfl, rfl, rfl, by decide +kernel, rfl, acc (by decide +kernel)⟩,
    ⟨hT, [u1 .ch 0], [{ key := "DRV", val := .num { digits := 1, unit := .ns } }], ten (dkS .opened), _, _, _, _, _, _, rfl, rfl, by decide +kernel, okGet (by decide +kernel), okGet (by decide +kernel), rfl, acc (by decide +kernel)⟩,
    ⟨hT, [u1 .ch 0], ten (dkS .stopped), _, _, _, rfl, rfl, okGet (by decide +kernel), by decide +kernel, acc (by decide +kernel)⟩,
    ⟨0, 0, [], { ten (dkS .stopped) with jobs := [{ kind := .deskew 0 [0] }] }, _, _, [0], _, _, rfl, by decide +kernel, by decide +kernel, rfl, rfl⟩,
    ⟨hT, ten (dkS .opened), _, _, _, rfl, rfl, rfl, acc (by decide +kernel)⟩,
    ⟨0, 0, ten (dkS .opened), 0, _, by decide +kernel, by decide +kernel, by decide +kernel, rfl⟩,
    ⟨0, 0, { rdy with pin := [(0, { dll := false })] }, _, by decide +kernel, by decide +kernel, by decide +kernel, rfl⟩⟩

theorem witness_PinCommandsComplete :
    (∃ (h : Hdr) (c : Nat) (n : String) (s : State) (s0 : State) (d : Nat) (r : State) (t : Line), begun h s = s0 ∧ myDk s0 h = d ∧ pinNameOk n = true ∧ c < 48 ∧ c ∈ (getDk s0 d).grant.ch ∧ edit s0 d none (fun f => { f with pins := tset f.pins c { tget f.pins c {} with name := n } }) = .ok (r, t) ∧ Accepts (tenantForm "PIN") h s) ∧
    (∃ (h : Hdr) (l : List URange) (v : String) (x : Rest) (s : State) (s0 : State) (d : Nat) (cs : List Nat) (r : State) (t : Line), begun h s = s0 ∧ myDk s0 h = d ∧ pick 3 [("HIZ", Rest.hiz), ("LOW", .low), ("HIGH", .high), ("TERM", .term)] v = .ok x ∧ unitsOf (getDk s0 d) 2 .ch l = .ok cs ∧ edit s0 d none (fun f => { f with pins := cs.foldl (fun p c => tset p c { tget p c {} with rest := x }) f.pins }) = .ok (r, t) ∧ Accepts (tenantForm "PIN") h s) ∧
    (∃ (h : Hdr) (s : State) (s0 : State) (d : Nat) (k : Deckle), begun h s = s0 ∧ myDk s0 h = d ∧ getDk s0 d = k ∧ Accepts (readForm "PIN") h s) ∧
    (∃ (h : Hdr) (l : List URange) (f : List Fld) (s : State) (s0 : State) (d : Nat) (g : LevCfg → LevCfg) (cs : List Nat) (r : State) (t : Line), begun h s = s0 ∧ myDk s0 h = d ∧ f ≠ [] ∧ foldFields levelField 3 id f = .ok g ∧ unitsOf (getDk s0 d) 2 .ch l = .ok cs ∧ edit s0 d none (fun x => { x with lev := cs.foldl (fun p c => tset p c (g (tget p c {}))) x.lev }) = .ok (r, t) ∧ Accepts (tenantForm "LEVEL") h s) ∧
    (∃ (h : Hdr) (l : List URange) (f : List Fld) (s : State) (s0 : State) (d : Nat) (g : LevCfg → LevCfg) (cs : List Nat) (r : State) (t : Line), begun h s = s0 ∧ myDk s0 h = d ∧ f ≠ [] ∧ pmuFields f = .ok g ∧ unitsOf (getDk s0 d) 2 .ch l = .ok cs ∧ edit s0 d none (fun x => { x with lev := cs.foldl (fun p c => tset p c (g (tget p c {}))) x.lev }) = .ok (r, t) ∧ Accepts (tenantForm "LEVEL") h s) ∧
    (∃ (h : Hdr) (s : State) (s0 : State) (d : Nat) (k : Deckle), begun h s = s0 ∧ myDk s0 h = d ∧ getDk s0 d = k ∧ Accepts (readForm "LEVEL") h s) ∧
    (∃ (dt : Nat) (s : State) (s0 : State), advance s dt = s0 ∧ s.md.reload = false ∧ s.rf.run = true) ∧
    (∃ (_dt : Nat) (c : Fin 48) (s : State), ((getPin s (c : Fin 48)).dwell.isSome = true ∨ (getPin s c).cdwell.isSome = true)) ∧
    (∃ (dt : Nat) (c : Fin 48) (s : State) (t : Nat), (getPin s (c : Fin 48)).recon = some t ∧ t + 6250 ≤ now (advance s dt)) ∧
    (∃ (dt : Nat) (c : Fin 48) (s : State) (d : Nat) (r : State), (getPin s (c : Fin 48)).on = true ∧ holder s .ch c = some d ∧ r = setPin (advance s dt) c (killPin (getPin s c))) ∧
    (∃ (dt : Nat) (c : Fin 48) (s : State) (d : Nat) (r : State), (getPin s (c : Fin 48)).lim = false ∧ (getPin s c).cur.pmu = .fv ∧ holder s .ch c = some d ∧ r = setPin (advance s dt) c { getPin s c with lim := true }) ∧
    (∃ (dt : Nat) (n : Fin 6) (s : State) (r : State), (getFe s (n : Fin 6)).warm = false ∧ linesOpen s = true ∧ r = { advance s dt with fe := tset s.fe n { getFe s n with warm := true } }) :=
  ⟨⟨hT, 0, "A", ten (dkS .opened), _, _, _, _, rfl, rfl, by decide +kernel, by decide +kernel, by decide +kernel, rfl, acc (by decide +kernel)⟩,
    ⟨hT, [u1 .ch 0], "LOW", _, ten (dkS .opened), _, _, _, _, _, rfl, rfl, okGet (by decide +kernel), okGet (by decide +kernel), rfl, acc (by decide +kernel)⟩,
    ⟨hT, ten (dkS .opened), _, _, _, rfl, rfl, rfl, acc (by decide +kernel)⟩,
    ⟨hT, [u1 .ch 0], [{ key := "VIH", val := .num { digits := 1, unit := .V } }], ten (dkS .opened), _, _, _, _, _, _, rfl, rfl, by decide +kernel, okGet (by decide +kernel), okGet (by decide +kernel), rfl, acc (by decide +kernel)⟩,
    ⟨hT, [u1 .ch 0], [{ key := "PMU", val := .word "FN" }], ten (dkS .opened), _, _, _, _, _, _, rfl, rfl, by decide +kernel, okGet (by decide +kernel), okGet (by decide +kernel), rfl, acc (by decide +kernel)⟩,
    ⟨hT, ten (dkS .opened), _, _, _, rfl, rfl, rfl, acc (by decide +kernel)⟩,
    ⟨0, rdy, _, rfl, by decide +kernel, by decide +kernel⟩,
    ⟨0, 0, { rdy with pin := [(0, { dwell := some (0, {}) })] }, by decide +kernel⟩,
    ⟨6250, 0, { rdy with pin := [(0, { recon := some 1000000 })] }, _, rfl, by decide +kernel⟩,
    ⟨0, 0, { ten (dkS .opened) with pin := [(0, { on := true })] }, 0, _, by decide +kernel, by decide +kernel, rfl⟩,
    ⟨0, 0, { ten (dkS .opened) with pin := [(0, { cur := { pmu := .fv } })] }, 0, _, by decide +kernel, by decide +kernel, by decide +kernel, rfl⟩,
    ⟨0, 0, rdy, _, by decide +kernel, by decide +kernel, rfl⟩⟩

theorem witness_BankAndLogCommandsComplete :
    (∃ (h : Hdr) (l : List URange) (p : BankPow) (s : State) (s0 : State) (d : Nat) (b : List Nat), begun h s = s0 ∧ myDk s0 h = d ∧ unitsOf (getDk s0 d) 3 .v l = .ok b ∧ (getDk s0 d).st ∈ powerStates p ∧ (getDk s0 d).arming = none ∧ Accepts (tenantForm "BANK") h s) ∧
    (∃ (h : Hdr) (l : List URange) (s : State) (s0 : State) (d : Nat) (b : List Nat), begun h s = s0 ∧ myDk s0 h = d ∧ unitsOf (getDk s0 d) 3 .v l = .ok b ∧ ((getDk s0 d).st = .opened ∨ (getDk s0 d).st = .held) ∧ (getDk s0 d).arming = none ∧ Accepts (tenantForm "BANK") h s) ∧
    (∃ (dt : Nat) (d : Fin 8) (s : State) (l : List Nat) (r : State), zeroing (advance s dt) (d : Fin 8) = some l ∧ r = forEach l (advance s dt) (fun s b => if (getBk s b).wd then s else zeroBank s b)) ∧
    (∃ (h : Hdr) (s : State) (s0 : State) (d : Nat) (k : Deckle) (l : List Nat), begun h s = s0 ∧ myDk s0 h = d ∧ getDk s0 d = k ∧ l = sortNat k.grant.banks ∧ Accepts (readForm "BANK") h s) ∧
    (∃ (h : Hdr) (s : State) (free : List Nat), free = banksThat (begun h s) (fun x => x.own.isNone && x.couch.isNone && !x.wd) ∧ Accepts { ownerForm "BANK" with ro := true } h s) ∧
    (∃ (h : Hdr) (s : State) (s0 : State) (d : Nat) (k : Deckle) (c : Bool) (r : State), begun h s = s0 ∧ myDk s0 h = d ∧ getDk s0 d = k ∧ k.st ∈ anySt ∧ complete s0 k = (c, r) ∧ Accepts (readForm "BROKE") h s) ∧
    (∃ (h : Hdr) (s : State) (s0 : State) (d : Nat) (k : Deckle) (c : Bool) (r : State), begun h s = s0 ∧ myDk s0 h = d ∧ getDk s0 d = k ∧ k.st ∈ anySt ∧ complete s0 k = (c, r) ∧ Accepts (readForm "CAPTURE") h s) ∧
    (∃ (h : Hdr) (i : Nat) (n : Nat) (s : State) (s0 : State) (d : Nat) (k : Deckle) (r : State) (l : List Line), begun h s = s0 ∧ myDk s0 h = d ∧ getDk s0 d = k ∧ k.st ∈ anySt ∧ i < 16384 ∧ 1 ≤ n ∧ n ≤ 256 ∧ showLog s0 (logBank k k.act.bbank) 16384 64 i n (brLine k) = .ok (r, l) ∧ Accepts (readForm "BROKE") h s) ∧
    (∃ (h : Hdr) (i : Nat) (n : Nat) (s : State) (s0 : State) (d : Nat) (k : Deckle) (r : State) (l : List Line) (m : Nat), begun h s = s0 ∧ myDk s0 h = d ∧ getDk s0 d = k ∧ k.st ∈ anySt ∧ i < 16384 ∧ 1 ≤ n ∧ n ≤ 16384 - i ∧ readLog s0 (logBank k k.act.bbank) 64 i n = .ok (r, l, m) ∧ Accepts (readForm "BROKE") h s) ∧
    (∃ (h : Hdr) (s : State) (s0 : State) (d : Nat) (k : Deckle), begun h s = s0 ∧ myDk s0 h = d ∧ getDk s0 d = k ∧ k.st ∈ anySt ∧ Accepts (readForm "BROKE") h s) ∧
    (∃ (h : Hdr) (i : Nat) (n : Nat) (s : State) (s0 : State) (d : Nat) (k : Deckle) (r : State) (l : List Line), begun h s = s0 ∧ myDk s0 h = d ∧ getDk s0 d = k ∧ k.st ∈ anySt ∧ i < 32768 ∧ 1 ≤ n ∧ n ≤ 256 ∧ showLog s0 (logBank k k.act.cbank) 32768 32 i n (cpLine k) = .ok (r, l) ∧ Accepts (readForm "CAPTURE") h s) ∧
    (∃ (h : Hdr) (i : Nat) (n : Nat) (s : State) (s0 : State) (d : Nat) (k : Deckle) (r : State) (l : List Line) (m : Nat), begun h s = s0 ∧ myDk s0 h = d ∧ getDk s0 d = k ∧ k.st ∈ anySt ∧ i < 32768 ∧ 1 ≤ n ∧ n ≤ 32768 - i ∧ readLog s0 (logBank k k.act.cbank) 32 i n = .ok (r, l, m) ∧ Accepts (readForm "CAPTURE") h s) ∧
    (∃ (h : Hdr) (s : State) (s0 : State) (d : Nat) (k : Deckle), begun h s = s0 ∧ myDk s0 h = d ∧ getDk s0 d = k ∧ k.st ∈ clearStates ∧ Accepts (tenantForm "BROKE") h s) ∧
    (∃ (h : Hdr) (s : State) (s0 : State) (d : Nat) (k : Deckle), begun h s = s0 ∧ myDk s0 h = d ∧ getDk s0 d = k ∧ k.st ∈ clearStates ∧ Accepts (tenantForm "CAPTURE") h s) :=
  ⟨⟨hT, [u1 .v 0], .on, ten (dkS .opened), _, _, _, rfl, rfl, okGet (by decide +kernel), by decide +kernel, by decide +kernel, acc (by decide +kernel)⟩,
    ⟨hT, [u1 .v 0], ten (dkS .opened), _, _, _, rfl, rfl, okGet (by decide +kernel), by decide +kernel, by decide +kernel, acc (by decide +kernel)⟩,
    ⟨0, 0, { ten (dkS .opened) with jobs := [{ kind := .bankZero 0 [0] }] }, _, _, rfl, rfl⟩,
    ⟨hT, ten (dkS .opened), _, _, _, _, rfl, rfl, rfl, rfl, acc (by decide +kernel)⟩,
    ⟨hO, one 0 .owner, _, rfl, acc (by decide +kernel)⟩,
    ⟨hT, ten (dkS .opened), _, _, _, _, _, rfl, rfl, rfl, by decide +kernel, rfl, acc (by decide +kernel)⟩,
    ⟨hT, ten (dkS .opened), _, _, _, _, _, rfl, rfl, rfl, by decide +kernel, rfl, acc (by decide +kernel)⟩,
    ⟨hT, 16383, 1, ten (dkS .opened), _, _, _, _, _, rfl, rfl, rfl, by decide +kernel, by decide +kernel, by decide +kernel, by decide +kernel, rfl, acc (by decide +kernel)⟩,
    ⟨hT, 16383, 1, ten (dkS .opened), _, _, _, _, _, _, rfl, rfl, rfl, by decide +kernel, by decide +kernel, by decide +kernel, by decide +kernel, rfl, acc (by decide +kernel)⟩,
    ⟨hT, ten (dkS .opened), _, _, _, rfl, rfl, rfl, by decide +kernel, acc (by decide +kernel)⟩,
    ⟨hT, 32767, 1, ten (dkS .opened), _, _, _, _, _, rfl, rfl, rfl, by decide +kernel, by decide +kernel, by decide +kernel, by decide +kernel, rfl, acc (by decide +kernel)⟩,
    ⟨hT, 32767, 1, ten (dkS .opened), _, _, _, _, _, _, rfl, rfl, rfl, by decide +kernel, by decide +kernel, by decide +kernel, by decide +kernel, rfl, acc (by decide +kernel)⟩,
    ⟨hT, ten (dkS .stopped), _, _, _, rfl, rfl, rfl, by decide +kernel, acc (by decide +kernel)⟩,
    ⟨hT, ten (dkS .stopped), _, _, _, rfl, rfl, rfl, by decide +kernel, acc (by decide +kernel)⟩⟩

theorem witness_PatternCommandsComplete :
    (∃ (h : Hdr) (l : List URange) (s : State) (s0 : State) (d : Nat) (b : List Nat) (r : State) (t : Line), begun h s = s0 ∧ myDk s0 h = d ∧ expand 3 .v l = .ok b ∧ repeated [] b = none ∧ (∀ x ∈ b, x ∈ (getDk s0 d).grant.banks) ∧ edit s0 d (some "BANK-STRIPE") (fun f => { f with stripe := b }) = .ok (r, t) ∧ Accepts (tenantForm "BANK") h s) ∧
    (∃ (h : Hdr) (pa : Nat) (n : Nat) (blk : Blk) (s : State) (s0 : State) (d : Nat) (p : List Nat) (r : State) (t : Line), BlkIs h blk s p ∧ begunBlk h blk s = s0 ∧ myDk s0 h = d ∧ quireRange (getDk s0 d) (getDk s0 d).editing 3 pa n = .ok () ∧ quiresHeld (getDk s0 d) (getDk s0 d).editing pa n = .ok () ∧ p.length = n * (4 * (getDk s0 d).width) ∧ notProgram (getDk s0 d) (getDk s0 d).editing pa n = .ok () ∧ quiresFault (getDk s0 d) pa (splitNums ((getDk s0 d).width / 8) p.length p) = none ∧ putSheets s0 d "DATA-SHEETS" (32 * pa) (splitNums ((getDk s0 d).width / 8) p.length p) = .ok (r, t) ∧ AcceptsBlk (tenantForm "DATA") h blk s) ∧
    (∃ (h : Hdr) (pa : Nat) (i : Nat) (ts : Nat) (codes : String) (cs : List Nat) (s : State) (s0 : State) (d : Nat) (k : Deckle) (r : State) (t : Line), begun h s = s0 ∧ myDk s0 h = d ∧ getDk s0 d = k ∧ pa < patternSize k.editing k.width ∧ i < 32 ∧ ts < 32 ∧ (codes : String).toList.filterMap codeOf = cs ∧ cs.length = codes.length ∧ codes.length = k.grant.ch.length ∧ quiresHeld k k.editing pa 1 = .ok () ∧ notProgram k k.editing pa 1 = .ok () ∧ putSheets s0 d "DATA-SHEET" (32 * pa + i) [sheetOf ts 0 cs] = .ok (r, t) ∧ Accepts (tenantForm "DATA") h s) ∧
    (∃ (h : Hdr) (pa : Nat) (n : Nat) (s : State) (s0 : State) (d : Nat) (k : Deckle) (l : List Nat) (r : State), begun h s = s0 ∧ myDk s0 h = d ∧ getDk s0 d = k ∧ quireRange k k.inForce 3 pa n = .ok () ∧ quiresHeld k k.inForce pa n = .ok () ∧ n * (4 * k.width) ≤ 1048576 ∧ l = (List.range n).map (fun i => quireAddr k.inForce k.width (pa + i)) ∧ r = forEach l s0 (fun s a => wakeBank s (a / 2 ^ 20)) ∧ l.forM (fun a => readOk r a (4 * k.width)) = .ok () ∧ Accepts (readForm "DATA") h s) ∧
    (∃ (h : Hdr) (v : Nat) (s : State) (s0 : State) (d : Nat) (r : State) (t : Line), begun h s = s0 ∧ myDk s0 h = d ∧ v ≤ 63 ∧ v ∈ (getDk s0 d).grant.banks ∧ edit s0 d (some "SEQ-BANK") (fun f => { f with prog := some v }) = .ok (r, t) ∧ Accepts (tenantForm "SEQ") h s) ∧
    (∃ (h : Hdr) (a : Nat) (blk : Blk) (s : State) (s0 : State) (d : Nat) (p : List Nat) (r : State) (t : Line), BlkIs h blk s p ∧ begunBlk h blk s = s0 ∧ myDk s0 h = d ∧ p.length % 8 = 0 ∧ a < 131072 ∧ a + p.length / 8 ≤ 131072 ∧ progHeld (getDk s0 d) (getDk s0 d).editing = .ok () ∧ putOps s0 d "SEQ-LOAD" a (splitNums 8 p.length p) = .ok (r, t) ∧ AcceptsBlk (tenantForm "SEQ") h blk s) ∧
    (∃ (h : Hdr) (a : Nat) (x : OpText) (o : Op) (s : State) (s0 : State) (d : Nat) (r : State) (t : Line), begun h s = s0 ∧ myDk s0 h = d ∧ a < 131072 ∧ assemble 4 x = .ok o ∧ putOps s0 d "SEQ-OP" a [o.word] = .ok (r, t) ∧ Accepts (tenantForm "SEQ") h s) ∧
    (∃ (h : Hdr) (a : Nat) (s : State) (s0 : State) (d : Nat) (r : State) (t : Line), begun h s = s0 ∧ myDk s0 h = d ∧ a < 131072 ∧ edit s0 d (some "SEQ-ENTRY") (fun f => { f with entry := a }) = .ok (r, t) ∧ Accepts (tenantForm "SEQ") h s) ∧
    (∃ (h : Hdr) (a : Nat) (b : Nat) (v : Nat) (s : State) (s0 : State) (d : Nat) (f : Furnish) (r : State), begun h s = s0 ∧ myDk s0 h = d ∧ (getDk s0 d).inForce = f ∧ a ≤ b ∧ b < 131072 ∧ progHeld (getDk s0 d) f = .ok () ∧ f.prog = some v ∧ r = wakeBank s0 v ∧ bankErr r (opAddr v a) (8 * (b + 1 - a)) = none) ∧
    (∃ (h : Hdr) (s : State) (s0 : State) (d : Nat) (k : Deckle), begun h s = s0 ∧ myDk s0 h = d ∧ getDk s0 d = k ∧ progHeld k k.inForce = .ok () ∧ programReadable s0 k.inForce = none ∧ Accepts (readForm "SEQ") h s) :=
  ⟨⟨hT, [u1 .v 0], ten (dkS .opened), _, _, _, _, _, rfl, rfl, okGet (by decide +kernel), by decide +kernel, by decide +kernel, rfl, acc (by decide +kernel)⟩,
    ⟨hT, 8191, 1, blkOf (List.replicate 128 0), ten (dkS .opened), _, _, List.replicate 128 0, _, _, blkIs (by decide +kernel), rfl, rfl, by decide +kernel, by decide +kernel, by decide +kernel, by decide +kernel, by decide +kernel, okGet2 (by decide +kernel), accBlk (by decide +kernel)⟩,
    ⟨hT, 8191, 31, 31, "01", _, ten (dkS .opened), _, _, _, _, _, rfl, rfl, rfl, by decide +kernel, by decide +kernel, by decide +kernel, rfl, by decide +kernel, by decide +kernel, by decide +kernel, by decide +kernel, rfl, acc (by decide +kernel)⟩,
    ⟨hT, 8191, 1, ten (dkS .opened), _, _, _, _, _, rfl, rfl, rfl, by decide +kernel, by decide +kernel, by decide +kernel, rfl, rfl, by decide +kernel, acc (by decide +kernel)⟩,
    ⟨hT, 1, ten (dkS .opened), _, _, _, _, rfl, rfl, by decide +kernel, by decide +kernel, rfl, acc (by decide +kernel)⟩,
    ⟨hT, 131071, blkOf (List.replicate 8 0), ten (dkS .opened), _, _, List.replicate 8 0, _, _, blkIs (by decide +kernel), rfl, rfl, by decide +kernel, by decide +kernel, by decide +kernel, by decide +kernel, rfl, accBlk (by decide +kernel)⟩,
    ⟨hT, 131071, .nop, _, ten (dkS .opened), _, _, _, _, rfl, rfl, by decide +kernel, okGet (by decide +kernel), rfl, acc (by decide +kernel)⟩,
    ⟨hT, 131071, ten (dkS .opened), _, _, _, _, rfl, rfl, by decide +kernel, rfl, acc (by decide +kernel)⟩,
    ⟨hT, 0, 0, 1, tenP (plain1 .opened), _, _, _, _, rfl, rfl, rfl, by decide +kernel, by decide +kernel, by decide +kernel, by decide +kernel, rfl, by decide +kernel⟩,
    ⟨hT, tenP (plain1 .opened), _, _, _, rfl, rfl, rfl, by decide +kernel, by decide +kernel, acc (by decide +kernel)⟩⟩

theorem witness_MicroCommandsComplete :
    (∃ (h : Hdr) (kind : ImgKind) (n : Option Nat) (blk : Blk) (c : Container) (s : State) (s0 : State) (p : List Nat) (x : Image), BlkIs h blk s p ∧ begunBlk h blk s = s0 ∧ (n.isSome = true ↔ kind = ImgKind.patch) ∧ n.getD 0 < 16 ∧ imageChecks s0 kind (n.getD 0) p c = .ok () ∧ x = imageOf kind p c ∧ AcceptsBlk (ownerForm "MICRO") h blk s) ∧
    (∃ (dt : Nat) (s : State) (k : Nat) (n : Nat) (x : Image) (l : List (Nat × Nat × Image)) (j : Job) (rest : List Job) (t : Line) (r : State), s.md.storing = (k, n, x) :: l ∧ r = endStore (advance s dt) k n x ∧ r.jobs = j :: rest ∧ j.kind = .image t) ∧
    (∃ (h : Hdr) (s : State) (l : List Line), l = (s.nv.fwA.map (imageLine [w "FW", w "A"])).toList ++ (s.nv.fwB.map (imageLine [w "FW", w "B"])).toList ++ [imageLine [w "UCODE"] s.nv.uc] ++ s.nv.patches.map (fun e => imageLine [w "PATCH", { val := [.d e.1] }] e.2) ∧ Accepts { ownerForm "MICRO" with ro := true } h s) ∧
    (∃ (h : Hdr) (n : Nat) (s : State), n < 16 ∧ Accepts (ownerForm "MICRO") h s) ∧
    (∃ (h : Hdr) (nano : Bool) (a : Nat) (blk : Blk) (s : State) (s0 : State) (d : Nat) (p : List Nat) (sz : Nat) (o : Nat) (r : State) (t : Line), BlkIs h blk s p ∧ begunBlk h blk s = s0 ∧ myDk s0 h = d ∧ sz = (if nano then 16 else 4) ∧ p.length % sz = 0 ∧ a < (if nano then 4096 else 16384) ∧ sliceRange d 4 nano a (p.length / sz) = .ok o ∧ writeSlice s0 d nano o p = .ok (r, t) ∧ AcceptsBlk (tenantForm "MICRO") h blk s) ∧
    (∃ (h : Hdr) (a : Nat) (v : Hex) (s : State) (s0 : State) (d : Nat) (o : Nat) (r : State) (t : Line), begun h s = s0 ∧ myDk s0 h = d ∧ (v : Hex).val < 2 ^ 32 ∧ sliceRange d 4 false a 1 = .ok o ∧ writeSlice s0 d false o (leNats 4 v.val) = .ok (r, t) ∧ Accepts (tenantForm "MICRO") h s) ∧
    (∃ (h : Hdr) (a : Nat) (v : Hex) (lo : Hex) (s : State) (s0 : State) (d : Nat) (o : Nat) (r : State) (t : Line), begun h s = s0 ∧ myDk s0 h = d ∧ (v : Hex).val < 2 ^ 64 ∧ (lo : Hex).val < 2 ^ 64 ∧ sliceRange d 4 true a 1 = .ok o ∧ writeSlice s0 d true o (leNats 8 lo.val ++ leNats 8 v.val) = .ok (r, t) ∧ Accepts (tenantForm "MICRO") h s) ∧
    (∃ (h : Hdr) (e : Nat) (v : Hex) (s : State) (s0 : State) (d : Nat) (r : State) (t : Line), begun h s = s0 ∧ myDk s0 h = d ∧ e < 32 ∧ (v : Hex).val < 2 ^ 32 ∧ v.val / 2 ^ 10 % 2 ^ 18 = 0 ∧ writeOrStage s0 d "MICRO-LOAD" 4 (.disp e v.val) id = .ok (r, t) ∧ Accepts (tenantForm "MICRO") h s) ∧
    (∃ (h : Hdr) (s : State) (s0 : State) (d : Nat), begun h s = s0 ∧ myDk s0 h = d ∧ Accepts (readForm "MICRO") h s) ∧
    (∃ (h : Hdr) (nano : Bool) (a : Nat) (n : Nat) (s : State) (s0 : State) (d : Nat) (o : Nat), begun h s = s0 ∧ myDk s0 h = d ∧ 1 ≤ n ∧ sliceRange d 4 nano a n = .ok o ∧ Accepts (readForm "MICRO") h s) ∧
    (∃ (h : Hdr) (s : State) (s0 : State) (d : Nat) (f : Furnish) (sites : List (Site × List UInfo)), begun h s = s0 ∧ myDk s0 h = d ∧ (getDk s0 d).inForce = f ∧ progHeld (getDk s0 d) f = .ok () ∧ programReadable s0 f = none ∧ sites = sitesOf s0 d (getDk s0 d).grant f (progOf s0 d (getDk s0 d).grant f) ∧ microFault s0 sites = none ∧ admitted s0 d (getDk s0 d).grant f "PATTERN" = none ∧ Accepts (readForm "MICRO") h s) ∧
    (∃ (h : Hdr) (s : State) (s0 : State) (d : Nat) (r : State) (t : Line), begun h s = s0 ∧ myDk s0 h = d ∧ writeOrStage s0 d "MICRO-LOAD" 0 .clear (fun s => applyStaged s d .clear) = .ok (r, t) ∧ Accepts (tenantForm "MICRO") h s) :=
  ⟨⟨hO, .patch, some 15, blkOf ([0x48, 0x51, 0x50, 0x43, 0, 1, 1, 64] ++ List.replicate 11 0 ++ [1, 0, 0, 0, 8] ++ List.replicate 144 0), { plain := [1, 0, 0, 0, 0, 0, 0, 0] }, { one 0 .owner with nv := { uc := { ver := (0, 0, 0) } } }, _, ([0x48, 0x51, 0x50, 0x43, 0, 1, 1, 64] ++ List.replicate 11 0 ++ [1, 0, 0, 0, 8] ++ List.replicate 144 0), _, blkIs (by decide +kernel), rfl, by decide +kernel, by decide +kernel, by decide +kernel, rfl, accBlk (by decide +kernel)⟩,
    ⟨0, { rdy with md := { rdy.md with storing := [(2, 0, {})] }, jobs := [{ kind := .image [] }] }, _, _, _, _, _, _, [], _, rfl, rfl, rfl, rfl⟩,
    ⟨hO, one 0 .owner, _, rfl, acc (by decide +kernel)⟩,
    ⟨hO, 15, one 0 .owner, by decide +kernel, acc (by decide +kernel)⟩,
    ⟨hT, false, 9215, blkOf [0, 0, 0, 0], ten (dkS .opened), _, _, [0, 0, 0, 0], _, _, _, _, blkIs (by decide +kernel), rfl, rfl, rfl, by decide +kernel, by decide +kernel, okGet (by decide +kernel), rfl, accBlk (by decide +kernel)⟩,
    ⟨hT, 9215, {}, ten (dkS .opened), _, _, _, _, _, rfl, rfl, by decide +kernel, okGet (by decide +kernel), rfl, acc (by decide +kernel)⟩,
    ⟨hT, 2303, {}, {}, ten (dkS .opened), _, _, _, _, _, rfl, rfl, by decide +kernel, by decide +kernel, okGet (by decide +kernel), rfl, acc (by decide +kernel)⟩,
    ⟨hT, 31, {}, ten (dkS .opened), _, _, _, _, rfl, rfl, by decide +kernel, by decide +kernel, by decide +kernel, rfl, acc (by decide +kernel)⟩,
    ⟨hT, ten (dkS .opened), _, _, rfl, rfl, acc (by decide +kernel)⟩,
    ⟨hT, false, 9215, 1, ten (dkS .opened), _, _, _, rfl, rfl, by decide +kernel, okGet (by decide +kernel), acc (by decide +kernel)⟩,
    ⟨hT, tenP (plain1 .opened), _, _, _, _, rfl, rfl, rfl, by decide +kernel, by decide +kernel, rfl, by decide +kernel, by decide +kernel, acc (by decide +kernel)⟩,
    ⟨hT, ten (dkS .opened), _, _, _, _, rfl, rfl, rfl, acc (by decide +kernel)⟩⟩

theorem witness_StockOpsComplete :
    (∃ (dt : Nat) (d : Fin 8) (s : State) (o : Op) (s0 : State) (k : Deckle), AtOp dt d s o ∧ advance s dt = s0 ∧ getDk s d = k ∧ o.code = 0x00) ∧
    (∃ (dt : Nat) (d : Fin 8) (s : State) (o : Op) (s0 : State) (k : Deckle), AtOp dt d s o ∧ advance s dt = s0 ∧ getDk s d = k ∧ o.code = 0x01) ∧
    (∃ (dt : Nat) (d : Fin 8) (s : State) (o : Op) (s0 : State) (k : Deckle), AtOp dt d s o ∧ advance s dt = s0 ∧ getDk s d = k ∧ o.code = 0x10 ∧ k.seq.dreg = none) ∧
    (∃ (dt : Nat) (d : Fin 8) (s : State) (o : Op) (s0 : State) (k : Deckle), AtOp dt d s o ∧ advance s dt = s0 ∧ getDk s d = k ∧ o.code = 0x11 ∧ k.thr.mt = none ∧ k.seq.dreg = none) ∧
    (∃ (dt : Nat) (d : Fin 8) (s : State) (o : Op) (s0 : State) (k : Deckle) (m : MatchSt), AtOp dt d s o ∧ advance s dt = s0 ∧ getDk s d = k ∧ o.code = 0x11 ∧ k.thr.mt = some m ∧ k.seq.dreg = none ∧ 3 ≤ m.reps ∧ resultsIn k.seq = true ∧ k.seq.matched.any (fun j => j + 3 ≤ k.seq.nextD) = true) ∧
    (∃ (dt : Nat) (d : Fin 8) (s : State) (o : Op) (s0 : State) (k : Deckle), AtOp dt d s o ∧ advance s dt = s0 ∧ getDk s d = k ∧ o.code = 0x12 ∧ k.seq.dreg = none) ∧
    (∃ (dt : Nat) (d : Fin 8) (s : State) (o : Op) (s0 : State) (k : Deckle), AtOp dt d s o ∧ advance s dt = s0 ∧ getDk s d = k ∧ o.code = 0x20 ∧ k.thr.depth < 4) ∧
    (∃ (dt : Nat) (d : Fin 8) (s : State) (o : Op) (s0 : State) (k : Deckle) (c : Nat), AtOp dt d s o ∧ advance s dt = s0 ∧ getDk s d = k ∧ o.code = 0x21 ∧ 0 < k.thr.depth ∧ tget k.thr.lc (k.thr.depth - 1) 0 = c ∧ 0 < c) ∧
    (∃ (dt : Nat) (d : Fin 8) (s : State) (o : Op) (s0 : State) (k : Deckle), AtOp dt d s o ∧ advance s dt = s0 ∧ getDk s d = k ∧ o.code = 0x21 ∧ 0 < k.thr.depth ∧ tget k.thr.lc (k.thr.depth - 1) 0 = 0) ∧
    (∃ (dt : Nat) (d : Fin 8) (s : State) (o : Op) (s0 : State), AtOp dt d s o ∧ advance s dt = s0 ∧ o.code = 0x22) ∧
    (∃ (dt : Nat) (d : Fin 8) (s : State) (o : Op) (s0 : State) (k : Deckle), AtOp dt d s o ∧ advance s dt = s0 ∧ getDk s d = k ∧ o.code = 0x23 ∧ k.thr.os.length < 16) ∧
    (∃ (dt : Nat) (d : Fin 8) (s : State) (o : Op) (s0 : State) (k : Deckle) (r : Nat) (e : Nat) (l : List (Nat × Nat)), AtOp dt d s o ∧ advance s dt = s0 ∧ getDk s d = k ∧ o.code = 0x24 ∧ k.thr.os = (r, e) :: l) ∧
    (∃ (dt : Nat) (d : Fin 8) (s : State) (o : Op) (s0 : State) (k : Deckle) (bit : Bool), AtOp dt d s o ∧ advance s dt = s0 ∧ getDk s d = k ∧ o.code = 0x25 ∧ resultsIn k.seq = true ∧ bit = (if o.flag / 2 % 2 = 1 then k.seq.sfail else qfailOf k.seq) ∧ o.flag / 4 % 2 = 0) ∧
    (∃ (dt : Nat) (d : Fin 8) (s : State) (o : Op) (s0 : State) (k : Deckle), AtOp dt d s o ∧ advance s dt = s0 ∧ getDk s d = k ∧ o.code = 0x30) ∧
    (∃ (dt : Nat) (d : Fin 8) (s : State) (o : Op) (s0 : State) (k : Deckle), AtOp dt d s o ∧ advance s dt = s0 ∧ getDk s d = k ∧ o.code = 0x31) ∧
    (∃ (dt : Nat) (d : Fin 8) (s : State) (o : Op) (s0 : State) (k : Deckle), AtOp dt d s o ∧ advance s dt = s0 ∧ getDk s d = k ∧ o.code = 0x32) ∧
    (∃ (dt : Nat) (d : Fin 8) (s : State) (o : Op) (s0 : State) (k : Deckle) (e : Nat), AtOp dt d s o ∧ advance s dt = s0 ∧ getDk s d = k ∧ 0xE0 ≤ o.code ∧ tget k.act.ctab (o.code - 0xE0) 0 = e ∧ e / 2 ^ 31 % 2 = 1) ∧
    (∃ (dt : Nat) (d : Fin 8) (s : State), (getDk s (d : Fin 8)).thr.wait = some .brfail ∧ threadOk (advance s dt) (getDk s d) = true ∧ resultsIn (getDk s d).seq = true) :=
  ⟨⟨0, 0, { ten { dkS .running with thr := { active := true } } with vat := mputNum [] (2 ^ 20) 8 (0x00 * 2 ^ 56) }, opW 0x00, _, _, atOp (by decide +kernel), rfl, rfl, by decide +kernel⟩,
    ⟨0, 0, { ten { dkS .running with thr := { active := true } } with vat := mputNum [] (2 ^ 20) 8 (0x01 * 2 ^ 56) }, opW 0x01, _, _, atOp (by decide +kernel), rfl, rfl, by decide +kernel⟩,
    ⟨0, 0, { ten { dkS .running with thr := { active := true } } with vat := mputNum [] (2 ^ 20) 8 (0x10 * 2 ^ 56) }, opW 0x10, _, _, atOp (by decide +kernel), rfl, rfl, by decide +kernel, by decide +kernel⟩,
    ⟨0, 0, { ten { dkS .running with thr := { active := true } } with vat := mputNum [] (2 ^ 20) 8 (0x11 * 2 ^ 56) }, opW 0x11, _, _, atOp (by decide +kernel), rfl, rfl, by decide +kernel, by decide +kernel, by decide +kernel⟩,
    ⟨0, 0, { ten { dkS .running with thr := { active := true, mt := some { reps := 3 } }, seq := { nextD := 3, nextP := 3, resUp := 3, matched := some 0 } } with vat := mputNum [] (2 ^ 20) 8 (0x11 * 2 ^ 56) }, opW 0x11, _, _, _, atOp (by decide +kernel), rfl, rfl, by decide +kernel, rfl, by decide +kernel, by decide +kernel, by decide +kernel, by decide +kernel⟩,
    ⟨0, 0, { ten { dkS .running with thr := { active := true } } with vat := mputNum [] (2 ^ 20) 8 (0x12 * 2 ^ 56) }, opW 0x12, _, _, atOp (by decide +kernel), rfl, rfl, by decide +kernel, by decide +kernel⟩,
    ⟨0, 0, { ten { dkS .running with thr := { active := true } } with vat := mputNum [] (2 ^ 20) 8 (0x20 * 2 ^ 56) }, opW 0x20, _, _, atOp (by decide +kernel), rfl, rfl, by decide +kernel, by decide +kernel⟩,
    ⟨0, 0, { ten { dkS .running with thr := { active := true, depth := 1, lc := [(0, 1)] } } with vat := mputNum [] (2 ^ 20) 8 (0x21 * 2 ^ 56) }, opW 0x21, _, _, _, atOp (by decide +kernel), rfl, rfl, by decide +kernel, by decide +kernel, rfl, by decide +kernel⟩,
    ⟨0, 0, { ten { dkS .running with thr := { active := true, depth := 1 } } with vat := mputNum [] (2 ^ 20) 8 (0x21 * 2 ^ 56) }, opW 0x21, _, _, atOp (by decide +kernel), rfl, rfl, by decide +kernel, by decide +kernel, by decide +kernel⟩,
    ⟨0, 0, { ten { dkS .running with thr := { active := true } } with vat := mputNum [] (2 ^ 20) 8 (0x22 * 2 ^ 56) }, opW 0x22, _, atOp (by decide +kernel), rfl, by decide +kernel⟩,
    ⟨0, 0, { ten { dkS .running with thr := { active := true } } with vat := mputNum [] (2 ^ 20) 8 (0x23 * 2 ^ 56) }, opW 0x23, _, _, atOp (by decide +kernel), rfl, rfl, by decide +kernel, by decide +kernel⟩,
    ⟨0, 0, { ten { dkS .running with thr := { active := true, os := [(1, 0)] } } with vat := mputNum [] (2 ^ 20) 8 (0x24 * 2 ^ 56) }, opW 0x24, _, _, _, _, _, atOp (by decide +kernel), rfl, rfl, by decide +kernel, rfl⟩,
    ⟨0, 0, { ten { dkS .running with thr := { active := true }, seq := { nextD := 3, nextP := 3, resUp := 3 } } with vat := mputNum [] (2 ^ 20) 8 (0x25 * 2 ^ 56) }, opW 0x25, _, _, _, atOp (by decide +kernel), rfl, rfl, by decide +kernel, by decide +kernel, rfl, by decide +kernel⟩,
    ⟨0, 0, { ten { dkS .running with thr := { active := true } } with vat := mputNum [] (2 ^ 20) 8 (0x30 * 2 ^ 56) }, opW 0x30, _, _, atOp (by decide +kernel), rfl, rfl, by decide +kernel⟩,
    ⟨0, 0, { ten { dkS .running with thr := { active := true } } with vat := mputNum [] (2 ^ 20) 8 (0x31 * 2 ^ 56) }, opW 0x31, _, _, atOp (by decide +kernel), rfl, rfl, by decide +kernel⟩,
    ⟨0, 0, { ten { dkS .running with thr := { active := true } } with vat := mputNum [] (2 ^ 20) 8 (0x32 * 2 ^ 56) }, opW 0x32, _, _, atOp (by decide +kernel), rfl, rfl, by decide +kernel⟩,
    ⟨0, 0, { ten { dkS .running with thr := { active := true }, act := { furn0 with ctab := [(0, 2 ^ 31)] } } with vat := mputNum [] (2 ^ 20) 8 (0xe0 * 2 ^ 56) }, opW 0xe0, _, _, _, atOp (by decide +kernel), rfl, rfl, by decide +kernel, rfl, by decide +kernel⟩,
    ⟨0, 0, ten { dkS .running with thr := { active := true, wait := some .brfail }, seq := { nextD := 3, nextP := 3, resUp := 3 } }, by decide +kernel, by decide +kernel, by decide +kernel⟩⟩

theorem witness_SequencerEventsComplete :
    (∃ (dt : Nat) (d : Fin 8) (s : State) (s0 : State) (k : Deckle) (x : DItem), advance s dt = s0 ∧ getDk s0 (d : Fin 8) = k ∧ k.seq.dreg = some x ∧ lead k.seq (now s0) < leadLimit k.seq ∧ k.seq.bad = none ∧ k.seq.stops = [] ∧ k.st = .running ∧ bankErr s0 (quireAddr k.act k.width x.pa) (4 * k.width) = none ∧ k.thr.wait = none) ∧
    (∃ (dt : Nat) (d : Fin 8) (_obs : List PinObs) (s : State) (s0 : State) (k : Deckle) (q : FQ) (l : List FQ), pressDue (advance s dt) (d : Fin 8) = s0 ∧ getDk s0 d = k ∧ k.st = .running ∧ s0.rf.run = true ∧ k.seq.start ≤ now s0 * 1024 + 16384 ∧ k.seq.stops = [] ∧ stopPending k = false ∧ k.seq.felts = q :: l ∧ s0.ph.fo ≠ some d.val) ∧
    (∃ (dt : Nat) (d : Fin 8) (_obs : List PinObs) (s : State) (s0 : State) (k : Deckle), pressDue (advance s dt) (d : Fin 8) = s0 ∧ getDk s0 d = k ∧ k.st = .running ∧ s0.rf.run = true ∧ k.seq.start ≤ now s0 * 1024 + 16384 ∧ k.seq.stops = [] ∧ stopPending k = false ∧ k.seq.halting = false ∧ k.seq.felts = [] ∧ k.seq.bad = none) ∧
    (∃ (dt : Nat) (d : Fin 8) (s : State) (s0 : State) (k : Deckle), advance s dt = s0 ∧ getDk s0 (d : Fin 8) = k ∧ k.st = .running ∧ k.seq.start ≤ now s0 * 1024 ∧ k.seq.stops ≠ []) ∧
    (∃ (dt : Nat) (d : Fin 8) (s : State) (s0 : State) (k : Deckle) (r : BrokeRec) (l : List BrokeRec) (b : Nat), advance s dt = s0 ∧ getDk s0 (d : Fin 8) = k ∧ k.res.bq = r :: l ∧ k.act.bbank = some b ∧ k.act.bmode = .first ∧ k.res.bpos < 16383) ∧
    (∃ (dt : Nat) (d : Fin 8) (s : State) (s0 : State) (k : Deckle) (r : CapRec) (l : List CapRec) (b : Nat), advance s dt = s0 ∧ getDk s0 (d : Fin 8) = k ∧ k.res.cq = r :: l ∧ k.act.cbank = some b ∧ k.act.cmode = .first ∧ k.res.cpos < 32767) ∧
    (∃ (dt : Nat) (s : State) (s0 : State), advance s dt = s0) ∧
    (∃ (dt : Nat) (s : State) (s0 : State) (d : Nat), advance s dt = s0 ∧ s0.ph.fo = some d ∧ (getDk s0 d).st ≠ .running) ∧
    (∃ (dt : Nat) (n : Fin 4) (s : State) (s0 : State) (l : List Nat), advance s dt = s0 ∧ tget? s0.ph.toUp (n : Fin 4) = some l) :=
  ⟨⟨0, 0, ten { dkS .running with seq := { dreg := some { left := 4 } } }, _, _, _, rfl, rfl, rfl, by decide +kernel, by decide +kernel, by decide +kernel, by decide +kernel, by decide +kernel, by decide +kernel⟩,
    ⟨0, 0, [], ten { dkS .running with seq := { felts := [{}] } }, _, _, _, _, rfl, rfl, by decide +kernel, by decide +kernel, by decide +kernel, by decide +kernel, by decide +kernel, rfl, by decide +kernel⟩,
    ⟨0, 0, [], ten { dkS .running with seq := {} }, _, _, rfl, rfl, by decide +kernel, by decide +kernel, by decide +kernel, by decide +kernel, by decide +kernel, by decide +kernel, by decide +kernel, by decide +kernel⟩,
    ⟨0, 0, ten { dkS .running with seq := { stops := [.stop] } }, _, _, rfl, rfl, by decide +kernel, by decide +kernel, by decide +kernel⟩,
    ⟨0, 0, ten { dkS .running with act := { furn0 with bbank := some 0 }, res := { bq := [{}], bpos := 16382 } }, _, _, _, _, _, rfl, rfl, rfl, rfl, by decide +kernel, by decide +kernel⟩,
    ⟨0, 0, ten { dkS .running with act := { furn0 with cbank := some 0 }, res := { cq := [{}], cpos := 32766 } }, _, _, _, _, _, rfl, rfl, rfl, rfl, by decide +kernel, by decide +kernel⟩,
    ⟨0, { rdy with ph := { foUp := [0] } }, _, rfl⟩,
    ⟨0, { rdy with ph := { fo := some 0 } }, _, _, rfl, rfl, by decide +kernel⟩,
    ⟨0, 0, { rdy with ph := { toUp := [(0, [0])] } }, _, _, rfl, rfl⟩⟩

theorem witness_PaceAndReferenceComplete :
    (∃ (h : Hdr) (p : Pace) (s : State) (s0 : State), begun h s = s0 ∧ p = s0.nv.pace ∧ s0.pc.next = none ∧ Accepts { word := "PACE", roles := [.o] } h s) ∧
    (∃ (h : Hdr) (p : Pace) (s : State) (s0 : State), begun h s = s0 ∧ p ≠ s0.nv.pace ∧ s0.nv.pace.floor ≤ p.floor ∧ Accepts { word := "PACE", roles := [.o] } h s) ∧
    (∃ (dt : Nat) (s : State) (s0 : State) (p : Pace), { advance s dt with pc := { s.pc with now := p, next := none, low := none, skip := true, hi := (0, 0) } } = s0 ∧ s.pc.next = some p) ∧
    (∃ (h : Hdr) (s : State) (s0 : State), begun h s = s0 ∧ (getLn s0 h.line).role ≠ .owner ∧ Accepts { word := "PACE", roles := [.o, .t], ro := true } h s) ∧
    (∃ (dt : Nat) (ratio : Rat) (s : State) (s0 : State), reportRatio (advance s dt) ratio = s0 ∧ (advance s dt).rf.run = true ∧ s0.pc.next = none ∧ s0.pc.skip = false ∧ 1 / 2 ≤ ratio) ∧
    (∃ (dt : Nat) (ratio : Rat) (s : State) (s0 : State), reportRatio (advance s dt) ratio = s0 ∧ (advance s dt).rf.run = true ∧ s0.pc.next = none ∧ s0.pc.skip = false ∧ ratio < 1 / 2) ∧
    (∃ (h : Hdr) (s : State) (s0 : State), begun h s = s0 ∧ Accepts { word := "REF", roles := [.o, .t], ro := true } h s) ∧
    (∃ (h : Hdr) (src : RefSrc) (force : Bool) (s : State) (s0 : State), begun h s = s0 ∧ src ≠ .chain ∧ isSlave s0 = false ∧ (src ≠ .int ∨ s0.nv.variant = .o) ∧ refInUse s0 src = false ∧ (src ≠ .ext ∨ s0.rf.usable = true) ∧ (force = true ∨ anyInUse s0 = false) ∧ Accepts { word := "REF", roles := [.o] } h s) ∧
    (∃ (h : Hdr) (src : RefSrc) (_force : Bool) (s : State) (s0 : State), begun h s = s0 ∧ src ≠ .chain ∧ isSlave s0 = false ∧ (src ≠ .int ∨ s0.nv.variant = .o) ∧ refInUse s0 src = true ∧ Accepts { word := "REF", roles := [.o] } h s) ∧
    (∃ (dt : Nat) (s : State) (s0 : State) (src : RefSrc), advance s dt = s0 ∧ s0.rf.moving = some src ∧ s0.rf.loss = false ∧ s0.rf.lock = .unlocked ∧ s.pc.repT = none) ∧
    (∃ (dt : Nat) (_cls : RefIn) (_held : Bool) (s : State) (s0 : State), advance s dt = s0 ∧ s0.rf.active ≠ some .ext ∧ s.nv.sel ≠ .ext) ∧
    (∃ (dt : Nat) (cls : RefIn) (held : Bool) (s : State) (s0 : State), advance s dt = s0 ∧ s0.rf.active = some .ext ∧ s0.rf.lock = .locked ∧ (held = false ∨ (cls ≠ .m10 ∧ cls ≠ .m100))) ∧
    (∃ (dt : Nat) (s : State) (s0 : State), advance s dt = s0 ∧ s0.rf.lock = .locked ∧ (s0.rf.active = some .ext ∨ s0.rf.active = some .chain)) ∧
    (∃ (dt : Nat) (s : State) (s0 : State) (t : Nat), advance s dt = s0 ∧ s0.rf.hoT = some t ∧ s.nv.variant = .x ∧ s0.rf.lock = .holdover ∧ s0.rf.loss = true ∧ s0.rf.moving = none ∧ t + 100 * Config.us ≤ s0.wall) ∧
    (∃ (dt : Nat) (rising : Bool) (_fine : Nat) (s : State) (s0 : State) (src : Trig), advance s dt = s0 ∧ s0.rf.run = true ∧ src = (if rising = true then Trig.trigin else .triginF)) ∧
    (∃ (src : Trig) (_t : Nat) (_f : Nat) (s : State) (d : Nat), (getDk s d).act.trig = src ∧ (getDk s d).arming = none ∧ (getDk s d).st = .armed) :=
  ⟨⟨hO, _, one 0 .owner, _, rfl, rfl, by decide +kernel, acc (by decide +kernel)⟩,
    ⟨hO, .swift, one 0 .owner, _, rfl, by decide +kernel, by decide +kernel, acc (by decide +kernel)⟩,
    ⟨0, { rdy with pc := { next := some .eco } }, _, _, rfl, rfl⟩,
    ⟨hT, ten (dkS .opened), _, rfl, by decide +kernel, acc (by decide +kernel)⟩,
    ⟨0, 1, rdy, _, rfl, by decide +kernel, by decide +kernel, by decide +kernel, by decide +kernel⟩,
    ⟨0, 0, rdy, _, rfl, by decide +kernel, by decide +kernel, by decide +kernel, by decide +kernel⟩,
    ⟨hO, one 0 .owner, _, rfl, acc (by decide +kernel)⟩,
    ⟨hO, .ext, false, { one 0 .owner with rf := { rdy.rf with usable := true } }, _, rfl, by decide +kernel, by decide +kernel, by decide +kernel, by decide +kernel, by decide +kernel, by decide +kernel, acc (by decide +kernel)⟩,
    ⟨hO, .int, false, one 0 .owner, _, rfl, by decide +kernel, by decide +kernel, by decide +kernel, by decide +kernel, acc (by decide +kernel)⟩,
    ⟨0, { rdy with rf := { moving := some .int } }, _, _, rfl, rfl, by decide +kernel, by decide +kernel, by decide +kernel⟩,
    ⟨0, .m10, true, { rdy with rf := {} }, _, rfl, by decide +kernel, by decide +kernel⟩,
    ⟨0, .m10, false, { rdy with rf := { rdy.rf with active := some .ext } }, _, rfl, by decide +kernel, by decide +kernel, by decide +kernel⟩,
    ⟨0, { rdy with rf := { rdy.rf with active := some .ext } }, _, rfl, by decide +kernel, by decide +kernel⟩,
    ⟨100 * Config.us, { rdy with nv := { variant := .x }, rf := { lock := .holdover, loss := true, hoT := some 0 } }, _, _, rfl, rfl, by decide +kernel, by decide +kernel, by decide +kernel, by decide +kernel, by decide +kernel⟩,
    ⟨0, true, 1023, rdy, _, _, rfl, by decide +kernel, rfl⟩,
    ⟨.trigin, 0, 1023, ten { dkS .armed with act := { furn0 with trig := .trigin } }, 0, by decide +kernel, by decide +kernel, by decide +kernel⟩⟩

theorem witness_ChainComplete :
    (∃ (h : Hdr) (s : State) (s0 : State), begun h s = s0 ∧ (getLn s0 h.line).role = .owner ∧ Accepts { word := "CHAIN", roles := [.o, .t], ro := true } h s) ∧
    (∃ (h : Hdr) (r : ChainRole) (_force : Bool) (s : State) (s0 : State), begun h s = s0 ∧ r ≠ .slave ∧ Accepts { word := "CHAIN", roles := [.o] } h s) ∧
    (∃ (h : Hdr) (force : Bool) (s : State) (s0 : State), begun h s = s0 ∧ refInUse s0 .chain = false ∧ (force = true ∨ anyInUse s0 = false) ∧ Accepts { word := "CHAIN", roles := [.o] } h s) ∧
    (∃ (h : Hdr) (s : State) (s0 : State), begun h s = s0 ∧ s0.nv.chain = 1 ∧ anyInUse s0 = false ∧ Accepts { word := "CHAIN", roles := [.o] } h s) ∧
    (∃ (h : Hdr) (g : Nat) (s : State) (s0 : State), begun h s = s0 ∧ 1 ≤ g ∧ g ≤ 15 ∧ deckles.any (fun d => (getDk s0 d).inUse && (getDk s0 d).act.group = some g) = false ∧ Accepts { word := "CHAIN", roles := [.o] } h s) ∧
    (∃ (h : Hdr) (g : Nat) (s : State) (s0 : State), begun h s = s0 ∧ 1 ≤ g ∧ g ≤ 15 ∧ deckles.any (fun d => (getDk s0 d).inUse && (getDk s0 d).act.group = some g) = false ∧ Accepts { word := "CHAIN", roles := [.o] } h s) ∧
    (∃ (dt : Nat) (s : State) (s0 : State), advance s dt = s0 ∧ s.nv.chain = 1 ∧ s0.rf.run = true ∧ j4Ok s = true ∧ frameTime s0 = true ∧ s.ch.due = []) ∧
    (∃ (dt : Nat) (s : State) (s0 : State) (f : Frame) (r : List Frame), advance s dt = s0 ∧ s.nv.chain = 1 ∧ s0.rf.run = true ∧ j4Ok s = true ∧ frameTime s0 = true ∧ s.ch.due = f :: r) ∧
    (∃ (dt : Nat) (f : Frame) (s : State) (s0 : State), redrive (advance s dt) f = s0 ∧ isSlave s = true ∧ f.valid = true ∧ f.ty = 0 ∧ s0.rf.lock = .locked ∧ s0.rf.active = some .chain ∧ s0.ch.hb = false ∧ s0.ch.good = 0) ∧
    (∃ (dt : Nat) (f : Frame) (s : State) (s0 : State) (a : Bool), redrive (advance s dt) f = s0 ∧ isSlave s = true ∧ f.valid = true ∧ f.ty = 0 ∧ s0.rf.lock = .locked ∧ s0.rf.active = some .chain ∧ s0.ch.hb = false ∧ s0.ch.good ≠ 0 ∧ a = (decide (now s0 ≤ f.tb + Config.hopDelay + 1 ∧ f.tb + Config.hopDelay ≤ now s0 + 1) && s0.ch.agree)) ∧
    (∃ (dt : Nat) (f : Frame) (s : State) (s0 : State), redrive (advance s dt) f = s0 ∧ isSlave s = true ∧ f.valid = true ∧ f.ty = 2 ∧ (tget? s0.ch.groups f.group).isSome = true) ∧
    (∃ (dt : Nat) (f : Frame) (s : State) (s0 : State), advance s dt = s0 ∧ f.valid = true ∧ f.ty = 3 ∧ s.nv.chain = 1 ∧ hasJob s (fun j => j == .cal) = true) ∧
    (∃ (dt : Nat) (lane : Nat) (s : State) (s0 : State), loseHeartbeat (advance s dt) = s0 ∧ isSlave s = true ∧ 0 < lane ∧ s0.rf.lock = .locked ∧ s0.rf.active = some .chain) ∧
    (∃ (dt : Nat) (s : State) (s0 : State), loseHeartbeat (advance s dt) = s0 ∧ isSlave s = true) ∧
    (∃ (dt : Nat) (s : State) (s0 : State) (x : Int), advance s dt = s0 ∧ s.ch.defer = some x ∧ anyInUse s0 = false) :=
  ⟨⟨hO, one 0 .owner, _, rfl, by decide +kernel, acc (by decide +kernel)⟩,
    ⟨hO, .master, false, one 0 .owner, _, rfl, by decide +kernel, acc (by decide +kernel)⟩,
    ⟨hO, false, one 0 .owner, _, rfl, by decide +kernel, by decide +kernel, acc (by decide +kernel)⟩,
    ⟨hO, { one 0 .owner with nv := { chain := 1 } }, _, rfl, by decide +kernel, by decide +kernel, acc (by decide +kernel)⟩,
    ⟨hO, 15, one 0 .owner, _, rfl, by decide +kernel, by decide +kernel, by decide +kernel, acc (by decide +kernel)⟩,
    ⟨hO, 15, one 0 .owner, _, rfl, by decide +kernel, by decide +kernel, by decide +kernel, acc (by decide +kernel)⟩,
    ⟨0, { one 0 .owner with nv := { chain := 1 } }, _, rfl, by decide +kernel, by decide +kernel, by decide +kernel, by decide +kernel, by decide +kernel⟩,
    ⟨0, { one 0 .owner with nv := { chain := 1 }, ch := { due := [{ ty := 2 }] } }, _, _, _, rfl, by decide +kernel, by decide +kernel, by decide +kernel, rfl, rfl⟩,
    ⟨0, Frame.sealed {}, { rdy with nv := { chain := 2, sel := .chain }, ch := {  }, rf := { rdy.rf with active := some .chain } }, _, rfl, by decide +kernel, by decide +kernel, by decide +kernel, by decide +kernel, by decide +kernel, by decide +kernel, by decide +kernel⟩,
    ⟨0, Frame.sealed { tb := 1000000 }, { rdy with nv := { chain := 2, sel := .chain }, ch := { good := 1 }, rf := { rdy.rf with active := some .chain } }, _, _, rfl, by decide +kernel, by decide +kernel, by decide +kernel, by decide +kernel, by decide +kernel, by decide +kernel, by decide +kernel, rfl⟩,
    ⟨0, Frame.sealed { ty := 2, group := 1 }, { rdy with nv := { chain := 2, sel := .chain }, ch := { groups := [(1, .cmd)] }, rf := { rdy.rf with active := some .chain } }, _, rfl, by decide +kernel, by decide +kernel, by decide +kernel, by decide +kernel⟩,
    ⟨0, Frame.sealed { ty := 3 }, { one 0 .owner with nv := { chain := 1 }, jobs := [{ kind := .cal }] }, _, rfl, by decide +kernel, by decide +kernel, by decide +kernel, by decide +kernel⟩,
    ⟨0, 1, { rdy with nv := { chain := 2, sel := .chain }, ch := { hb := true }, rf := { rdy.rf with active := some .chain } }, _, rfl, by decide +kernel, by decide +kernel, by decide +kernel, by decide +kernel⟩,
    ⟨0, { rdy with nv := { chain := 2, sel := .chain }, ch := { hb := true }, rf := { rdy.rf with active := some .chain } }, _, rfl, by decide +kernel⟩,
    ⟨0, { rdy with nv := { chain := 2, sel := .chain }, ch := { defer := some 5 }, rf := { rdy.rf with active := some .chain } }, _, _, rfl, rfl, by decide +kernel⟩⟩

theorem witness_MicrowordsExecute :
    (∃ (dt : Nat) (d : Fin 8) (s : State) (x : UWord) (n : NWord), AtWord dt d s x n ∧ x.mode = 0) ∧
    (∃ (dt : Nat) (d : Fin 8) (s : State) (x : UWord) (n : NWord), AtWord dt d s x n ∧ x.mode = 1) ∧
    (∃ (dt : Nat) (d : Fin 8) (s : State) (x : UWord) (n : NWord), AtWord dt d s x n ∧ x.mode = 2) ∧
    (∃ (dt : Nat) (d : Fin 8) (s : State) (x : UWord) (n : NWord), AtWord dt d s x n ∧ x.mode = 3) ∧
    (∃ (dt : Nat) (d : Fin 8) (s : State) (x : UWord) (n : NWord), AtWord dt d s x n ∧ x.mode = 4) ∧
    (∃ (dt : Nat) (d : Fin 8) (s : State) (x : UWord) (n : NWord), AtWord dt d s x n ∧ x.mode = 5) ∧
    (∃ (dt : Nat) (d : Fin 8) (s : State) (x : UWord) (n : NWord), AtWord dt d s x n ∧ x.mode = 6) ∧
    (∃ (dt : Nat) (d : Fin 8) (s : State) (x : UWord) (n : NWord), AtWord dt d s x n ∧ x.mode = 7) :=
  ⟨⟨0, 0, ucode 0 0 [], _, _, atWord (x := uwordOf (0x800 * 2 ^ 20 + 0 * 2 ^ 17 + 0)) (n := nwordOf 0) (by decide +kernel), by decide +kernel⟩,
    ⟨0, 0, ucode 1 8192 [], _, _, atWord (x := uwordOf (0x800 * 2 ^ 20 + 1 * 2 ^ 17 + 8192)) (n := nwordOf 0) (by decide +kernel), by decide +kernel⟩,
    ⟨0, 0, ucode 2 8192 [], _, _, atWord (x := uwordOf (0x800 * 2 ^ 20 + 2 * 2 ^ 17 + 8192)) (n := nwordOf 0) (by decide +kernel), by decide +kernel⟩,
    ⟨0, 0, ucode 3 0 [{ addr := 0x2001 }], _, _, atWord (x := uwordOf (0x800 * 2 ^ 20 + 3 * 2 ^ 17 + 0)) (n := nwordOf 0) (by decide +kernel), by decide +kernel⟩,
    ⟨0, 0, ucode 4 0 [], _, _, atWord (x := uwordOf (0x800 * 2 ^ 20 + 4 * 2 ^ 17 + 0)) (n := nwordOf 0) (by decide +kernel), by decide +kernel⟩,
    ⟨0, 0, ucode 5 0 [], _, _, atWord (x := uwordOf (0x800 * 2 ^ 20 + 5 * 2 ^ 17 + 0)) (n := nwordOf 0) (by decide +kernel), by decide +kernel⟩,
    ⟨0, 0, ucode 6 0 [], _, _, atWord (x := uwordOf (0x800 * 2 ^ 20 + 6 * 2 ^ 17 + 0)) (n := nwordOf 0) (by decide +kernel), by decide +kernel⟩,
    ⟨0, 0, ucode 7 4096 [], _, _, atWord (x := uwordOf (0x800 * 2 ^ 20 + 7 * 2 ^ 17 + 4096)) (n := nwordOf 0) (by decide +kernel), by decide +kernel⟩⟩

theorem witness_AluOperationsComplete :
    ∀ code, ∃ dt d f s, AtPart dt d s (AluF.nword code f) ∧ f.asel ≤ 27 ∧ f.bsel ≤ 27 ∧ f.dsel ≤ 22 :=
  fun code => ⟨0, 0, { asel := 27, bsel := 27, dsel := 22 }, ten runK, ⟨by decide +kernel, by decide +kernel, rfl, rfl⟩, by decide, by decide, by decide⟩

theorem witness_PortActionsComplete :
    (∃ (dt : Nat) (d : Fin 8) (b : Fin 64) (s : State) (s0 : State) (k : Deckle), advance s dt = s0 ∧ getDk s d = k ∧ AtPart dt d s { pclass := 1, parg := pfield 90 1 + pfield 84 b } ∧ k.thr.mar.toNat / 4 * 4 < 2 ^ 15) ∧
    (∃ (dt : Nat) (d : Fin 8) (b : Fin 64) (s : State) (s0 : State) (k : Deckle), advance s dt = s0 ∧ getDk s d = k ∧ AtPart dt d s { pclass := 2, parg := pfield 90 1 + pfield 84 b } ∧ k.thr.mar.toNat / 4 * 4 < 2 ^ 15) ∧
    (∃ (dt : Nat) (d : Fin 8) (cont : Bool) (p : Fin 16) (n : Fin 16) (s : State) (s0 : State) (k : Deckle), advance s dt = s0 ∧ getDk s d = k ∧ AtPart dt d s { pclass := 3, parg := pfield 91 (if cont = true then 1 else 0) + pfield 87 p + pfield 83 n }) ∧
    (∃ (dt : Nat) (d : Fin 8) (q : Fin 128) (s : State) (s0 : State) (k : Deckle) (x : BitVec 32) (l : List (BitVec 32)), advance s dt = s0 ∧ getDk s d = k ∧ AtPart dt d s { pclass := 4, parg := pfield 84 q } ∧ 48 ≤ q.val ∧ q.val ≤ 95 ∧ tget k.res.rings (q.val - 48) [] = x :: l) ∧
    (∃ (dt : Nat) (d : Fin 8) (q : Fin 128) (s : State) (s0 : State) (k : Deckle), advance s dt = s0 ∧ getDk s d = k ∧ AtPart dt d s { pclass := 5, parg := pfield 84 q } ∧ q.val = 112 + d) ∧
    (∃ (dt : Nat) (d : Fin 8) (q : Fin 128) (s : State) (s0 : State) (k : Deckle), advance s dt = s0 ∧ getDk s d = k ∧ AtPart dt d s { pclass := 5, parg := pfield 84 q } ∧ q.val = 120 + d) ∧
    (∃ (dt : Nat) (d : Fin 8) (c : Fin 4) (x : Fin 256) (s : State) (s0 : State) (k : Deckle), advance s dt = s0 ∧ getDk s d = k ∧ AtPart dt d s { pclass := 7, parg := pfield 90 c + pfield 82 x }) ∧
    (∃ (dt : Nat) (d : Fin 8) (_a : BitVec 32) (s : State) (s0 : State), advance s dt = s0 ∧ AtPart dt d s { pclass := 8, parg := pfield 89 0 }) ∧
    (∃ (dt : Nat) (d : Fin 8) (m : Fin 8) (_a : BitVec 32) (s : State) (s0 : State), advance s dt = s0 ∧ AtPart dt d s { pclass := 8, parg := pfield 89 1 + pfield 86 m }) ∧
    (∃ (dt : Nat) (d : Fin 8) (s : State) (s0 : State), advance s dt = s0 ∧ AtPart dt d s { pclass := 8, parg := pfield 89 2 }) ∧
    (∃ (dt : Nat) (d : Fin 8) (_a : BitVec 32) (s : State) (s0 : State), advance s dt = s0 ∧ AtPart dt d s { pclass := 9 }) ∧
    (∃ (dt : Nat) (d : Fin 8) (p : Fin 16) (r : Fin 16) (whdr : Bool) (k16 : BitVec 16) (pmask : BitVec 48) (s : State) (s0 : State) (k : Deckle) (x : Nat), advance s dt = s0 ∧ getDk s d = k ∧ AtPart dt d s { pclass := 10, parg := pfield 87 p + pfield 83 r + pfield 82 (if whdr = true then 1 else 0), k16 := k16.toNat, pmask := pmask.toNat } ∧ (k.thr.reg p).toNat < patternSize k.act k.width ∧ x = mnum s0.vat (sheetAddr k.act k.width (k.thr.reg p).toNat ((k.thr.reg r).toNat % 32)) (k.width / 8)) ∧
    (∃ (dt : Nat) (d : Fin 8) (a : BitVec 28) (s : State) (s0 : State), advance s dt = s0 ∧ AtPart dt d s { pclass := 15, parg := a.toNat }) :=
  ⟨⟨0, 0, 63, ten { runK with thr := { runK.thr with mar := 32764 } }, _, _, rfl, rfl, atPart (by decide +kernel), by decide +kernel⟩,
    ⟨0, 0, 63, ten { runK with thr := { runK.thr with mar := 32764 } }, _, _, rfl, rfl, atPart (by decide +kernel), by decide +kernel⟩,
    ⟨0, 0, true, 15, 15, ten runK, _, _, rfl, rfl, atPart (by decide +kernel)⟩,
    ⟨0, 0, 95, ten { runK with res := { rings := [(47, [5])] } }, _, _, _, _, rfl, rfl, atPart (by decide +kernel), by decide +kernel, by decide +kernel, rfl⟩,
    ⟨0, 0, 112, ten runK, _, _, rfl, rfl, atPart (by decide +kernel), by decide +kernel⟩,
    ⟨0, 0, 120, ten runK, _, _, rfl, rfl, atPart (by decide +kernel), by decide +kernel⟩,
    ⟨0, 0, 3, 255, ten runK, _, _, rfl, rfl, atPart (by decide +kernel)⟩,
    ⟨0, 0, 0, ten runK, _, rfl, atPart (by decide +kernel)⟩,
    ⟨0, 0, 7, 0, ten runK, _, rfl, atPart (by decide +kernel)⟩,
    ⟨0, 0, ten runK, _, rfl, atPart (by decide +kernel)⟩,
    ⟨0, 0, 0, ten runK, _, rfl, atPart (by decide +kernel)⟩,
    ⟨0, 0, 15, 15, true, 0, 0, ten runK, _, _, _, rfl, rfl, atPart (by decide +kernel), by decide +kernel, rfl⟩,
    ⟨0, 0, 0, ten runK, _, rfl, atPart (by decide +kernel)⟩⟩

theorem witness_DpsCommandsComplete :
    (∃ (h : Hdr) (n : Nat) (f : List Fld) (g : DpsCfg → DpsCfg) (s : State) (s0 : State) (d : Nat) (r : State) (t : Line), begun h s = s0 ∧ foldFields dpsField 3 id f = .ok g ∧ f.isEmpty = false ∧ ownUnit s0 h .dps n = .ok d ∧ edit s0 d none (putDps n g) = .ok (r, t) ∧ Accepts (tenantForm "DPS") h s) ∧
    (∃ (h : Hdr) (n : Nat) (m : String) (v : List Arg) (x : List Nat) (s : State) (s0 : State) (d : Nat) (r : State) (t : Line), begun h s = s0 ∧ ["A", "B", "C", "L", "K", "N"].contains m = true ∧ v.mapM (readEntry 5) = .ok x ∧ v ≠ [] ∧ v.length ≤ 36 ∧ ownUnit s0 h .dps n = .ok d ∧ edit s0 d none (putDps n (putMatrix m x)) = .ok (r, t) ∧ Accepts (tenantForm "DPS") h s) ∧
    (∃ (h : Hdr) (n : Nat) (i : Nat) (b : Blk) (p : List Nat) (s : State) (s0 : State) (d : Nat) (r : State) (t : Line), begunBlk h b s = s0 ∧ BlkIs h b s p ∧ readUnit 2 .dps n = .ok () ∧ i < 4096 ∧ p.length % 4 = 0 ∧ i + p.length / 4 ≤ 4096 ∧ ownUnit s0 h .dps n = .ok d ∧ edit s0 d none (putDps n (fun c => { c with fft := mput c.fft (4 * i) (toBytes p) })) = .ok (r, t) ∧ AcceptsBlk (tenantForm "DPS") h b s) ∧
    (∃ (h : Hdr) (n : Nat) (s : State) (s0 : State) (d : Nat), begun h s = s0 ∧ ownUnit s0 h .dps n = .ok d ∧ Accepts (readForm "DPS") h s) ∧
    (∃ (h : Hdr) (n : Nat) (v : Val) (q : Rat) (s : State) (s0 : State) (d : Nat), begun h s = s0 ∧ myDk s0 h = d ∧ readUnit 2 .dps n = .ok () ∧ readRange 3 .V 0 7 v = .ok q ∧ holds (getDk s0 d) .dps [n] = .ok () ∧ (getDk s0 d).st.live = true ∧ q ≤ (getDps s0 n).cfg.vmax - 1 / 10 ∧ Accepts (tenantForm "DPS") h s) ∧
    (∃ (h : Hdr) (n : Nat) (v : Val) (q : Nat) (s : State) (s0 : State) (d : Nat), begun h s = s0 ∧ myDk s0 h = d ∧ readUnit 2 .dps n = .ok () ∧ readNat 3 0 4095 v = .ok q ∧ holds (getDk s0 d) .dps [n] = .ok () ∧ (getDk s0 d).st.live = true ∧ Accepts (tenantForm "DPS") h s) ∧
    (∃ (h : Hdr) (n : Nat) (s : State) (s0 : State) (d : Nat) (x : Dps), begun h s = s0 ∧ ownUnit s0 h .dps n = .ok d ∧ getDps s0 n = x ∧ x.clamp = .none ∧ x.learning = false ∧ x.fb = false ∧ x.cfg.remote = true ∧ Accepts (readForm "DPS") h s) ∧
    (∃ (h : Hdr) (n : Nat) (f : List Fld) (g : DpsCfg → DpsCfg) (s : State) (s0 : State) (d : Nat) (r : State) (t : Line), begun h s = s0 ∧ (∀ x ∈ f, x.key = "GAIN" ∨ x.key = "QA" ∨ x.key = "QF") ∧ foldFields dpsField 3 id f = .ok g ∧ f.isEmpty = false ∧ ownUnit s0 h .dps n = .ok d ∧ edit s0 d none (putDps n g) = .ok (r, t) ∧ Accepts (tenantForm "LEARN") h s) ∧
    (∃ (h : Hdr) (n : Nat) (s : State) (s0 : State) (d : Nat), begun h s = s0 ∧ ownUnit s0 h .dps n = .ok d ∧ Accepts (readForm "LEARN") h s) ∧
    (∃ (h : Hdr) (n : Nat) (b : Blk) (p : List Nat) (s : State) (s0 : State) (d : Nat), begunBlk h b s = s0 ∧ BlkIs h b s p ∧ readUnit 2 .dps n = .ok () ∧ p.length = 16384 ∧ ownUnit s0 h .dps n = .ok d ∧ learnState (getDk s0 d) = .ok () ∧ AcceptsBlk (tenantForm "LEARN") h b s) ∧
    (∃ (h : Hdr) (n : Nat) (s : State) (s0 : State) (d : Nat), begun h s = s0 ∧ ownUnit s0 h .dps n = .ok d ∧ learnState (getDk s0 d) = .ok () ∧ Accepts (tenantForm "LEARN") h s) ∧
    (∃ (dt : Nat) (n : Fin 4) (m : DpsMeas) (s : State) (s0 : State) (s1 : State) (d : Nat) (t : Nat) (x : Dps) (c : DpsCfg) (vs : Nat) (io : Nat) (u0 : Nat) (u : Nat) (xn : List Nat), advance s dt = s0 ∧ (getDps s0 (n : Fin 4)).on = true ∧ s0.rf.run = true ∧ now s0 / 1250 * 1250 = t ∧ (t = 0 ∨ (getDps s0 n).tb ≠ t) ∧ holder s0 .dps n = some d ∧ cmdFfofs s0 d n = s1 ∧ (getDk s1 d).st ≠ .running ∧ periodStart t (getDps s1 n) = x ∧ x.cfg = c ∧ x.fb = false ∧ x.dwell = none ∧ f32In m.vs = vs ∧ f32In m.io = io ∧ clampOf c io = .none ∧ c.remote = false ∧ f32Add (f32Add (f32Minus (rowDot c.matK 0 c.nx x.xh)) (f32Mul (ent c.matN 0) (f32Of x.r))) 0 = u0 ∧ limitU c u0 = u ∧ (List.range c.nx).map (fun i => f32Add (f32Add (rowDot c.matA i c.nx x.xh) (f32Mul (ent c.matB i) u)) (f32Dot [(ent c.matL (2 * i), f32Sub vs (rowDot c.matC 0 c.nx x.xh)), (ent c.matL (2 * i + 1), f32Sub io (rowDot c.matC 1 c.nx x.xh))])) = xn ∧ allFinite (u :: xn) = true) ∧
    (∃ (dt : Nat) (n : Fin 4) (s : State) (s0 : State) (d : Nat), advance s dt = s0 ∧ (getDps s0 (n : Fin 4)).on = true ∧ holder s0 .dps n = some d) ∧
    (∃ (dt : Nat) (n : Fin 4) (s : State) (s0 : State) (d : Nat), advance s dt = s0 ∧ (getDps s0 (n : Fin 4)).on = true ∧ holder s0 .dps n = some d) ∧
    (∃ (dt : Nat) (n : Fin 4) (s : State) (s0 : State) (d : Nat), advance s dt = s0 ∧ (getDps s0 (n : Fin 4)).lim = false ∧ (getDps s0 n).on = true ∧ (getDps s0 n).clamp = .isrc ∧ holder s0 .dps n = some d) ∧
    (∃ (dt : Nat) (n : Fin 4) (s : State) (s0 : State) (t : Nat) (c : DpsCfg), advance s dt = s0 ∧ (getDps s0 (n : Fin 4)).dwell = some (t, c) ∧ t ≤ now s0) :=
  ⟨⟨hT, 0, [{ key := "ENABLE", val := .word "ON" }], _, ten (dkS .opened), _, _, _, _, rfl, okGet (by decide +kernel), by decide +kernel, okGet (by decide +kernel), rfl, acc (by decide +kernel)⟩,
    ⟨hT, 0, "A", [.num { digits := 1 }], _, ten (dkS .opened), _, _, _, _, rfl, by decide +kernel, okGet (by decide +kernel), by decide +kernel, by decide +kernel, okGet (by decide +kernel), rfl, acc (by decide +kernel)⟩,
    ⟨hT, 0, 4095, blkOf [0, 0, 0, 0], [0, 0, 0, 0], ten (dkS .opened), _, _, _, _, rfl, blkIs (by decide +kernel), by decide +kernel, by decide +kernel, by decide +kernel, by decide +kernel, okGet (by decide +kernel), rfl, accBlk (by decide +kernel)⟩,
    ⟨hT, 0, ten (dkS .opened), _, _, rfl, okGet (by decide +kernel), acc (by decide +kernel)⟩,
    ⟨hT, 0, { digits := 7, unit := .V }, 7, ten (dkS .armed), _, _, rfl, rfl, by decide +kernel, by decide +kernel, by decide +kernel, by decide +kernel, by decide +kernel, acc (by decide +kernel)⟩,
    ⟨hT, 0, { digits := 4095 }, 4095, ten (dkS .armed), _, _, rfl, rfl, by decide +kernel, by decide +kernel, by decide +kernel, by decide +kernel, acc (by decide +kernel)⟩,
    ⟨hT, 0, ten (dkS .opened), _, _, _, rfl, okGet (by decide +kernel), rfl, by decide +kernel, by decide +kernel, by decide +kernel, by decide +kernel, acc (by decide +kernel)⟩,
    ⟨hT, 0, [{ key := "GAIN", val := .num { digits := 0, unit := .none } }], _, ten (dkS .opened), _, _, _, _, rfl, by decide +kernel, okGet (by decide +kernel), by decide +kernel, okGet (by decide +kernel), rfl, acc (by decide +kernel)⟩,
    ⟨hT, 0, ten (dkS .opened), _, _, rfl, okGet (by decide +kernel), acc (by decide +kernel)⟩,
    ⟨hT, 0, blkOf (List.replicate 16384 0), List.replicate 16384 0, ten (dkS .opened), _, _, rfl, blkIs (by decide +kernel), by decide +kernel, by decide +kernel, okGet (by decide +kernel), by decide +kernel, accBlk (by decide +kernel)⟩,
    ⟨hT, 0, ten (dkS .opened), _, _, rfl, okGet (by decide +kernel), by decide +kernel, acc (by decide +kernel)⟩,
    ⟨0, 0, {}, { ten (dkS .armed) with dps := [(0, { on := true, cfg := { remote := false } })] }, _, _, 0, _, _, _, _, _, _, _, _, rfl, by decide +kernel, by decide +kernel, rfl, by decide +kernel, by decide +kernel, rfl, by decide +kernel, rfl, rfl, by decide +kernel, by decide +kernel, rfl, rfl, by decide +kernel, by decide +kernel, rfl, rfl, rfl, by decide +kernel⟩,
    ⟨0, 0, { ten (dkS .armed) with dps := [(0, { on := true })] }, _, 0, rfl, by decide +kernel, by decide +kernel⟩,
    ⟨0, 0, { ten (dkS .armed) with dps := [(0, { on := true })] }, _, 0, rfl, by decide +kernel, by decide +kernel⟩,
    ⟨0, 0, { ten (dkS .armed) with dps := [(0, { on := true, clamp := .isrc })] }, _, 0, rfl, by decide +kernel, by decide +kernel, by decide +kernel, by decide +kernel⟩,
    ⟨0, 0, { ten (dkS .armed) with dps := [(0, { dwell := some (0, {}) })] }, _, _, _, rfl, rfl, by decide +kernel⟩⟩

theorem witness_AuxCommandsComplete :
    (∃ (h : Hdr) (n : Nat) (f : List Fld) (g : AuxCfg → AuxCfg) (s : State) (s0 : State) (d : Nat) (r : State) (t : Line), begun h s = s0 ∧ foldFields auxField 3 id f = .ok g ∧ f.isEmpty = false ∧ ownUnit s0 h .aux n = .ok d ∧ (if f.any (fun x => x.key = "COUNT") then editList s0 d (putAux n g) else edit s0 d none (putAux n g)) = .ok (r, t) ∧ Accepts (tenantForm "AUX") h s) ∧
    (∃ (h : Hdr) (n : Nat) (i : Nat) (f : List Fld) (s : State) (s0 : State) (d : Nat) (c : AuxCfg) (x : AuxEntry) (r : State) (t : Line), begun h s = s0 ∧ i < 8192 ∧ readUnit 2 .aux n = .ok () ∧ tget (getDk s0 (myDk s0 h)).editing.aux n {} = c ∧ foldFields (auxEntryField c.span) 5 (auxEntry c.list i) f = .ok x ∧ ownUnit s0 h .aux n = .ok d ∧ editList s0 d (putAux n (fun c => { c with list := mput c.list (16 * i) (auxBytes x) })) = .ok (r, t) ∧ Accepts (tenantForm "AUX") h s) ∧
    (∃ (h : Hdr) (n : Nat) (i : Nat) (b : Blk) (p : List Nat) (s : State) (s0 : State) (d : Nat) (r : State) (t : Line), begunBlk h b s = s0 ∧ BlkIs h b s p ∧ readUnit 2 .aux n = .ok () ∧ i < 8192 ∧ p.length % 16 = 0 ∧ i + p.length / 16 ≤ 8192 ∧ ownUnit s0 h .aux n = .ok d ∧ editList s0 d (putAux n (fun c => { c with list := mput c.list (16 * i) (toBytes p) })) = .ok (r, t) ∧ AcceptsBlk (tenantForm "AUX") h b s) ∧
    (∃ (h : Hdr) (n : Nat) (a : Nat) (m : Nat) (s : State) (s0 : State) (d : Nat) (c : AuxCfg), begun h s = s0 ∧ readUnit 2 .aux n = .ok () ∧ tget (getDk s0 (myDk s0 h)).inForce.aux n {} = c ∧ a < 8192 ∧ 1 ≤ m ∧ a + m ≤ 8192 ∧ ownUnit s0 h .aux n = .ok d ∧ Accepts (readForm "AUX") h s) ∧
    (∃ (h : Hdr) (n : Nat) (s : State) (s0 : State) (d : Nat), begun h s = s0 ∧ ownUnit s0 h .aux n = .ok d ∧ Accepts (readForm "AUX") h s) ∧
    (∃ (h : Hdr) (n : Nat) (s : State) (s0 : State) (d : Nat) (k : Deckle), begun h s = s0 ∧ myDk s0 h = d ∧ getDk s0 d = k ∧ readUnit 2 .aux n = .ok () ∧ holds k .aux [n] = .ok () ∧ inSt k [.armed, .running, .stopped] = .ok () ∧ (getAux s0 n).st ≠ .off ∧ (tget k.act.aux n {}).start = .cmd ∧ pressList s0 d n = false ∧ Accepts (tenantForm "AUX") h s) ∧
    (∃ (h : Hdr) (n : Nat) (s : State) (s0 : State) (d : Nat) (k : Deckle), begun h s = s0 ∧ myDk s0 h = d ∧ getDk s0 d = k ∧ readUnit 2 .aux n = .ok () ∧ holds k .aux [n] = .ok () ∧ inSt k [.armed, .running, .stopped] = .ok () ∧ (getAux s0 n).st ≠ .off ∧ Accepts (tenantForm "AUX") h s) ∧
    (∃ (h : Hdr) (n : Nat) (s : State) (s0 : State) (r : State) (d : Nat) (a : Aux), begun h s = s0 ∧ modAux s0 n (auxSync (now s0)) = r ∧ ownUnit s0 h .aux n = .ok d ∧ getAux r n = a ∧ Accepts (readForm "AUX") h s) ∧
    (∃ (dt : Nat) (n : Fin 2) (s : State) (s0 : State) (t : Nat) (a : Aux), advance s dt = s0 ∧ getAux s0 (n : Fin 2) = a ∧ a.st = .idle ∧ a.halt = none ∧ a.starts = [t] ∧ t ≤ now s0) ∧
    (∃ (dt : Nat) (n : Fin 2) (s : State) (s0 : State) (a : Aux), modAux (advance s dt) (n : Fin 2) (auxSync (now (advance s dt))) = s0 ∧ getAux s0 n = a ∧ a.st = .playing ∧ s0.rf.run = true ∧ auxEndTick a ≤ now s0 ∧ a.ent + 1 < a.cfg.count) ∧
    (∃ (dt : Nat) (n : Fin 2) (s : State) (s0 : State) (a : Aux), modAux (advance s dt) (n : Fin 2) (auxSync (now (advance s dt))) = s0 ∧ getAux s0 n = a ∧ a.st = .playing ∧ s0.rf.run = true ∧ auxEndTick a ≤ now s0 ∧ a.cfg.count ≤ a.ent + 1 ∧ a.cfg.fin = .rpt) ∧
    (∃ (dt : Nat) (n : Fin 2) (s : State) (s0 : State) (a : Aux) (d : Nat), modAux (advance s dt) (n : Fin 2) (auxSync (now (advance s dt))) = s0 ∧ getAux s0 n = a ∧ a.st = .playing ∧ s0.rf.run = true ∧ auxEndTick a ≤ now s0 ∧ a.cfg.count ≤ a.ent + 1 ∧ a.cfg.fin ≠ .rpt ∧ holder s0 .aux n = some d) ∧
    (∃ (dt : Nat) (n : Fin 2) (s : State) (s0 : State) (l : List Nat), advance s dt = s0 ∧ tget? s0.ph.mkUp (n : Fin 2) = some l) ∧
    (∃ (dt : Nat) (n : Fin 2) (s : State) (s0 : State) (t : Nat) (c : AuxCfg) (a : Aux), advance s dt = s0 ∧ getAux s0 (n : Fin 2) = a ∧ a.dwell = some (t, c) ∧ t ≤ now s0) :=
  ⟨⟨hT, 0, [{ key := "RELAY", val := .word "OPEN" }], _, ten (dkS .opened), _, _, _, _, rfl, okGet (by decide +kernel), by decide +kernel, okGet (by decide +kernel), rfl, acc (by decide +kernel)⟩,
    ⟨hT, 0, 8191, [{ key := "FREQ", val := .num { digits := 1, unit := .Hz } }], ten (dkS .opened), _, _, _, _, _, _, rfl, by decide +kernel, by decide +kernel, rfl, okGet (by decide +kernel), okGet (by decide +kernel), rfl, acc (by decide +kernel)⟩,
    ⟨hT, 0, 8191, blkOf (List.replicate 16 0), List.replicate 16 0, ten (dkS .opened), _, _, _, _, rfl, blkIs (by decide +kernel), by decide +kernel, by decide +kernel, by decide +kernel, by decide +kernel, okGet (by decide +kernel), rfl, accBlk (by decide +kernel)⟩,
    ⟨hT, 0, 8191, 1, ten (dkS .opened), _, _, _, rfl, by decide +kernel, rfl, by decide +kernel, by decide +kernel, by decide +kernel, okGet (by decide +kernel), acc (by decide +kernel)⟩,
    ⟨hT, 0, ten (dkS .opened), _, _, rfl, okGet (by decide +kernel), acc (by decide +kernel)⟩,
    ⟨hT, 0, { ten (dkS .armed) with aux := [(0, { st := .idle })] }, _, _, _, rfl, rfl, rfl, by decide +kernel, by decide +kernel, by decide +kernel, by decide +kernel, by decide +kernel, by decide +kernel, acc (by decide +kernel)⟩,
    ⟨hT, 0, { ten (dkS .armed) with aux := [(0, { st := .playing })] }, _, _, _, rfl, rfl, rfl, by decide +kernel, by decide +kernel, by decide +kernel, by decide +kernel, acc (by decide +kernel)⟩,
    ⟨hT, 0, ten (dkS .opened), _, _, _, _, rfl, rfl, okGet (by decide +kernel), rfl, acc (by decide +kernel)⟩,
    ⟨0, 0, { ten (dkS .armed) with aux := [(0, { st := .idle, starts := [0] })] }, _, 0, _, rfl, rfl, by decide +kernel, by decide +kernel, by decide +kernel, by decide +kernel⟩,
    ⟨0, 0, { ten (dkS .armed) with aux := [(0, { st := .playing, cfg := { count := 2 } })] }, _, _, rfl, rfl, by decide +kernel, by decide +kernel, by decide +kernel, by decide +kernel⟩,
    ⟨0, 0, { ten (dkS .armed) with aux := [(0, { st := .playing, cfg := { fin := .rpt } })] }, _, _, rfl, rfl, by decide +kernel, by decide +kernel, by decide +kernel, by decide +kernel, by decide +kernel⟩,
    ⟨0, 0, { ten (dkS .armed) with aux := [(0, { st := .playing })] }, _, _, 0, rfl, rfl, by decide +kernel, by decide +kernel, by decide +kernel, by decide +kernel, by decide +kernel, by decide +kernel⟩,
    ⟨0, 0, { rdy with ph := { mkUp := [(0, [0])] } }, _, _, rfl, rfl⟩,
    ⟨0, 0, { ten (dkS .armed) with aux := [(0, { dwell := some (0, {}) })] }, _, _, _, _, rfl, rfl, rfl, by decide +kernel⟩⟩

theorem witness_AdcCommandsComplete :
    (∃ (h : Hdr) (n : Nat) (f : List Fld) (g : AdcCfg → AdcCfg) (s : State) (s0 : State) (d : Nat) (r : State) (t : Line), begun h s = s0 ∧ foldFields adcField 3 id f = .ok g ∧ f.isEmpty = false ∧ ownUnit s0 h .adc n = .ok d ∧ edit s0 d none (putAdc n g) = .ok (r, t) ∧ Accepts (tenantForm "ADC") h s) ∧
    (∃ (h : Hdr) (n : Nat) (i : Nat) (f : List Fld) (s : State) (s0 : State) (d : Nat) (x : AdcEntry) (r : State) (t : Line), begun h s = s0 ∧ i < 16 ∧ readUnit 2 .adc n = .ok () ∧ f.any (fun x => x.key == "SRC") = true ∧ foldFields adcEntryField 5 ((tget (getDk s0 (myDk s0 h)).editing.adc n {}).entry i) f = .ok x ∧ ownUnit s0 h .adc n = .ok d ∧ edit s0 d none (putAdc n (fun c => { c with ent := tset c.ent i x })) = .ok (r, t) ∧ Accepts (tenantForm "ADC") h s) ∧
    (∃ (h : Hdr) (s : State) (s0 : State) (d : Nat) (l : List Nat), begun h s = s0 ∧ myDk s0 h = d ∧ (List.range 256).filter (adcSelectable (getDk s0 d).grant) = l ∧ Accepts (readForm "ADC") h s) ∧
    (∃ (h : Hdr) (n : Nat) (s : State) (s0 : State) (d : Nat), begun h s = s0 ∧ ownUnit s0 h .adc n = .ok d ∧ Accepts (readForm "ADC") h s) ∧
    (∃ (h : Hdr) (n : Nat) (s : State) (s0 : State) (d : Nat) (k : Deckle), begun h s = s0 ∧ myDk s0 h = d ∧ getDk s0 d = k ∧ readUnit 2 .adc n = .ok () ∧ holds k .adc [n] = .ok () ∧ inSt k [.armed, .running, .stopped] = .ok () ∧ (tget k.act.adc n {}).trig = .cmd ∧ Accepts (tenantForm "ADC") h s) ∧
    (∃ (h : Hdr) (n : Nat) (k : Option Nat) (m : Nat) (s : State) (s0 : State) (d : Nat) (l : List AdcRec), begun h s = s0 ∧ readUnit 2 .adc n = .ok () ∧ (getAdc s0 n).store = l ∧ takeCount 4 256 k l.length = .ok m ∧ ownUnit s0 h .adc n = .ok d ∧ inSt (getDk s0 d) anySt = .ok () ∧ Accepts (tenantForm "ADC") h s) ∧
    (∃ (h : Hdr) (n : Nat) (k : Option Nat) (m : Nat) (s : State) (s0 : State) (d : Nat) (l : List AdcRec), begun h s = s0 ∧ readUnit 2 .adc n = .ok () ∧ (getAdc s0 n).store = l ∧ takeCount 4 8192 k l.length = .ok m ∧ ownUnit s0 h .adc n = .ok d ∧ inSt (getDk s0 d) anySt = .ok () ∧ Accepts (tenantForm "ADC") h s) ∧
    (∃ (h : Hdr) (n : Nat) (s : State) (s0 : State) (d : Nat) (a : Adc), begun h s = s0 ∧ ownUnit s0 h .adc n = .ok d ∧ getAdc s0 n = a ∧ Accepts (readForm "ADC") h s) ∧
    (∃ (dt : Nat) (n : Fin 8) (s : State) (s0 : State) (t : Nat) (d : Nat) (k : Deckle) (c : AdcCfg), advance s dt = s0 ∧ (getAdc s0 (n : Fin 8)).timer = some t ∧ holder s0 .adc n = some d ∧ getDk s0 d = k ∧ tget k.act.adc n {} = c ∧ k.st = .running ∧ c.trig = .timer ∧ t ≤ now s0) ∧
    (∃ (dt : Nat) (n : Fin 8) (s : State) (s0 : State) (t : Nat) (d : Nat) (a : Adc), advance s dt = s0 ∧ getAdc s0 (n : Fin 8) = a ∧ a.starts = [t] ∧ t ≤ now s0 ∧ a.busy = false ∧ holder s0 .adc n = some d) ∧
    (∃ (dt : Nat) (n : Fin 8) (m : AdcMeas) (s : State) (s0 : State) (d : Nat) (a : Adc) (e : AdcEntry) (fs : Rat) (c : Int × Bool), advance s dt = s0 ∧ getAdc s0 (n : Fin 8) = a ∧ holder s0 .adc n = some d ∧ a.busy = true ∧ s0.rf.run = true ∧ a.fin ≤ now s0 * 1024 ∧ a.cfg.entry a.ent = e ∧ entryScale s0 e = fs ∧ adcCode fs (adcInput s0 e.src m.v) = c ∧ e.bo = false ∧ adcSharers s0 (getDk s0 d).grant n e.src a.fin = [] ∧ a.store.length < 8192 ∧ a.lostF = false) :=
  ⟨⟨hT, 0, [{ key := "COUNT", val := .num { digits := 16, unit := .none } }], _, ten (dkS .opened), _, _, _, _, rfl, okGet (by decide +kernel), by decide +kernel, okGet (by decide +kernel), rfl, acc (by decide +kernel)⟩,
    ⟨hT, 0, 15, [{ key := "SRC", val := .num { digits := 128, unit := .none } }], ten (dkS .opened), _, _, _, _, _, rfl, by decide +kernel, by decide +kernel, by decide +kernel, okGet (by decide +kernel), okGet (by decide +kernel), rfl, acc (by decide +kernel)⟩,
    ⟨hT, ten (dkS .opened), _, _, _, rfl, rfl, rfl, acc (by decide +kernel)⟩,
    ⟨hT, 0, ten (dkS .opened), _, _, rfl, okGet (by decide +kernel), acc (by decide +kernel)⟩,
    ⟨hT, 0, ten (dkS .armed), _, _, _, rfl, rfl, rfl, by decide +kernel, by decide +kernel, by decide +kernel, by decide +kernel, acc (by decide +kernel)⟩,
    ⟨hT, 0, some 256, _, ten (dkS .opened), _, _, _, rfl, by decide +kernel, rfl, okGet (by decide +kernel), okGet (by decide +kernel), by decide +kernel, acc (by decide +kernel)⟩,
    ⟨hT, 0, some 8192, _, ten (dkS .opened), _, _, _, rfl, by decide +kernel, rfl, okGet (by decide +kernel), okGet (by decide +kernel), by decide +kernel, acc (by decide +kernel)⟩,
    ⟨hT, 0, ten (dkS .opened), _, _, _, rfl, okGet (by decide +kernel), rfl, acc (by decide +kernel)⟩,
    ⟨0, 0, { ten { dkS .running with rearm := false, act := { furn0 with adc := [(0, { trig := .timer })] } } with adc := [(0, { timer := some 0 })] }, _, _, 0, _, _, rfl, rfl, by decide +kernel, rfl, rfl, by decide +kernel, by decide +kernel, by decide +kernel⟩,
    ⟨0, 0, { ten { dkS .armed with rearm := false } with adc := [(0, { starts := [0] })] }, _, 0, 0, _, rfl, rfl, by decide +kernel, by decide +kernel, by decide +kernel, by decide +kernel⟩,
    ⟨0, 0, {}, { ten { dkS .armed with rearm := false } with adc := [(0, { busy := true })] }, _, 0, _, _, _, _, rfl, rfl, by decide +kernel, by decide +kernel, by decide +kernel, by decide +kernel, rfl, rfl, rfl, by decide +kernel, by decide +kernel, by decide +kernel, by decide +kernel⟩⟩

theorem witness_TmuCommandsComplete :
    (∃ (h : Hdr) (n : Nat) (f : List Fld) (g : TmuCfg → TmuCfg) (s : State) (s0 : State) (d : Nat) (r : State) (t : Line), begun h s = s0 ∧ foldFields tmuField 3 id f = .ok g ∧ f.isEmpty = false ∧ ownUnit s0 h .tmu n = .ok d ∧ edit s0 d none (putTmu n g) = .ok (r, t) ∧ Accepts (tenantForm "TMU") h s) ∧
    (∃ (h : Hdr) (n : Nat) (s : State) (s0 : State) (d : Nat), begun h s = s0 ∧ ownUnit s0 h .tmu n = .ok d ∧ Accepts (readForm "TMU") h s) ∧
    (∃ (h : Hdr) (n : Nat) (s : State) (s0 : State) (d : Nat) (k : Deckle), begun h s = s0 ∧ myDk s0 h = d ∧ getDk s0 d = k ∧ readUnit 2 .tmu n = .ok () ∧ holds k .tmu [n] = .ok () ∧ inSt k [.armed, .running, .stopped] = .ok () ∧ (tget k.act.tmu n {}).trig = .cmd ∧ Accepts (tenantForm "TMU") h s) ∧
    (∃ (h : Hdr) (n : Nat) (s : State) (s0 : State) (d : Nat) (k : Deckle), begun h s = s0 ∧ myDk s0 h = d ∧ getDk s0 d = k ∧ readUnit 2 .tmu n = .ok () ∧ holds k .tmu [n] = .ok () ∧ inSt k [.armed, .running, .stopped] = .ok () ∧ Accepts (tenantForm "TMU") h s) ∧
    (∃ (h : Hdr) (n : Nat) (s : State) (s0 : State) (d : Nat), begun h s = s0 ∧ ownUnit s0 h .tmu n = .ok d ∧ inSt (getDk s0 d) anySt = .ok () ∧ (getTmu s0 n).busy = false ∧ Accepts (tenantForm "TMU") h s) ∧
    (∃ (h : Hdr) (n : Nat) (s : State) (s0 : State) (d : Nat) (x : Tmu), begun h s = s0 ∧ ownUnit s0 h .tmu n = .ok d ∧ getTmu s0 n = x ∧ Accepts (readForm "TMU") h s) ∧
    (∃ (h : Hdr) (n : Nat) (k : Option Nat) (m : Nat) (s : State) (s0 : State) (d : Nat) (l : List TmuRec), begun h s = s0 ∧ readUnit 2 .tmu n = .ok () ∧ (getTmu s0 n).recs = l ∧ takeCount 4 256 k l.length = .ok m ∧ ownUnit s0 h .tmu n = .ok d ∧ inSt (getDk s0 d) anySt = .ok () ∧ Accepts (tenantForm "TMU") h s) ∧
    (∃ (h : Hdr) (n : Nat) (k : Option Nat) (m : Nat) (s : State) (s0 : State) (d : Nat) (l : List TmuRec), begun h s = s0 ∧ readUnit 2 .tmu n = .ok () ∧ (getTmu s0 n).recs = l ∧ takeCount 4 504 k l.length = .ok m ∧ ownUnit s0 h .tmu n = .ok d ∧ inSt (getDk s0 d) anySt = .ok () ∧ Accepts (tenantForm "TMU") h s) ∧
    (∃ (h : Hdr) (n : Nat) (s : State) (s0 : State) (d : Nat) (x : Tmu), begun h s = s0 ∧ ownUnit s0 h .tmu n = .ok d ∧ getTmu s0 n = x ∧ Accepts (readForm "TMU") h s) ∧
    (∃ (dt : Nat) (n : Fin 4) (t : Nat) (_di : Option Int) (s : State) (s0 : State) (d : Nat) (x : Tmu), advance s dt = s0 ∧ measuring s0 (n : Fin 4) false = some d ∧ getTmu s0 n = x ∧ x.startS = none ∧ x.ready ≤ t ∧ t ≤ x.ready + x.cfg.timeout) ∧
    (∃ (dt : Nat) (n : Fin 4) (t : Nat) (_di : Option Int) (s : State) (s0 : State) (d : Nat) (x : Tmu) (a : Nat), advance s dt = s0 ∧ measuring s0 (n : Fin 4) false = some d ∧ getTmu s0 n = x ∧ x.startS = some a ∧ a + x.cfg.holdoff < t ∧ t ≤ a + x.cfg.timeout) ∧
    (∃ (dt : Nat) (n : Fin 4) (s : State) (s0 : State) (d : Nat) (x : Tmu) (l : Nat), advance s dt = s0 ∧ measuring s0 (n : Fin 4) false = some d ∧ getTmu s0 n = x ∧ x.startS = none ∧ l = x.ready + x.cfg.timeout ∧ l ≤ now s0 * 800000 ∧ x.toSent = true) ∧
    (∃ (dt : Nat) (n : Fin 4) (k : Nat) (t : Nat) (_di : Option Int) (s : State) (s0 : State) (d : Nat) (x : Tmu), advance s dt = s0 ∧ measuring s0 (n : Fin 4) true = some d ∧ getTmu s0 n = x ∧ (gateSpan x).1 ≤ t ∧ t < (gateSpan x).2 ∧ k % x.cfg.prescale = 0 ∧ x.stamps = [] ∧ x.stampT = none) ∧
    (∃ (dt : Nat) (n : Fin 4) (s : State) (s0 : State) (d : Nat) (x : Tmu) (p : Bool), advance s dt = s0 ∧ measuring s0 (n : Fin 4) true = some d ∧ getTmu s0 n = x ∧ (gateSpan x).2 ≤ now s0 * 800000 ∧ 3 ≤ x.stamps.length ∧ x.halting = false ∧ x.cfg.gates = 0 ∧ p = gatePartial x ((x.stamps.map (fun p => p.2)).headD 0) ((x.stamps.map (fun p => p.2)).getLastD 0) x.stamps.length) ∧
    (∃ (dt : Nat) (n : Fin 4) (s : State) (s0 : State), advance s dt = s0 ∧ (getTmu s (n : Fin 4)).lock = true) ∧
    (∃ (dt : Nat) (n : Fin 4) (s : State) (s0 : State) (r : State) (d : Nat), modTmu (advance s dt) (n : Fin 4) (fun x => { x with lock := true }) = s0 ∧ (getTmu s n).lock = false ∧ linesOpen s0 = true ∧ ownerEvent s0 .note [w "DLL-LOCKED", kv "TMU" (unitName .tmu n)] = r ∧ holder r .tmu n = some d) :=
  ⟨⟨hT, 0, [{ key := "MODE", val := .word "FREQ" }], _, ten (dkS .opened), _, _, _, _, rfl, okGet (by decide +kernel), by decide +kernel, okGet (by decide +kernel), rfl, acc (by decide +kernel)⟩,
    ⟨hT, 0, ten (dkS .opened), _, _, rfl, okGet (by decide +kernel), acc (by decide +kernel)⟩,
    ⟨hT, 0, ten (dkS .armed), _, _, _, rfl, rfl, rfl, by decide +kernel, by decide +kernel, by decide +kernel, by decide +kernel, acc (by decide +kernel)⟩,
    ⟨hT, 0, ten (dkS .armed), _, _, _, rfl, rfl, rfl, by decide +kernel, by decide +kernel, by decide +kernel, acc (by decide +kernel)⟩,
    ⟨hT, 0, ten (dkS .opened), _, _, rfl, okGet (by decide +kernel), by decide +kernel, by decide +kernel, acc (by decide +kernel)⟩,
    ⟨hT, 0, ten (dkS .opened), _, _, _, rfl, okGet (by decide +kernel), rfl, acc (by decide +kernel)⟩,
    ⟨hT, 0, some 256, _, ten (dkS .opened), _, _, _, rfl, by decide +kernel, rfl, okGet (by decide +kernel), okGet (by decide +kernel), by decide +kernel, acc (by decide +kernel)⟩,
    ⟨hT, 0, some 504, _, ten (dkS .opened), _, _, _, rfl, by decide +kernel, rfl, okGet (by decide +kernel), okGet (by decide +kernel), by decide +kernel, acc (by decide +kernel)⟩,
    ⟨hT, 0, ten (dkS .opened), _, _, _, rfl, okGet (by decide +kernel), rfl, acc (by decide +kernel)⟩,
    ⟨0, 0, 0, some 0, { ten (dkS .armed) with tmu := [(0, { busy := true })] }, _, 0, _, rfl, by decide +kernel, rfl, by decide +kernel, by decide +kernel, by decide +kernel⟩,
    ⟨0, 0, 1, some 0, { ten (dkS .armed) with tmu := [(0, { busy := true, startS := some 0 })] }, _, 0, _, _, rfl, by decide +kernel, rfl, rfl, by decide +kernel, by decide +kernel⟩,
    ⟨0, 0, { ten (dkS .armed) with tmu := [(0, { busy := true, toSent := true, cfg := { timeout := 1 } })] }, _, 0, _, _, rfl, by decide +kernel, rfl, by decide +kernel, rfl, by decide +kernel, by decide +kernel⟩,
    ⟨0, 0, 0, 0, some 0, { ten (dkS .armed) with tmu := [(0, { busy := true, cfg := { freq := true } })] }, _, 0, _, rfl, by decide +kernel, rfl, by decide +kernel, by decide +kernel, by decide +kernel, by decide +kernel, by decide +kernel⟩,
    ⟨0, 0, { ten (dkS .armed) with tmu := [(0, { busy := true, cfg := { freq := true, gate := 1, gates := 0 }, stamps := [(0, 0), (1, 1), (2, 2)] })] }, _, 0, _, _, rfl, by decide +kernel, rfl, by decide +kernel, by decide +kernel, by decide +kernel, by decide +kernel, rfl⟩,
    ⟨0, 0, rdy, _, rfl, by decide +kernel⟩,
    ⟨0, 0, { ten (dkS .armed) with tmu := [(0, { lock := false })] }, _, _, 0, rfl, by decide +kernel, by decide +kernel, rfl, by decide +kernel⟩⟩

theorem witness_EventCommandsComplete :
    (∃ (h : Hdr) (n : Nat) (d : Nat) (cls : List EvClass) (_hold : Bool) (s : State) (s0 : State), begun h s = s0 ∧ cls ≠ [] ∧ mapArgs s0 (.evt n) d = .ok () ∧ Accepts (ownerForm "EVENT") h s) ∧
    (∃ (h : Hdr) (n : Nat) (cls : List EvClass) (_hold : Bool) (s : State) (s0 : State), begun h s = s0 ∧ cls ≠ [] ∧ n < 4 ∧ cls.contains .done = false ∧ cls.contains .limit = false ∧ Accepts (ownerForm "EVENT") h s) ∧
    (∃ (h : Hdr) (n : Nat) (d : Nat) (m : Nat) (s : State) (s0 : State), begun h s = s0 ∧ m < 8 ∧ mapArgs s0 (.trigOut n) d = .ok () ∧ Accepts (ownerForm "EVENT") h s) ∧
    (∃ (h : Hdr) (d : Nat) (s : State) (s0 : State), begun h s = s0 ∧ mapArgs s0 .failOut d = .ok () ∧ Accepts (ownerForm "EVENT") h s) ∧
    (∃ (h : Hdr) (n : Nat) (d : Nat) (s : State) (s0 : State), begun h s = s0 ∧ n < 2 ∧ d < 8 ∧ (getDk s0 d).grant.aux.contains n = true ∧ mapArgs s0 (.mk n) d = .ok () ∧ Accepts (ownerForm "EVENT") h s) ∧
    (∃ (h : Hdr) (l : PhysLine) (s : State) (s0 : State), begun h s = s0 ∧ l.known = true ∧ Accepts (ownerForm "EVENT") h s) ∧
    (∃ (h : Hdr) (n : Nat) (s : State) (s0 : State) (e : EvtSt), begun h s = s0 ∧ n < 4 ∧ getEvt s0 n = e ∧ ((getLn s0 h.line).role = .owner ∨ (∃ d, (getLn s0 h.line).role = .tenant d ∧ e.src = some (.deckle d))) ∧ Accepts { word := "EVENT", roles := [.o, .t] } h s) ∧
    (∃ (h : Hdr) (s : State) (s0 : State), begun h s = s0 ∧ (getLn s0 h.line).role = .owner ∧ Accepts { word := "EVENT", roles := [.o, .t], ro := true } h s) ∧
    (∃ (h : Hdr) (s : State) (s0 : State) (d : Nat), begun h s = s0 ∧ myDk s0 h = d ∧ Accepts (tenantForm "EVENT") h s) ∧
    (∃ (h : Hdr) (s : State) (s0 : State) (d : Nat), begun h s = s0 ∧ myDk s0 h = d ∧ Accepts (tenantForm "EVENT") h s) ∧
    (∃ (dt : Nat) (n : Fin 4) (s : State) (s0 : State) (e : EvtSt) (t : Nat), advance s dt = s0 ∧ getEvt s0 (n : Fin 4) = e ∧ e.relT = some t ∧ e.low = true ∧ e.pulse = true ∧ t ≤ s0.wall + 125) :=
  ⟨⟨hO, 3, 0, [.done], true, { ten { dkS .opened with evGrant := true, trGrant := true } with ln := [(0, { up := true, role := .owner }), (1, { up := true, role := .tenant 0 })] }, _, rfl, by decide +kernel, by decide +kernel, acc (by decide +kernel)⟩,
    ⟨hO, 3, [.fault], true, one 0 .owner, _, rfl, by decide +kernel, by decide +kernel, by decide +kernel, by decide +kernel, acc (by decide +kernel)⟩,
    ⟨hO, 3, 0, 7, { ten { dkS .opened with evGrant := true, trGrant := true } with ln := [(0, { up := true, role := .owner }), (1, { up := true, role := .tenant 0 })] }, _, rfl, by decide +kernel, by decide +kernel, acc (by decide +kernel)⟩,
    ⟨hO, 0, { ten { dkS .opened with evGrant := true, trGrant := true } with ln := [(0, { up := true, role := .owner }), (1, { up := true, role := .tenant 0 })] }, _, rfl, by decide +kernel, acc (by decide +kernel)⟩,
    ⟨hO, 0, 0, { ten { dkS .opened with evGrant := true, trGrant := true } with ln := [(0, { up := true, role := .owner }), (1, { up := true, role := .tenant 0 })] }, _, rfl, by decide +kernel, by decide +kernel, by decide +kernel, by decide +kernel, acc (by decide +kernel)⟩,
    ⟨hO, .evt 3, one 0 .owner, _, rfl, by decide +kernel, acc (by decide +kernel)⟩,
    ⟨hO, 3, one 0 .owner, _, _, rfl, by decide +kernel, rfl, .inl (by decide +kernel), acc (by decide +kernel)⟩,
    ⟨hO, one 0 .owner, _, rfl, by decide +kernel, acc (by decide +kernel)⟩,
    ⟨hT, ten { dkS .opened with evGrant := true, trGrant := true }, _, _, rfl, rfl, acc (by decide +kernel)⟩,
    ⟨hT, ten { dkS .opened with evGrant := true, trGrant := true }, _, _, rfl, rfl, acc (by decide +kernel)⟩,
    ⟨125, 3, { rdy with ph := { evt := [(3, { low := true, pulse := true, relT := some 250 })] } }, _, _, _, rfl, rfl, rfl, by decide +kernel, by decide +kernel, by decide +kernel⟩⟩

theorem witness_TraceAndCountCommandsComplete :
    (∃ (h : Hdr) (d : Option Nat) (s : State) (s0 : State) (e : Nat) (k : Deckle), begun h s = s0 ∧ viewed s0 h 2 d = .ok e ∧ getDk s0 e = k ∧ k.trace.ring = [] ∧ Accepts viewForm h s) ∧
    (∃ (h : Hdr) (d : Option Nat) (i : Option Nat) (n : Option Nat) (m : Nat) (s : State) (s0 : State) (e : Nat) (r : List (Nat × Packet) × Nat), begun h s = s0 ∧ ringArgs d i n 256 = .ok m ∧ viewed s0 h 3 d = .ok e ∧ readRing s0 h e i m = r ∧ Accepts viewForm h s) ∧
    (∃ (h : Hdr) (d : Option Nat) (i : Option Nat) (n : Option Nat) (m : Nat) (s : State) (s0 : State) (e : Nat) (r : List (Nat × Packet) × Nat), begun h s = s0 ∧ ringArgs d i n 1024 = .ok m ∧ viewed s0 h 3 d = .ok e ∧ readRing s0 h e i m = r ∧ Accepts viewForm h s) ∧
    (∃ (h : Hdr) (f : TraceSel) (s : State) (s0 : State) (d : Nat), begun h s = s0 ∧ myDk s0 h = d ∧ f.kinds ≠ [] ∧ f.kinds.all ["USTEP", "WAIT", "ROUTINE", "DISP", "STATE"].contains = true ∧ f.range = none ∧ Accepts (tenantForm "TRACE") h s) ∧
    (∃ (h : Hdr) (s : State) (s0 : State) (d : Nat), begun h s = s0 ∧ myDk s0 h = d ∧ Accepts (tenantForm "TRACE") h s) ∧
    (∃ (h : Hdr) (s : State) (s0 : State) (d : Nat), begun h s = s0 ∧ myDk s0 h = d ∧ Accepts (tenantForm "TRACE") h s) ∧
    (∃ (h : Hdr) (n : Nat) (s : State) (s0 : State) (d : Nat), begun h s = s0 ∧ myDk s0 h = d ∧ n < 8 ∧ Accepts (tenantForm "TRACE") h s) ∧
    (∃ (h : Hdr) (n : Nat) (s : State) (s0 : State) (d : Nat), begun h s = s0 ∧ myDk s0 h = d ∧ n < 8 ∧ Accepts (tenantForm "TRACE") h s) ∧
    (∃ (h : Hdr) (d : Nat) (n : Nat) (s : State) (s0 : State), begun h s = s0 ∧ d < 8 ∧ n < 8 ∧ Accepts (ownerForm "TRACE") h s) ∧
    (∃ (h : Hdr) (d : Nat) (n : Nat) (s : State) (s0 : State), begun h s = s0 ∧ d < 8 ∧ n < 8 ∧ Accepts (ownerForm "TRACE") h s) ∧
    (∃ (h : Hdr) (d : Nat) (_on : Bool) (s : State) (s0 : State), begun h s = s0 ∧ d < 8 ∧ (getDk s0 d).trGrant = true ∧ Accepts (ownerForm "TRACE") h s) ∧
    (∃ (dt : Nat) (s : State) (s0 : State) (d : Nat), advance s dt = s0 ∧ now s0 / 32 % 8 = d ∧ s0.rf.run = true ∧ now s0 % 32 = 0 ∧ timeDue (getDk s0 d) (now s0) = false) ∧
    (∃ (h : Hdr) (d : Option Nat) (l : Option (List (Nat × Nat))) (c : List Nat) (s : State) (s0 : State) (e : Nat), begun h s = s0 ∧ countList (if d.isSome = true then 3 else 2) 0 47 l = .ok c ∧ viewed s0 h 2 d = .ok e ∧ c.contains 8 = false ∧ Accepts { word := "COUNT", roles := [.t, .b], ro := true } h s) ∧
    (∃ (h : Hdr) (l : Option (List (Nat × Nat))) (c : List Nat) (s : State) (s0 : State) (d : Nat) (z : List Nat), begun h s = s0 ∧ countList 3 0 47 l = .ok c ∧ myDk s0 h = d ∧ inSt (getDk s0 d) anySt = .ok () ∧ c.filter (fun i => !(2 ≤ i && i ≤ 6)) = z ∧ z.contains 10 = false ∧ Accepts (tenantForm "COUNT") h s) ∧
    (∃ (h : Hdr) (l : Option (List (Nat × Nat))) (c : List Nat) (s : State) (s0 : State) (t : Nat), begun h s = s0 ∧ countList 3 48 63 l = .ok c ∧ s0.md.cntT = some t ∧ Accepts { word := "COUNT", roles := allRoles, ro := true } h s) ∧
    (∃ (dt : Nat) (m : Temps) (s : State) (s0 : State) (t : Nat), cooled (advance s dt) m = s0 ∧ s.md.cntT = some t ∧ t + Config.sec ≤ (advance s dt).wall) ∧
    (∃ (dt : Nat) (l : Fin 10) (s : State) (s0 : State) (d : Nat) (e : EvClass × Line) (r : List (EvClass × Line)), advance s dt = s0 ∧ (getLn s0 (l : Fin 10)).up = true ∧ (getLn s0 l).paused = false ∧ (getLn s0 l).role = .tenant d ∧ (getDk s0 d).evq = e :: r ∧ (getDk s0 d).evlost = 0) ∧
    (∃ (dt : Nat) (l : Fin 10) (s : State) (s0 : State) (e : EvClass × Line) (r : List (EvClass × Line)), advance s dt = s0 ∧ (getLn s0 (l : Fin 10)).up = true ∧ (getLn s0 l).paused = false ∧ (getLn s0 l).role = .owner ∧ s0.ow.q = e :: r ∧ s0.ow.lost = 0) :=
  ⟨⟨hT, none, ten (dkS .opened), _, _, _, rfl, okGet (by decide +kernel), rfl, by decide +kernel, acc (by decide +kernel)⟩,
    ⟨hT, none, some 0, some 256, _, ten (dkS .opened), _, _, _, rfl, okGet (by decide +kernel), okGet (by decide +kernel), rfl, acc (by decide +kernel)⟩,
    ⟨hT, none, some 0, some 1024, _, ten (dkS .opened), _, _, _, rfl, okGet (by decide +kernel), okGet (by decide +kernel), rfl, acc (by decide +kernel)⟩,
    ⟨hT, { kinds := ["DISP"] }, ten (dkS .opened), _, _, rfl, rfl, by decide +kernel, by decide +kernel, by decide +kernel, acc (by decide +kernel)⟩,
    ⟨hT, ten (dkS .opened), _, _, rfl, rfl, acc (by decide +kernel)⟩,
    ⟨hT, ten (dkS .opened), _, _, rfl, rfl, acc (by decide +kernel)⟩,
    ⟨hT, 7, ten (dkS .opened), _, _, rfl, rfl, by decide +kernel, acc (by decide +kernel)⟩,
    ⟨hT, 7, ten (dkS .opened), _, _, rfl, rfl, by decide +kernel, acc (by decide +kernel)⟩,
    ⟨hO, 7, 7, one 0 .owner, _, rfl, by decide +kernel, by decide +kernel, acc (by decide +kernel)⟩,
    ⟨hO, 7, 7, one 0 .owner, _, rfl, by decide +kernel, by decide +kernel, acc (by decide +kernel)⟩,
    ⟨hO, 0, true, { ten { dkS .opened with evGrant := true, trGrant := true } with ln := [(0, { up := true, role := .owner }), (1, { up := true, role := .tenant 0 })] }, _, rfl, by decide +kernel, by decide +kernel, acc (by decide +kernel)⟩,
    ⟨0, { ten { dkS .opened with trace := { lastTime := some 1000000 } } with rf := { rdy.rf with tb := 1000192 } }, _, _, rfl, rfl, by decide +kernel, by decide +kernel, by decide +kernel⟩,
    ⟨hT, none, some [(0, 7), (47, 47)], _, ten (dkS .opened), _, _, rfl, okGet (by decide +kernel), okGet (by decide +kernel), by decide +kernel, acc (by decide +kernel)⟩,
    ⟨hT, some [(47, 47)], _, ten (dkS .opened), _, _, _, rfl, okGet (by decide +kernel), rfl, by decide +kernel, rfl, by decide +kernel, acc (by decide +kernel)⟩,
    ⟨hO, none, _, { one 0 .owner with md := { rdy.md with cntT := some 0 } }, _, _, rfl, rfl, rfl, acc (by decide +kernel)⟩,
    ⟨Config.sec, {}, { rdy with md := { rdy.md with cntT := some 0 } }, _, _, rfl, rfl, by decide +kernel⟩,
    ⟨0, 1, ten { dkS .opened with evq := [(.note, [])] }, _, 0, _, _, rfl, by decide +kernel, by decide +kernel, by decide +kernel, rfl, by decide +kernel⟩,
    ⟨0, 0, { one 0 .owner with ow := { q := [(.note, [])] } }, _, _, _, rfl, by decide +kernel, by decide +kernel, by decide +kernel, rfl, by decide +kernel⟩⟩

theorem witness_InstrumentRegistersComplete :
    (∃ (dt : Nat) (d : Fin 8) (n : Fin 4) (_v : BitVec 32) (s : State) (s0 : State), advance s dt = s0 ∧ (getDk s d).grant.dps.contains n.val = true ∧ AtPart dt d s { pclass := 6, parg := pfield 86 n + pfield 78 0 }) ∧
    (∃ (dt : Nat) (d : Fin 8) (n : Fin 4) (_v : BitVec 32) (s : State) (s0 : State), advance s dt = s0 ∧ (getDk s d).grant.dps.contains n.val = true ∧ AtPart dt d s { pclass := 6, parg := pfield 86 n + pfield 78 4 }) ∧
    (∃ (dt : Nat) (d : Fin 8) (n : Fin 2) (_v : BitVec 32) (s : State) (s0 : State) (k : Deckle), advance s dt = s0 ∧ getDk s d = k ∧ k.grant.aux.contains n.val = true ∧ AtPart dt d s { pclass := 6, parg := pfield 86 (4 + n.val) + pfield 78 0 } ∧ k.st.live = true ∧ (getAux s0 n).st ≠ .off ∧ (tget k.act.aux n {}).start = .cmd ∧ pressList s0 d n = false) ∧
    (∃ (dt : Nat) (d : Fin 8) (n : Fin 2) (_v : BitVec 32) (s : State) (s0 : State) (k : Deckle), advance s dt = s0 ∧ getDk s d = k ∧ k.grant.aux.contains n.val = true ∧ AtPart dt d s { pclass := 6, parg := pfield 86 (4 + n.val) + pfield 78 1 } ∧ k.st.live = true) ∧
    (∃ (dt : Nat) (d : Fin 8) (n : Fin 8) (_v : BitVec 32) (s : State) (s0 : State) (k : Deckle), advance s dt = s0 ∧ getDk s d = k ∧ k.grant.adc.contains n.val = true ∧ AtPart dt d s { pclass := 6, parg := pfield 86 (8 + n.val) + pfield 78 0 } ∧ k.st = .running ∧ (tget k.act.adc n {}).trig = .cmd) ∧
    (∃ (dt : Nat) (d : Fin 8) (n : Fin 4) (_v : BitVec 32) (s : State) (s0 : State) (k : Deckle), advance s dt = s0 ∧ getDk s d = k ∧ k.grant.tmu.contains n.val = true ∧ AtPart dt d s { pclass := 6, parg := pfield 86 (16 + n.val) + pfield 78 0 } ∧ k.st = .running ∧ (tget k.act.tmu n {}).trig = .cmd) ∧
    (∃ (dt : Nat) (d : Fin 8) (n : Fin 4) (_v : BitVec 32) (s : State) (s0 : State) (k : Deckle), advance s dt = s0 ∧ getDk s d = k ∧ k.grant.tmu.contains n.val = true ∧ AtPart dt d s { pclass := 6, parg := pfield 86 (16 + n.val) + pfield 78 1 } ∧ k.st.live = true) ∧
    (∃ (dt : Nat) (d : Fin 8) (u : Fin 32) (r : Fin 256) (s : State) (s0 : State) (k : Deckle), advance s dt = s0 ∧ getDk s d = k ∧ threadOk s0 k = true ∧ k.thr.wait = none ∧ k.thr.cust = true ∧ unitOut (runCtx k d []) u r = true) :=
  ⟨⟨0, 0, 0, 0, ten runK, _, rfl, by decide +kernel, atPart (by decide +kernel)⟩,
    ⟨0, 0, 0, 0, ten runK, _, rfl, by decide +kernel, atPart (by decide +kernel)⟩,
    ⟨0, 0, 0, 0, { ten runK with aux := [(0, { st := .idle })] }, _, _, rfl, rfl, by decide +kernel, atPart (by decide +kernel), by decide +kernel, by decide +kernel, by decide +kernel, by decide +kernel⟩,
    ⟨0, 0, 0, 0, ten runK, _, _, rfl, rfl, by decide +kernel, atPart (by decide +kernel), by decide +kernel⟩,
    ⟨0, 0, 0, 0, ten runK, _, _, rfl, rfl, by decide +kernel, atPart (by decide +kernel), by decide +kernel, by decide +kernel⟩,
    ⟨0, 0, 0, 0, ten runK, _, _, rfl, rfl, by decide +kernel, atPart (by decide +kernel), by decide +kernel, by decide +kernel⟩,
    ⟨0, 0, 0, 0, ten runK, _, _, rfl, rfl, by decide +kernel, atPart (by decide +kernel), by decide +kernel⟩,
    ⟨0, 0, 6, 0, ten { dkS .running with thr := { active := true, cust := true, upc := 0x2000 } }, _, _, rfl, rfl, by decide +kernel, by decide +kernel, by decide +kernel, by decide +kernel⟩⟩

theorem witness_StepTakesTheFrontCommand :
    (∃ (s : State) (c : Instr) (r : List Instr), s.pending = c :: r) :=
  ⟨{ rdy with pending := [.traceSlot 0] }, .traceSlot 0, [], rfl⟩

theorem witness_StepOnAnEmptyQueue :
    (∃ (s : State), s.pending = [] ∧ heldNext s = none) ∧
    (∃ (s : State) (t : State) (c : Instr), s.pending = [] ∧ heldNext s = some (c, t)) :=
  ⟨⟨rdy, by decide +kernel, by decide +kernel⟩,
    ⟨{ rdy with ln := [(0, { up := true, slots := [{ id := 1 }], held := [(1, .traceSlot 0)] })] }, _, _, rfl, rfl⟩⟩

theorem witness_CommandsLeaveTheQueue :
    (∃ (c : Instr) (s : State) (t : State), exec c s = .next t) ∧
    (∃ (s : State) (t : State) (c : Instr) (r : List Instr), s.pending = c :: r ∧ step s = .next t) ∧
    (∃ (s : State) (t : State), s.pending = [] ∧ step s = .next t) :=
  ⟨⟨.traceSlot 0, rdy, _, rfl⟩,
    ⟨{ rdy with pending := [.traceSlot 0] }, _, .traceSlot 0, [], rfl, rfl⟩,
    ⟨rdy, _, rfl, rfl⟩⟩

theorem witness_EveryStepKeepsTheMemoriesCanonical :
    (∃ (s : State) (t : State), MemoriesCanonical s ∧ step s = .next t) :=
  ⟨{ ten (dkS .opened) with vat := [(2 ^ 20, 1), (2 ^ 20 + 1, 255)], tpad := [(32767, 1)], cep := [(0, 7)], mpad := [(8191, 1)], pending := [.traceSlot 0] }, _, ⟨by decide +kernel, by decide +kernel, by decide +kernel, by decide +kernel, by decide +kernel, by decide +kernel, by decide +kernel, by decide +kernel, by decide +kernel, by decide +kernel⟩, rfl⟩

theorem witness_EveryStepKeepsTheModuleIdentity :
    (∃ (s : State) (t : State), step s = .next t) :=
  ⟨{ rdy with nv := { variant := .x, serial := 7 }, pending := [.traceSlot 0] }, _, rfl⟩

theorem witness_AtCancelTakesUntilTwoMicrosecondsBefore :
    (∃ (h : Hdr) (n : Nat) (a : AtAct) (s : State) (s0 : State) (d : Nat), begun h s = s0 ∧ myDk s0 h = d ∧ 1 ≤ n ∧ n ≤ 255 ∧ (getDk s0 d).ats.find? (fun x => x.id == n) = some a ∧ now s0 + 2500 ≤ a.t ∧ Accepts (tenantForm "AT") h s) ∧
    (∃ (s : State) (r : State) (d : Fin 8) (n : Nat) (_dt : Nat), r = modDk s d (fun k => { k with ats := k.ats.filter (fun x => x.id != n) })) ∧
    (∃ (h : Hdr) (n : Nat) (a : AtAct) (s : State) (s0 : State), begun h s = s0 ∧ 1 ≤ n ∧ n ≤ 255 ∧ (getDk s0 (myDk s0 h)).ats.find? (fun x => x.id == n) = some a ∧ a.t < now s0 + 2500 ∧ Accepts (tenantForm "AT") h s) ∧
    (∃ (h : Hdr) (n : Nat) (s : State) (s0 : State), begun h s = s0 ∧ 1 ≤ n ∧ n ≤ 255 ∧ (getDk s0 (myDk s0 h)).ats.find? (fun x => x.id == n) = none ∧ Accepts (tenantForm "AT") h s) :=
  ⟨⟨hT, 255, { id := 255, t := 1002500 }, { ten (dkS .opened) with dk := [(0, { dkS .opened with ats := [{ id := 255, t := 1002500 }] })] }, _, _, rfl, rfl, by decide +kernel, by decide +kernel, by decide +kernel, by decide +kernel, acc (by decide +kernel)⟩,
    ⟨rdy, _, 7, 255, 0, rfl⟩,
    ⟨hT, 1, { id := 1, t := 1002499 }, { ten (dkS .opened) with dk := [(0, { dkS .opened with ats := [{ id := 1, t := 1002499 }] })] }, _, rfl, by decide +kernel, by decide +kernel, by decide +kernel, by decide +kernel, acc (by decide +kernel)⟩,
    ⟨hT, 255, { ten (dkS .opened) with dk := [(0, { dkS .opened with ats := [{ id := 1, t := 1002500 }] })] }, _, rfl, by decide +kernel, by decide +kernel, by decide +kernel, acc (by decide +kernel)⟩⟩

theorem witness_PaceChangesFasterAlwaysSlowerOnlyAtRest :
    (∃ (h : Hdr) (p : Pace) (s : State) (s0 : State), begun h s = s0 ∧ s0.nv.pace.floor < p.floor ∧ Accepts { word := "PACE", roles := [.o] } h s) ∧
    (∃ (h : Hdr) (p : Pace) (s : State) (s0 : State) (d : Nat), begun h s = s0 ∧ p.floor < s0.nv.pace.floor ∧ d < 8 ∧ ((getDk s0 d).st = .armed ∨ (getDk s0 d).st = .running) ∧ Accepts { word := "PACE", roles := [.o] } h s) :=
  ⟨⟨hO, .swift, { one 0 .owner with dk := [(0, dkS .running)] }, _, rfl, by decide +kernel, acc (by decide +kernel)⟩,
    ⟨hO, .eco, { one 0 .owner with dk := [(7, dkS .armed)] }, _, 7, rfl, by decide +kernel, by decide +kernel, by decide +kernel, acc (by decide +kernel)⟩⟩

theorem witness_SlowFabricEntersSafe :
    (∃ (dt : Nat) (ratio : Rat) (s : State), (advance s dt).rf.run = true ∧ ratio < 1 / 2 ∧ (s.md.st = .degraded ∨ s.md.st = .warming ∨ s.md.st = .ready)) :=
  ⟨0, 499 / 1000, rdy, by decide +kernel, by decide +kernel, by decide +kernel⟩

theorem witness_RunAndTrigActAtTheFirstMultipleOf1250 :
    (∃ (h : Hdr) (s : State) (s0 : State) (d : Nat), begun h s = s0 ∧ myDk s0 h = d ∧ (getDk s0 d).st = .armed ∧ cmdGroup s0 (getDk s0 d) = none) :=
  ⟨hT, ten (dkS .armed), _, _, rfl, rfl, by decide +kernel, by decide +kernel⟩

theorem witness_EventQueuesKeepFaultLines :
    (∃ (cap : Nat) (q : List (EvClass × Line)) (_c : EvClass) (_t : Line), q.length < cap) ∧
    (∃ (cap : Nat) (q : List (EvClass × Line)) (_t : Line) (a : List (EvClass × Line)) (e : EvClass × Line) (b : List (EvClass × Line)), q = a ++ e :: b ∧ cap ≤ q.length ∧ (∀ x ∈ a, x.1 = EvClass.fault) ∧ e.1 ≠ .fault) ∧
    (∃ (cap : Nat) (q : List (EvClass × Line)) (_t : Line) (e : EvClass × Line) (b : List (EvClass × Line)), q = e :: b ∧ cap ≤ q.length ∧ (∀ x ∈ q, x.1 = EvClass.fault)) ∧
    (∃ (cap : Nat) (q : List (EvClass × Line)) (c : EvClass) (_t : Line), cap ≤ q.length ∧ c ≠ .fault) ∧
    (∃ (s : State) (d : Nat) (_c : EvClass) (_t : Line), 192 ≤ (getDk s d).evq.length) :=
  ⟨⟨256, List.replicate 255 (EvClass.fault, []), .note, [], by decide +kernel⟩,
    ⟨2, [(.fault, []), (.note, [])], [], [(.fault, [])], (.note, []), [], by decide +kernel, by decide +kernel, by decide +kernel, by decide +kernel⟩,
    ⟨2, [(.fault, []), (.fault, [])], [], (.fault, []), [(.fault, [])], by decide +kernel, by decide +kernel, by decide +kernel⟩,
    ⟨64, List.replicate 64 (EvClass.note, []), .note, [], by decide +kernel, by decide +kernel⟩,
    ⟨{ rdy with dk := [(7, { dkS .opened with evq := List.replicate 192 (EvClass.done, []) })] }, 7, .done, [], by decide +kernel⟩⟩

theorem witness_LostEventsAreAnnouncedBeforeTheNextLine :
    (∃ (dt : Nat) (l : Fin 10) (s : State) (s0 : State) (d : Nat) (e : EvClass × Line) (r : List (EvClass × Line)) (n : Nat), advance s dt = s0 ∧ (getLn s0 (l : Fin 10)).up = true ∧ (getLn s0 l).paused = false ∧ (getLn s0 l).role = .tenant d ∧ (getDk s0 d).evq = e :: r ∧ (getDk s0 d).evlost = n ∧ 0 < n) ∧
    (∃ (dt : Nat) (l : Fin 10) (s : State) (s0 : State) (e : EvClass × Line) (r : List (EvClass × Line)) (n : Nat) (s1 : State), advance s dt = s0 ∧ (getLn s0 (l : Fin 10)).up = true ∧ (getLn s0 l).paused = false ∧ (getLn s0 l).role = .owner ∧ s0.ow.q = e :: r ∧ s0.ow.lost = n ∧ 0 < n ∧ sendEvent s0 l [w "!NOTE", w "EVENTS-LOST", kn "N" n] = s1) :=
  ⟨⟨0, 9, { rdy with ln := [(9, { up := true, role := .tenant 7 })], dk := [(7, { dkS .opened with evq := [(.note, [])], evlost := 1 })] }, _, 7, (.note, []), [], 1, rfl, by decide +kernel, by decide +kernel, by decide +kernel, by decide +kernel, by decide +kernel, by decide +kernel⟩,
    ⟨0, 0, { one 0 .owner with ow := { q := [(.note, [])], lost := 1 } }, _, (.note, []), [], 1, _, rfl, by decide +kernel, by decide +kernel, by decide +kernel, by decide +kernel, by decide +kernel, by decide +kernel, rfl⟩⟩

theorem witness_CountersAreClearedWhereTheRuleSays :
    (∃ (h : Hdr) (l : Option (List (Nat × Nat))) (c : List Nat) (s : State) (s0 : State) (d : Nat), begun h s = s0 ∧ countList 3 0 47 l = .ok c ∧ myDk s0 h = d ∧ (getDk s0 d).st ∈ anySt) ∧
    (∃ (h : Hdr) (s : State) (s0 : State) (d : Nat), begun h s = s0 ∧ myDk s0 h = d ∧ (getDk s0 d).st ∈ clearStates) ∧
    (∃ (h : Hdr) (s : State) (s0 : State) (d : Nat), begun h s = s0 ∧ myDk s0 h = d ∧ (getDk s0 d).st ∈ clearStates) :=
  ⟨⟨hT, some [(0, 2), (6, 7), (47, 47)], [0, 1, 2, 6, 7, 47], ten (dkS .running), _, _, rfl, by decide +kernel, rfl, by decide +kernel⟩,
    ⟨hT, ten (dkS .stopped), _, _, rfl, rfl, by decide +kernel⟩,
    ⟨hT, ten (dkS .held), _, _, rfl, rfl, by decide +kernel⟩⟩

/-- The records of a run of D0 before a drain: the mode, the position, the full flag. -/
def s45 (m : LogMode) (p : Nat) (f : Bool) : State := ten { dkS .running with act := { furn0 with bbank := some 0, bmode := m }, res := { bq := [{}], bpos := p, bfull := f } }
def drains (s s0 : State) (k : Deckle) : Prop := ∃ r rest b t, advance s 0 = s0 ∧ getDk s0 0 = k ∧ k.res.bq = r :: rest ∧ k.act.bbank = some b ∧ exec (.brokeDrain 0 0 false) s = .next t
theorem drains45 (m : LogMode) (p : Nat) (f : Bool) : drains (s45 m p f) (s45 m p f) (getDk (s45 m p f) 0) := ⟨_, _, _, _, rfl, rfl, rfl, rfl, rfl⟩
theorem witness_BrokeLogFillsOrWraps :
    (∃ s s0 k, drains s s0 k ∧ k.res.bpos < 16383) ∧ (∃ s s0 k, drains s s0 k ∧ k.act.bmode = .first ∧ k.res.bpos = 16383) ∧
    (∃ s s0 k, drains s s0 k ∧ k.act.bmode = .first ∧ 16384 ≤ k.res.bpos) ∧ (∃ s s0 k, drains s s0 k ∧ k.act.bmode = .last ∧ k.res.bpos = 16383) ∧
    (∃ s s0 k, drains s s0 k ∧ k.act.bmode = .last ∧ 16384 ≤ k.res.bpos ∧ k.res.bfull = true) ∧
    (∃ s s0 k, drains s s0 k ∧ k.act.bmode = .last ∧ 16384 ≤ k.res.bpos ∧ k.res.bfull = false) :=
  ⟨⟨_, _, _, drains45 .last 16382 false, by decide +kernel⟩, ⟨_, _, _, drains45 .first 16383 false, by decide +kernel, by decide +kernel⟩,
    ⟨_, _, _, drains45 .first 16384 true, by decide +kernel, by decide +kernel⟩, ⟨_, _, _, drains45 .last 16383 false, by decide +kernel, by decide +kernel⟩,
    ⟨_, _, _, drains45 .last 16384 true, by decide +kernel, by decide +kernel, by decide +kernel⟩,
    ⟨_, _, _, drains45 .last 16384 false, by decide +kernel, by decide +kernel, by decide +kernel⟩⟩

theorem witness_SheetsOfAPatternAreStoredApart :
    (∃ (s : State) (d : Nat) (f : Furnish) (pa : Nat) (i : Nat) (x : Nat) (pa' : Nat) (i' : Nat), f.stripe.Nodup ∧ pa < patternSize f (getDk s d).width ∧ pa' < patternSize f (getDk s d).width ∧ i < 32 ∧ i' < 32 ∧ x < 2 ^ (getDk s d).width) :=
  ⟨ten (dkS .opened), 0, { furn0 with stripe := [0, 1] }, 1, 31, 2 ^ 32 - 1, 0, 0, by decide +kernel, by decide +kernel, by decide +kernel, by decide +kernel, by decide +kernel, by decide +kernel⟩

theorem witness_CallRetAndJumpFollowTheOpStack :
    (∃ (dt : Nat) (d : Fin 8) (s : State) (o : Op), AtOp dt d s o ∧ o.code = 0x23 ∧ (getDk s d).thr.os.length < 16) ∧
    (∃ (dt : Nat) (d : Fin 8) (s : State) (o : Op) (r : Nat) (e : Nat) (l : List (Nat × Nat)), AtOp dt d s o ∧ o.code = 0x24 ∧ (getDk s d).thr.os = (r, e) :: l) ∧
    (∃ (dt : Nat) (d : Fin 8) (s : State) (o : Op), AtOp dt d s o ∧ o.code = 0x22) :=
  ⟨⟨0, 0, { ten { dkS .running with thr := { active := true, os := List.replicate 15 (1, 0) } } with vat := mputNum [] (2 ^ 20) 8 (0x23 * 2 ^ 56) }, opW 0x23, atOp (by decide +kernel), by decide +kernel, by decide +kernel⟩,
    ⟨0, 0, { ten { dkS .running with thr := { active := true, os := [(1, 0)] } } with vat := mputNum [] (2 ^ 20) 8 (0x24 * 2 ^ 56) }, opW 0x24, 1, 0, [], atOp (by decide +kernel), by decide +kernel, by decide +kernel⟩,
    ⟨0, 0, { ten { dkS .running with thr := { active := true } } with vat := mputNum [] (2 ^ 20) 8 (0x22 * 2 ^ 56) }, opW 0x22, atOp (by decide +kernel), by decide +kernel⟩⟩

theorem witness_AuxStartEventsWhileBusyAreCounted :
    (∃ (s : State) (n : Nat) (_t : Nat) (a : Aux), auxSync (now s) (getAux s n) = a ∧ (a.st = .playing ∨ a.st = .frozen)) ∧
    (∃ (s : State) (n : Nat) (_t : Nat) (a : Aux), auxSync (now s) (getAux s n) = a ∧ (a.st = .idle ∨ a.st = .ended)) ∧
    (∃ (h : Hdr) (n : Nat) (s : State) (s0 : State) (d : Nat) (a : Aux) (r : State), begun h s = s0 ∧ ownUnit s0 h .aux n = .ok d ∧ r = modAux s0 n (auxSync (now s0)) ∧ getAux r n = a ∧ Accepts (readForm "AUX") h s) :=
  ⟨⟨{ rdy with aux := [(3, { st := .playing })] }, 3, 0, _, rfl, by decide +kernel⟩,
    ⟨{ rdy with aux := [(3, { st := .idle })] }, 3, 0, _, rfl, by decide +kernel⟩,
    ⟨hT, 0, ten (dkS .opened), _, 0, _, _, rfl, by decide +kernel, rfl, rfl, acc (by decide +kernel)⟩⟩

theorem witness_CountersRiseAndStopAtTheirLargestValue :
    (∃ (k : Deckle) (i : Nat) (_n : Nat) (_m : Nat) (b : Nat), (cntWidth[i]?).getD 64 = b ∧ tget k.cnt i 0 < 2 ^ b) :=
  ⟨{ cnt := [(0, 2 ^ 32 - 1)] }, 0, 1, 1, _, rfl, by decide +kernel⟩

theorem witness_MemoryReadsBackWhatWasWritten :
    (∃ (_m : Mem) (a : Nat) (n : Nat) (_v : Nat) (b : Nat), (b < a ∨ a + n ≤ b)) ∧
    (∃ (_m : Mem) (src : Mem) (_a : Nat) (_n : Nat) (_b : Nat) (_i : Nat), Memory.wf src) :=
  ⟨⟨[], 1, 4, 2 ^ 32 - 1, 5, by decide +kernel⟩,
    ⟨[], [(7, 1)], 7, 1, 0, 0, by decide +kernel⟩⟩

theorem witness_ABadSheetRefusesTheWholeWrite :
    (∃ (h : Hdr) (pa : Nat) (n : Nat) (blk : Blk) (s : State) (s0 : State) (d : Nat) (p : List Nat) (a : List Nat) (x : Nat) (b : List Nat) (why : Tok), BlkIs h blk s p ∧ begunBlk h blk s = s0 ∧ myDk s0 h = d ∧ quireRange (getDk s0 d) (getDk s0 d).editing 3 pa n = .ok () ∧ quiresHeld (getDk s0 d) (getDk s0 d).editing pa n = .ok () ∧ p.length = n * (4 * (getDk s0 d).width) ∧ notProgram (getDk s0 d) (getDk s0 d).editing pa n = .ok () ∧ splitNums ((getDk s0 d).width / 8) p.length p = a ++ x :: b ∧ (∀ y ∈ a, sheetFault (getDk s0 d) y = none) ∧ sheetFault (getDk s0 d) x = some why ∧ AcceptsBlk (tenantForm "DATA") h blk s) ∧
    (∃ (k : Deckle) (x : Nat) (why : Tok), sheetFault k x = some why ∧ (∀ i < k.grant.ch.length, sheetCode x i ≤ 10)) ∧
    (∃ (k : Deckle) (x : Nat) (i : Nat) (c : Nat), i < k.grant.ch.length ∧ (∀ j < i, sheetCode x j ≤ 10) ∧ 10 < sheetCode x i ∧ k.grant.ch[i]? = some c) :=
  ⟨⟨hT, 0, 1, blkOf (List.replicate 13 0 ++ [0xB0] ++ List.replicate 114 0), ten { dkS .opened with work := { furn0 with prog := none, loaded := [] } }, _, _, (List.replicate 13 0 ++ [0xB0] ++ List.replicate 114 0), [0, 0, 0], 0xB000, List.replicate 28 0, kv "PIN" (unitName .ch 1), blkIs (by decide +kernel), rfl, rfl, by decide +kernel, by decide +kernel, by decide +kernel, by decide +kernel, by decide +kernel, by decide +kernel, by decide +kernel, accBlk (by decide +kernel)⟩,
    ⟨dkS .opened, 2 ^ 16, w "FILL", by decide +kernel, by decide +kernel⟩,
    ⟨dkS .opened, 0xB000, 1, 1, by decide +kernel, by decide +kernel, by decide +kernel, by decide +kernel⟩⟩

theorem witness_EditsGoToTheWorkingFurnishOrTheShadow :
    (∃ (s : State) (d : Nat) (item : Option String) (f : Furnish → Furnish) (r : State) (t : Line), edit s d item f = .ok (r, t)) ∧
    (∃ (s : State) (d : Nat) (_item : Option String) (_f : Furnish → Furnish), ((getDk s d).st = .closed ∨ (getDk s d).st = .zeroing)) :=
  ⟨⟨ten (dkS .running), 0, some "STRIPE", (fun f => { f with stripe := [1] }), _, _, rfl⟩,
    ⟨ten (dkS .zeroing), 0, none, (fun f => f), by decide +kernel⟩⟩

/-- A line with the tag 1, on a session whose tag memory knows that tag. -/
def h53 : Hdr := { text := [65, 32, 35, 49] }
def s53 (e : TagEntry) : State := { one 0 .owner with ow := { tags := [{ e with tag := [49] }] } }
theorem witness_AKnownTagIsReplayedOrRefused :
    (∃ (h : Hdr) (s : State) (t : List Nat) (e : TagEntry), Arrives h s ∧ lineTag (seen h s).text = some t ∧
      findTag (begun h s) (tagMemOf h.line (getLn s h.line).role) t = some e ∧ e.text = normText (seen h s).text ∧ e.reply.isSome = true) ∧
    (∃ (h : Hdr) (s : State) (t : List Nat) (e : TagEntry), Arrives h s ∧ lineTag (seen h s).text = some t ∧
      findTag (begun h s) (tagMemOf h.line (getLn s h.line).role) t = some e ∧ e.text = normText (seen h s).text ∧ e.reply = none) ∧
    (∃ (h : Hdr) (s : State) (t : List Nat) (e : TagEntry), Arrives h s ∧ lineTag (seen h s).text = some t ∧
      findTag (begun h s) (tagMemOf h.line (getLn s h.line).role) t = some e ∧ e.text ≠ normText (seen h s).text) :=
  ⟨⟨h53, s53 { text := normText [65, 32, 35, 49], reply := some ([], []) }, [49], { tag := [49], text := normText [65, 32, 35, 49], reply := some ([], []) },
      arr (by decide +kernel), by decide +kernel, by decide +kernel, by decide +kernel, by decide +kernel⟩,
    ⟨h53, s53 { text := normText [65, 32, 35, 49] }, [49], { tag := [49], text := normText [65, 32, 35, 49] }, arr (by decide +kernel), by decide +kernel, by decide +kernel,
      by decide +kernel, by decide +kernel⟩,
    ⟨h53, s53 { text := [66] }, [49], { tag := [49], text := [66] }, arr (by decide +kernel), by decide +kernel, by decide +kernel, by decide +kernel⟩⟩

theorem witness_OwnerTakeOnlyOnTheConsoleOfAnUnownedModule :
    (∃ (h : Hdr) (key : Sec) (s : State) (s0 : State), begun h s = s0 ∧ key.digits = 64 ∧ (h.line : Nat) = 0 ∧ s0.nv.owner = none) ∧
    (∃ (h : Hdr) (key : Sec) (s : State), key.digits = 64 ∧ ((h.line : Nat) ≠ 0 ∨ (begun h s).nv.owner.isSome = true) ∧ Accepts { word := "OWNER", roles := [.a] } h s) :=
  ⟨⟨hO, { digits := 64 }, one 0 .anon, _, rfl, by decide +kernel, by decide +kernel, by decide +kernel⟩,
    ⟨hT, { digits := 64 }, one 1 .anon, by decide +kernel, by decide +kernel, acc (by decide +kernel)⟩⟩

/-- A thread in customer code that runs on into the vendor region: at word 0, a word of a mode with an argument. -/
def vcode (m a : Nat) (ms : List UEntry) : State :=
  writeStore (ten { dkS .running with thr := { active := true, cust := true, upc := 0, ms := ms } }) false 0 (leBytes 4 (m * 2 ^ 17 + a))

/-- The service thread of a READY module at word 0, a word of a mode with an argument, with a micro-stack. -/
def svcS (m a : Nat) (ms : List UEntry) : State := writeStore { rdy with md := { rdy.md with svc := { ms := ms } } } false 0 (leBytes 4 (m * 2 ^ 17 + a))

theorem witness_MicroStackIsNeverPassed :
    (∀ c : Bool, ∃ (d : Fin 8) (s : State), threadOk (advance s 0) (getDk s d) = true ∧ (getDk s d).thr.cust = true ∧
      fetchBad (advance s 0) (getDk s d).thr.upc = (false, false) ∧ vendorWord (getDk s d).thr.upc = false ∧
      fence (runCtx (getDk s d) d ((readU (advance s 0) (getDk s d).thr.upc).targets (getDk s d).thr.upc)) (readU (advance s 0) (getDk s d).thr.upc)
        (readN (advance s 0) (readU (advance s 0) (getDk s d).thr.upc).nano) = none ∧
      (if c then (readU (advance s 0) (getDk s d).thr.upc).mode = 2 ∧ 8 ≤ (getDk s d).thr.ms.length
       else (readU (advance s 0) (getDk s d).thr.upc).mode = 3 ∧ (getDk s d).thr.ms = [])) ∧
    (∀ c : Bool, ∃ (d : Fin 8) (s : State), threadOk (advance s 0) (getDk s d) = true ∧ (getDk s d).thr.cust = true ∧
      fetchBad (advance s 0) (getDk s d).thr.upc = (false, false) ∧ vendorWord (getDk s d).thr.upc = true ∧
      (if c then (readU (advance s 0) (getDk s d).thr.upc).mode = 2 ∧ 8 ≤ (getDk s d).thr.ms.length
       else (readU (advance s 0) (getDk s d).thr.upc).mode = 3 ∧ (getDk s d).thr.ms = [])) ∧
    (∀ c : Bool, ∃ s : State, svcRuns (advance s 0) = true ∧ (fetchBad (advance s 0) s.md.svc.upc).1 = false ∧
      (if c then (readU (advance s 0) s.md.svc.upc).mode = 2 ∧ 8 ≤ s.md.svc.ms.length else (readU (advance s 0) s.md.svc.upc).mode = 3 ∧ s.md.svc.ms = [])) := by
  refine ⟨fun c => ?_, fun c => ?_, fun c => ?_⟩
  · cases c
    · exact ⟨0, ucode 3 0 [], by decide +kernel, by decide +kernel, by decide +kernel, by decide +kernel, by decide +kernel, by decide +kernel⟩
    · exact ⟨0, ucode 2 0x2000 (List.replicate 8 {}), by decide +kernel, by decide +kernel, by decide +kernel, by decide +kernel, by decide +kernel, by decide +kernel⟩
  · cases c
    · exact ⟨0, vcode 3 0 [], by decide +kernel, by decide +kernel, by decide +kernel, by decide +kernel, by decide +kernel⟩
    · exact ⟨0, vcode 2 0 (List.replicate 8 {}), by decide +kernel, by decide +kernel, by decide +kernel, by decide +kernel, by decide +kernel⟩
  · cases c
    · exact ⟨svcS 3 0 [], by decide +kernel, by decide +kernel, by decide +kernel⟩
    · exact ⟨svcS 2 0 (List.replicate 8 {}), by decide +kernel, by decide +kernel, by decide +kernel⟩

/-- The slot of deckle D7 at count 1000160. -/
def s57 (m : Bool) (l : List Packet) : State :=
  { rdy with rf := { rdy.rf with tb := 1000160 }, ph := { port := true }, dk := [(7, { trPort := m, trace := { lastTime := some 1000160, fifo := l } })] }
theorem witness_TraceSlotsRotateOverTheDeckles :
    (∃ (dt : Nat) (s s0 : State) (c d : Nat) (t : State), advance s dt = s0 ∧ s0.rf.run = true ∧ now s0 = c ∧ c % 32 = 0 ∧ c / 32 % 8 = d ∧ s0.ph.port = true ∧ exec (.traceSlot dt) s = .next t ∧ (∃ p r, (getDk s0 d).trace.fifo = p :: r) ∧ timeDue (getDk s0 d) c = false ∧ (∀ p r, (getDk s0 d).trace.fifo = p :: r → toPort s0 (getDk s0 d) p = true)) ∧
    (∃ (dt : Nat) (s s0 : State) (c d : Nat) (t : State), advance s dt = s0 ∧ s0.rf.run = true ∧ now s0 = c ∧ c % 32 = 0 ∧ c / 32 % 8 = d ∧ s0.ph.port = true ∧ exec (.traceSlot dt) s = .next t ∧ (∃ p r, (getDk s0 d).trace.fifo = p :: r) ∧ timeDue (getDk s0 d) c = false ∧ (∀ p r, (getDk s0 d).trace.fifo = p :: r → toPort s0 (getDk s0 d) p = false)) ∧
    (∃ (dt : Nat) (s s0 : State) (c d : Nat) (t : State), advance s dt = s0 ∧ s0.rf.run = true ∧ now s0 = c ∧ c % 32 = 0 ∧ c / 32 % 8 = d ∧ s0.ph.port = true ∧ exec (.traceSlot dt) s = .next t ∧ (getDk s0 d).trace.fifo = [] ∧ timeDue (getDk s0 d) c = false) :=
  ⟨⟨0, s57 true [{}], s57 true [{}], 1000160, 7, _, rfl, by decide +kernel, rfl, by decide +kernel, by decide +kernel, by decide +kernel, rfl, ⟨_, _, rfl⟩, by decide +kernel, by intro p r _; rfl⟩,
    ⟨0, s57 false [{}], s57 false [{}], 1000160, 7, _, rfl, by decide +kernel, rfl, by decide +kernel, by decide +kernel, by decide +kernel, rfl, ⟨_, _, rfl⟩, by decide +kernel, by intro p r _; rfl⟩,
    ⟨0, s57 true [], s57 true [], 1000160, 7, _, rfl, by decide +kernel, rfl, by decide +kernel, by decide +kernel, by decide +kernel, rfl, rfl, by decide +kernel⟩⟩

theorem witness_RunningCommandsAreRefusedInTheWrongState :
    (∃ (h : Hdr) (s : State) (k : Deckle), getDk (begun h s) (myDk (begun h s) h) = k ∧ k.st ≠ .armed ∧ Accepts (tenantForm "RUN") h s) ∧
    (∃ (h : Hdr) (s : State) (k : Deckle), getDk (begun h s) (myDk (begun h s) h) = k ∧ k.st ≠ .stopped ∧ k.st ≠ .opened ∧ k.st ≠ .held ∧ Accepts (tenantForm "BROKE") h s) ∧
    (∃ (k : Deckle), k.st ≠ .held) ∧
    (∃ (k : Deckle) (y : HeldWhy), k.st = .held ∧ k.why = some y) :=
  ⟨⟨hT, ten (dkS .running), _, rfl, by decide +kernel, acc (by decide +kernel)⟩,
    ⟨hT, ten (dkS .armed), _, rfl, by decide +kernel, by decide +kernel, by decide +kernel, acc (by decide +kernel)⟩,
    ⟨dkS .closed, by decide +kernel⟩,
    ⟨{ dkS .held with why := some .restart }, .restart, by decide +kernel, by decide +kernel⟩⟩

theorem witness_ConnectorsShowTheState :
    (∃ (s : State), s.md.power = true) ∧
    (∃ (s : State), s.md.power = false) ∧
    (∃ (s : State) (t : Nat), s.md.power = true ∧ s.md.keeper = true ∧ s.md.keeperT ≤ t ∧ t % 1250 = 0) ∧
    (∃ (s : State), s.md.power = true ∧ s.md.keeper = true ∧ s.md.keeperT ≤ now s) ∧
    (∃ (s : State) (_t : Nat), s.md.keeper = false) :=
  ⟨⟨rdy, by decide +kernel⟩,
    ⟨{ rdy with md := { rdy.md with power := false } }, by decide +kernel⟩,
    ⟨{ rdy with md := { rdy.md with power := true, keeper := true, keeperT := 1250 } }, 1250, by decide +kernel, by decide +kernel, by decide +kernel, by decide +kernel⟩,
    ⟨{ rdy with md := { rdy.md with power := true, keeper := true, keeperT := 1000000 } }, by decide +kernel, by decide +kernel, by decide +kernel⟩,
    ⟨rdy, 0, by decide +kernel⟩⟩

theorem witness_ParityFindsOneUpsetBit :
    (∃ (s : State) (m : Mem) (_a : Nat) (_n : Nat) (_i : Nat), Memory.wf s.ust ∧ Memory.wf m) ∧
    (∃ (s : State) (m : Mem) (_a : Nat) (_n : Nat) (_i : Nat), Memory.wf s.nst ∧ Memory.wf m) ∧
    (∃ (s : State) (x : Upset), Memory.wf s.ust ∧ x.nano = false ∧ x.bit < 33 ∧ goodU s x.addr = true) ∧
    (∃ (s : State) (x : Upset), Memory.wf s.nst ∧ x.nano = true ∧ x.bit < 130 ∧ goodN s x.addr = true) ∧
    (∃ (s : State) (x : Upset) (i : Nat), Memory.wf s.ust ∧ (x.nano = false → i ≠ x.addr)) ∧
    (∃ (s : State) (x : Upset) (i : Nat), Memory.wf s.nst ∧ (x.nano = true → i ≠ x.addr)) :=
  ⟨⟨State.reset, [(7, 1)], 0x3FFF, 1, 0x3FFF, by decide +kernel, by decide +kernel⟩,
    ⟨State.reset, [(7, 1)], 4095, 1, 4095, by decide +kernel, by decide +kernel⟩,
    ⟨State.reset, { nano := false, addr := 0x3FFF, bit := 32 }, by decide +kernel, by decide +kernel, by decide +kernel, by decide +kernel⟩,
    ⟨State.reset, { nano := true, addr := 4095, bit := 129 }, by decide +kernel, by decide +kernel, by decide +kernel, by decide +kernel⟩,
    ⟨State.reset, { nano := true, addr := 0, bit := 0 }, 0, by decide +kernel, by decide +kernel⟩,
    ⟨State.reset, { nano := false, addr := 0, bit := 0 }, 0, by decide +kernel, by decide +kernel⟩⟩

/-! ### Well-formedness refuses -/

theorem wf_line_byte : Instr.wf (.hello { text := [256] }) = false := by decide
theorem wf_line_good : Instr.wf (.hello { text := [65, 255] }) = true := by decide
theorem wf_block_row : Blk.wf { blkOf [1] with rows := [{ text := [300] }] } = false := by decide +kernel
theorem wf_block_crc : Blk.wf { blkOf [1] with crc := 2 ^ 32 } = false := by decide +kernel
theorem wf_block_end : Instr.wf (.dataBlockAbort {} { row := { text := [65] }, n := 1 } [{ text := [256] }]) = false := by decide
theorem wf_container : Instr.wf (.microImage {} .patch (some 0) (blkOf []) { plain := [256] }) = false := by decide +kernel
theorem wf_upset : Upset.wf { nano := false, addr := 16384, bit := 0 } = false ∧ Upset.wf { nano := false, addr := 0, bit := 33 } = false ∧
    Upset.wf { nano := true, addr := 4096, bit := 0 } = false ∧ Upset.wf { nano := true, addr := 0, bit := 130 } = false := by decide
theorem wf_upset_row : Instr.wf (.umodeSeq 0 none (some { nano := false, addr := 16384, bit := 0 })) = false := by decide
theorem wf_secret : Instr.wf (.ownerTake { text := [65] } { val := 16, digits := 1 }) = false := by decide
theorem wf_alu_asel : Instr.wf (.aluAdd 0 0 { asel := 32 }) = false := by decide
theorem wf_alu_bsel : Instr.wf (.aluAdd 0 0 { bsel := 32 }) = false := by decide
theorem wf_alu_dsel : Instr.wf (.aluAdd 0 0 { dsel := 32 }) = false := by decide
theorem wf_alu_u0op : Instr.wf (.aluAdd 0 0 { u0op := 4 }) = false := by decide
theorem wf_alu_u1op : Instr.wf (.aluAdd 0 0 { u1op := 4 }) = false := by decide
theorem wf_alu_imm : Instr.wf (.aluAdd 0 0 { imm := 131072 }) = false := by decide
theorem wf_alu_k16 : Instr.wf (.aluAdd 0 0 { k16 := 65536 }) = false := by decide
theorem wf_frame_type : Instr.wf (.heartbeatFrame 0 { ty := 16 }) = false := by decide
theorem wf_frame_hop : Instr.wf (.heartbeatFrame 0 { hop := 8 }) = false := by decide
theorem wf_frame_tb : Instr.wf (.heartbeatFrame 0 { tb := 2 ^ 64 }) = false := by decide
theorem wf_frame_group : Instr.wf (.groupStartFrame 0 { group := 16 }) = false := by decide
theorem wf_frame_arg : Instr.wf (.groupStartFrame 0 { arg := 2 ^ 64 }) = false := by decide
theorem wf_frame_rsv : Instr.wf (.calibrationFrame 0 { rsv := 2 ^ 29 }) = false := by decide
theorem wf_frame_sync : Instr.wf (.heartbeatFrame 0 { sync := 2 ^ 16 }) = false ∧ Instr.wf (.heartbeatFrame 0 { crc := 2 ^ 16 }) = false := by decide
theorem wf_frame_fine : Instr.wf (.groupStartFrame 0 { fine := 1024 }) = false := by decide
theorem wf_edge_fine : Instr.wf (.trigInEdge 0 true 1024) = false := by decide
theorem wf_edit_byte : Instr.wf (.lineEditing 0 0 256) = false := by decide
theorem wf_lane : Instr.wf (.chainLost 0 2) = false := by decide
theorem wf_ratio : Instr.wf (.monitorWindowEnd 0 (-1)) = false := by decide
theorem wf_target : Instr.wf (.login { text := [65] } (.deckle 8)) = false ∧ Instr.wf (.lockoutExpiry 0 (.observer 8)) = false := by decide
theorem wf_tags : Instr.wf (.tagEntryExpiry 0 (.deckle 8)) = false ∧ Instr.wf (.tagEntryExpiry 0 (.session 10)) = false := by decide
theorem wf_dps : Instr.wf (.controlPeriod 0 0 { vs := 2 ^ 32 }) = false ∧ Instr.wf (.controlPeriod 0 0 { vf := 2 ^ 32 }) = false ∧
    Instr.wf (.controlPeriod 0 0 { io := 2 ^ 32 }) = false := by decide
theorem wf_obs : PinObs.wf { ch := 48, sheet := 0, at1 := .mid } = false ∧ PinObs.wf { ch := 0, sheet := 32, at1 := .mid } = false := by decide
theorem wf_tdr : Instr.wf (.deskewMeasureComplete 0 0 [{ ch := 48, delay := none }]) = false := by decide

/-! ### The worked examples of the spec, and published check values -/

/-- Chapter 14, "addressing a sheet": sheet 5 of quire 13 with 48 pins and the stripe V32 to V35 lies in V33 at 0xCA0. -/
theorem test_sheet_address : widthOf 48 = 256 ∧ sheetAddr { stripe := [32, 33, 34, 35] } 256 13 5 = bankBase 33 + 0xCA0 := by decide +kernel

/-- Chapter 9, "dispatch, MWAY and a parity error": the op 0xE302_0000_2000_0007. -/
theorem test_op_fields : opOf 0xE302000020000007 = { code := 0xE3, flag := 2, a := 0x20, b := 7 } := by decide +kernel

/-- Chapter 9: microword 0xA05B_C820 has NANO 0xA05 and MODE 5, MWAY. -/
theorem test_microword_fields : (uwordOf 0xA05BC820).nano = 0xA05 ∧ (uwordOf 0xA05BC820).mode = 5 := by decide +kernel

/-- Chapter 10, FILL: 0xE02D_8001 is LOOP with k = 3 and target 0x001. -/
theorem test_microword_loop : (uwordOf 0xE02D8001).nano = 0xE02 ∧ (uwordOf 0xE02D8001).mode = 6 ∧ (uwordOf 0xE02D8001).arg % 2 ^ 13 = 1 := by decide +kernel

/-- Chapter 9: nanoword 0xA05 adds K16 = 4 to G13 with flags and dispatches from G13 with the count in G12. -/
theorem test_nanoword_fields : (nwordOf (0x09BB6C0036E00000 * 2 ^ 64 + 0x0004000000000000)).aluop = 2 ∧
    (nwordOf (0x09BB6C0036E00000 * 2 ^ 64 + 0x0004000000000000)).upd = true ∧ (nwordOf (0x09BB6C0036E00000 * 2 ^ 64 + 0x0004000000000000)).k16 = 4 := by decide +kernel

/-- Chapter 15, "a target behind the present value": from 2.825 V moving up at full slew to 2.0 V takes 6.5 us, 8,125 ticks. -/
theorem test_profile_arrival : profTime (planProfile (2825 / 1000) (3 / 10) 2 (3 / 10) (some (2 / 10))) = 13 / 2 := by decide +kernel

/-- Chapter 15: a microsecond after the new target r stands at 3.025 V and moves at 0.1 V/us. -/
theorem test_profile_peak : (runProfile 2 (planProfile (2825 / 1000) (3 / 10) 2 (3 / 10) (some (2 / 10))) (2825 / 1000) 1).1 = 3025 / 1000 ∧
    (runProfile 2 (planProfile (2825 / 1000) (3 / 10) 2 (3 / 10) (some (2 / 10))) (2825 / 1000) 1).2.1 = 1 / 10 := by decide +kernel

/-- FIPS 180-4: SHA-256 of "abc" begins BA 78 16 BF. -/
theorem test_sha256 : (sha256 [0x61, 0x62, 0x63]).take 4 = [0xBA, 0x78, 0x16, 0xBF] := by decide +kernel

/-- The check value of CRC-32: "123456789" gives CBF43926. -/
theorem test_crc32 : crc32 [0x31, 0x32, 0x33, 0x34, 0x35, 0x36, 0x37, 0x38, 0x39] = 0xCBF43926 := by decide +kernel

/-- R294: a borrow leaves C 0, and CLZ of 0 is 32. -/
theorem test_alu_borrow : (alu .sub 0 1 false).val = 0xFFFFFFFF#32 ∧ (alu .sub 0 1 false).c = some false ∧ (alu .clz 0 0 false).val = 32#32 := by decide +kernel

/-- R539: the slot at count 256 + 96 is D3's. -/
theorem test_trace_slot : (exec (.traceSlot 0) { rdy with rf := { rdy.rf with tb := 352 }, ph := { port := true } } |> fun
    | .next t => t.ph.slot == some (3, syncBytes 3)
    | _ => false) = true := by decide +kernel

end Sys2Proof.Tests
end

section
/-! OWNER TAKE (R15): what its body answers in the state its line begins in, and with that who may take a module. -/

namespace Sys2Proof

open Machine

variable {h : Hdr} {key : Sec} {s : State}

/-- What OWNER TAKE does once its line is accepted. -/
def ownerTakeBody (h : Hdr) (key : Sec) : Body := fun s => do
  need (key.digits = 64) (e400 3)
  need ((h.line : Nat) = 0 ∧ s.nv.owner.isNone) e403
  let s := clearFail s 0x40
  ok { s with nv := { s.nv with owner := some { k := key.val, setAt := now s } } } [w "OK", w "OWNER", w "TAKE"]

/-- The module with a key as its owner key, set now, and no failures counted for the owner (log 98). -/
def owned (key : Sec) (s : State) : State :=
  { s with nv := { s.nv with owner := some { k := key.val, setAt := now s }, lock := tdel s.nv.lock 0x40 } }

theorem exec_ownerTake (h : Hdr) (key : Sec) (s : State) :
    exec (.ownerTake h key) s = noram s (.ownerTake h key) { word := "OWNER", roles := [.a] } h (ownerTakeBody h key) := rfl

/-- On CON, a module without an owner takes a key of 64 digits. -/
theorem ownerTakeBody_unowned (hkey : key.digits = 64) (hcon : (h.line : Nat) = 0) (hown : s.nv.owner = none) :
    ownerTakeBody h key s = .ok (owned key s, .now [] [w "OK", w "OWNER", w "TAKE"]) := by
  have hmay : decide ((h.line : Nat) = 0 ∧ s.nv.owner.isNone) = true := by simp [hcon, hown]
  simp only [ownerTakeBody, need_ok _ _ (decide_eq_true hkey), need_ok _ _ hmay, res_bind_ok]
  rfl

/-- Off CON, or with an owner, a key of 64 digits is answered E403. -/
theorem ownerTakeBody_denied (hkey : key.digits = 64) (hdeny : (h.line : Nat) ≠ 0 ∨ s.nv.owner.isSome = true) :
    ownerTakeBody h key s = .error e403 := by
  have hmay : decide ((h.line : Nat) = 0 ∧ s.nv.owner.isNone) = false := by
    rw [decide_eq_false_iff_not, Option.isNone_iff_eq_none]
    rintro ⟨hcon, hown⟩
    rcases hdeny with hline | hsome
    · exact hline hcon
    · simp [hown] at hsome
  simp only [ownerTakeBody, need_ok _ _ (decide_eq_true hkey), need_error _ _ hmay, res_bind_ok, res_bind_error]

/-- Settles O53: the body of an accepted line takes the key on CON of a module without an owner, and answers E403 otherwise. -/
theorem ownerTakeOnlyOnTheConsoleOfAnUnownedModule : Obligations.OwnerTakeOnlyOnTheConsoleOfAnUnownedModule := by
  constructor
  · rintro h key s _ rfl hkey hcon hown
    refine ⟨tdel (begun h s).nv.lock 0x40, fun hA => ?_⟩
    rw [exec_ownerTake]
    exact noram_now hA (ownerTakeBody_unowned hkey hcon hown)
  · intro h key s hkey hdeny hA
    rw [exec_ownerTake]
    exact noram_refused hA (ownerTakeBody_denied hkey hdeny)

end Sys2Proof
end

section
/-! AT CANCEL (R150): what its body answers for an action that is pending and for one that is not, and that the event of a
cancelled action does nothing. -/

namespace Sys2Proof

open Machine

variable {h : Hdr} {n : Nat} {a : AtAct} {s : State}

/-- What AT CANCEL does once its line is accepted. -/
def atCancelBody (h : Hdr) (n : Nat) : Body := fun s => do
  need (1 ≤ n ∧ n ≤ 255) (e419 3)
  let d := myDk s h
  match (getDk s d).ats.find? (fun a => a.id == n) with
  | none => .error e410
  | some a =>
    need (now s + 2500 ≤ a.t) e411
    ok (modDk s d (fun k => { k with ats := k.ats.filter (fun x => x.id != n) })) [w "OK", w "AT", w "CANCEL", dTok d, kn "ID" n]

/-- A deckle without its pending actions of an ID. -/
def withoutAt (n : Nat) (k : Deckle) : Deckle := { k with ats := k.ats.filter (fun x => x.id != n) }

theorem exec_atCancel (h : Hdr) (n : Nat) (s : State) :
    exec (.atCancel h n) s = noram s (.atCancel h n) (tenantForm "AT") h (atCancelBody h n) := rfl

theorem exec_atActionDue (dt : Nat) (d : Fin 8) (n : Nat) (s : State) :
    exec (.atActionDue dt d n) s = execAtActionDue dt d n s := rfl

/-- An ID is pending no more once its actions are taken away. -/
theorem withoutAt_find?_id (n : Nat) (k : Deckle) : (withoutAt n k).ats.find? (fun x => x.id == n) = none := by
  simp [withoutAt, List.find?_eq_none]

/-- AT_ACTION_DUE of an ID that is not pending lets only its time pass. -/
theorem execAtActionDue_not_pending (dt : Nat) (d : Fin 8)
    (hnone : (getDk s d).ats.find? (fun x => x.id == n) = none) : execAtActionDue dt d n s = .next (advance s dt) := by
  simp only [execAtActionDue, getDk_advance, hnone]

section
variable (hid : 1 ≤ n ∧ n ≤ 255)
include hid

/-- An action at least 2,500 ticks ahead is taken from the deckle. -/
theorem atCancelBody_in_time (hfind : (getDk s (myDk s h)).ats.find? (fun x => x.id == n) = some a) (ht : now s + 2500 ≤ a.t) :
    atCancelBody h n s =
      .ok (modDk s (myDk s h) (withoutAt n), .now [] [w "OK", w "AT", w "CANCEL", dTok (myDk s h), kn "ID" n]) := by
  simp only [atCancelBody, need_ok _ _ (decide_eq_true hid), hfind, need_ok _ _ (decide_eq_true ht), res_bind_ok]
  rfl

/-- An action less than 2,500 ticks ahead is answered E411. -/
theorem atCancelBody_too_late (hfind : (getDk s (myDk s h)).ats.find? (fun x => x.id == n) = some a) (ht : a.t < now s + 2500) :
    atCancelBody h n s = .error e411 := by
  have hlate : decide (now s + 2500 ≤ a.t) = false := decide_eq_false (Nat.not_le_of_lt ht)
  simp only [atCancelBody, need_ok _ _ (decide_eq_true hid), hfind, need_error _ _ hlate, res_bind_ok, res_bind_error]

/-- An ID that is not pending is answered E410. -/
theorem atCancelBody_not_pending (hnone : (getDk s (myDk s h)).ats.find? (fun x => x.id == n) = none) :
    atCancelBody h n s = .error e410 := by
  simp only [atCancelBody, need_ok _ _ (decide_eq_true hid), hnone, res_bind_ok]

end

/-- Settles O37: the body of an accepted line takes the action, answers E411 or answers E410, by whether the ID is pending and its
tick is 2,500 ticks ahead; and the event of an ID that is pending no more finds nothing to do. -/
theorem atCancelTakesUntilTwoMicrosecondsBefore : Obligations.AtCancelTakesUntilTwoMicrosecondsBefore := by
  refine ⟨?taken, ?eventWithoutEffect, ?tooLate, ?notPending⟩
  case taken =>
    rintro h n a s _ _ rfl rfl h1 h255 hfind ht hA
    rw [exec_atCancel]
    exact noram_now hA (atCancelBody_in_time ⟨h1, h255⟩ hfind ht)
  case eventWithoutEffect =>
    rintro s _ d n dt rfl
    rw [exec_atActionDue]
    refine execAtActionDue_not_pending dt d ?_
    rw [getDk_modDk_same]
    exact withoutAt_find?_id n (getDk s d)
  case tooLate =>
    rintro h n a s _ rfl h1 h255 hfind ht hA
    rw [exec_atCancel]
    exact noram_refused hA (atCancelBody_too_late ⟨h1, h255⟩ hfind ht)
  case notPending =>
    rintro h n s _ rfl h1 h255 hnone hA
    rw [exec_atCancel]
    exact noram_refused hA (atCancelBody_not_pending ⟨h1, h255⟩ hnone)

end Sys2Proof
end

section
/-! PACE SET (R197): what its body answers to a faster and to a slower setting. -/

namespace Sys2Proof

open Machine

variable {h : Hdr} {p : Pace} {s : State} {d : Nat}

/-- The module on its way to a pace: the setting taken, the slowest setting that the voltage passes kept (R196). -/
def repaced (p : Pace) (s : State) : State :=
  { s with nv := { s.nv with pace := p },
           pc := { s.pc with next := some p, low := some (s.pc.next.toList.foldl slower (s.pc.low.getD s.nv.pace)) } }

/-- What PACE SET does once its line is accepted. -/
def paceSetBody (p : Pace) : Body := fun s => do
  if p = s.nv.pace then
    if s.pc.next.isNone then ok s [w "OK", w "PACE", w p.name] else .ok (s, .later (.pace p))
  else
    need (!(p.floor < s.nv.pace.floor && anyInUse s)) e423
    .ok (repaced p s, .later (.pace p))

theorem exec_paceSet (h : Hdr) (p : Pace) (s : State) :
    exec (.paceSet h p) s = noram s (.paceSet h p) { word := "PACE", roles := [.o] } h (paceSetBody p) := rfl

theorem mem_deckles : d ∈ deckles ↔ d < 8 := List.mem_range (n := 8)

/-- An ARMED or RUNNING deckle is in use. -/
theorem anyInUse_of_armed_or_running (hd : d < 8) (hst : (getDk s d).st = .armed ∨ (getDk s d).st = .running) :
    anyInUse s = true :=
  List.any_eq_true.mpr ⟨d, mem_deckles.mpr hd, by rcases hst with hst | hst <;> simp [Deckle.inUse, hst]⟩

/-- A faster setting is taken, whatever the deckles do. -/
theorem paceSetBody_faster (hfast : s.nv.pace.floor < p.floor) :
    paceSetBody p s = .ok (repaced p s, .later (.pace p)) := by
  have hne : p ≠ s.nv.pace := fun he => absurd hfast (by simp [he])
  have hpass : (!(decide (p.floor < s.nv.pace.floor) && anyInUse s)) = true := by simp [Nat.lt_asymm hfast]
  simp only [paceSetBody, if_neg hne, need_ok _ _ hpass, res_bind_ok]

/-- A slower setting is answered E423 while a deckle is in use. -/
theorem paceSetBody_slower_in_use (hslow : p.floor < s.nv.pace.floor) (huse : anyInUse s = true) :
    paceSetBody p s = .error e423 := by
  have hne : p ≠ s.nv.pace := fun he => absurd hslow (by simp [he])
  have hstop : (!(decide (p.floor < s.nv.pace.floor) && anyInUse s)) = false := by simp [hslow, huse]
  simp only [paceSetBody, if_neg hne, need_error _ _ hstop, res_bind_error]

/-- Settles O38: the body of an accepted line takes a faster setting, its reply to come, and answers E423 to a slower one while
a deckle is ARMED or RUNNING. -/
theorem paceChangesFasterAlwaysSlowerOnlyAtRest : Obligations.PaceChangesFasterAlwaysSlowerOnlyAtRest := by
  constructor
  · rintro h p s _ rfl hfast hA
    rw [exec_paceSet]
    exact noram_later hA (paceSetBody_faster hfast)
  · rintro h p s _ d rfl hslow hd hst hA
    rw [exec_paceSet]
    exact noram_refused hA (paceSetBody_slower_in_use hslow (anyInUse_of_armed_or_running hd hst))

end Sys2Proof
end

section
/-! What leaves the module's own record `md` whole: lines sent, events, notes, replies, the derating by the pace monitor, changes of
deckle state and the stop of a deckle in SAFE. -/

namespace Sys2Proof.Machine

/-! ### Updates in a row -/

/-- What no update of a row changes, the row does not change. -/
theorem foldl_keeps {g : σ → β} {f : σ → α → σ} (hf : ∀ s a, g (f s a) = g s) (l : List α) (s : σ) :
    g (l.foldl f s) = g s := by
  induction l generalizing s with
  | nil => rfl
  | cons a l ih => exact (ih (f s a)).trans (hf s a)

theorem foldl_md {f : State → α → State} (hf : ∀ s a, (f s a).md = s.md) (l : List α) (s : State) : (l.foldl f s).md = s.md :=
  foldl_keeps (g := State.md) hf l s

theorem forEach_md {f : State → α → State} (hf : ∀ s a, (f s a).md = s.md) (l : List α) (s : State) : (forEach l s f).md = s.md :=
  foldl_md hf l s

/-! ### Sending and events -/

@[simp] theorem sendLine_md (s : State) (l : Nat) (t : Line) : (sendLine s l t).md = s.md := rfl

@[simp] theorem sendRaw_md (s : State) (l : Nat) (b : List Nat) : (sendRaw s l b).md = s.md := by
  unfold sendRaw; split <;> simp

@[simp] theorem sendEvent_md (s : State) (l : Nat) (t : Line) : (sendEvent s l t).md = s.md := by
  simp only [sendEvent]; split <;> simp

@[simp] theorem sendAll_md (s : State) (t : Line) : (sendAll s t).md = s.md := foldl_md (by simp) _ _

@[simp] theorem evtHit_md (s : State) (n : Nat) : (evtHit s n).md = s.md := rfl

@[simp] theorem evtRaise_md (s : State) (x : MapSrc) (c : EvClass) : (evtRaise s x c).md = s.md :=
  foldl_md (fun s n => by dsimp only; split <;> simp) _ _

@[simp] theorem queueEv_md (s : State) (d : Nat) (own : Bool) (c : EvClass) (t : Line) : (queueEv s d own c t).md = s.md := rfl

@[simp] theorem event_md (s : State) (d : Nat) (c : EvClass) (t : Line) : (event s d c t).md = s.md := by simp [event]

@[simp] theorem ownerEvent_md (s : State) (c : EvClass) (t : Line) : (ownerEvent s c t).md = s.md := by simp [ownerEvent]

@[simp] theorem noteAll_md (s : State) (t : Line) : (noteAll s t).md = s.md :=
  (foldl_md (fun s d => by split <;> simp) _ _).trans (ownerEvent_md _ _ _)

/-! ### The pace monitor -/

@[simp] theorem setDerate_md (s : State) (n : Nat) : (setDerate s n).md = s.md := by simp [setDerate]

@[simp] theorem derate_md (s : State) (m : Rat) : (derate s m).md = s.md := by
  simp only [derate]
  split
  · simp
  · split
    · rfl
    · split <;> split <;> simp

@[simp] theorem reportRatio_md (s : State) (m : Rat) : (reportRatio s m).md = s.md := by
  unfold reportRatio
  split
  · split <;> rfl
  · rfl

/-! ### Deckle states -/

@[simp] theorem streamPut_md (s : State) (d ty : Nat) (b : List Nat) : (streamPut s d ty b).md = s.md := rfl

@[simp] theorem traceState_md (s : State) (d : Nat) : (traceState s d).md = s.md := by
  simp only [traceState]; split <;> simp

@[simp] theorem setSt_md (s : State) (d : Nat) (x : DkState) : (setSt s d x).md = s.md := by simp [setSt]

/-! ### Replies -/

@[simp] theorem setTags_md (s : State) (m : TagMem) (t : List TagEntry) : (setTags s m t).md = s.md := by cases m <;> rfl

@[simp] theorem endTag_md (s : State) (m : TagMem) (t : List Nat) (b : List Line) (fin : Line) : (endTag s m t b fin).md = s.md := by
  simp [endTag]

@[simp] theorem sendReply_md (s : State) (l : Nat) (p : List Line × Line) : (sendReply s l p).md = s.md := by
  have hbody : (p.1.foldl (fun s t => sendLine s l t) s).md = s.md := foldl_md (by simp) _ _
  simp only [sendReply]; split <;> simp [hbody]

@[simp] theorem flushSlots_md (s : State) (l : Nat) : (flushSlots s l).md = s.md :=
  (foldl_md (by simp) _ _).trans (modLn_md _ _ _)

@[simp] theorem answer_md (s : State) (l n : Nat) (b : List Line) (fin : Line) : (answer s l n b fin).md = s.md := by
  unfold answer; split <;> simp

@[simp] theorem completeJob_md (s : State) (j : Job) (b : List Line) (fin : Line) : (completeJob s j b fin).md = s.md := by
  unfold completeJob
  extract_lets fin' dropped tagged told answered
  have htagged : tagged.md = s.md := by simp only [tagged]; split <;> simp [dropped]
  have htold : told.md = tagged.md := by simp only [told]; split <;> simp
  have hanswered : answered.md = s.md := (answer_md _ _ _ _ _).trans (htold.trans htagged)
  split
  · exact hanswered
  · exact (foldl_md (fun s x => by split <;> simp) _ _).trans hanswered

@[simp] theorem finishJob_md (s : State) (p : JobKind → Bool) (b : List Line) (fin : Line) : (finishJob s p b fin).md = s.md := by
  unfold finishJob; split <;> simp

@[simp] theorem finishJobs_md (s : State) (p : JobKind → Bool) (b : List Line) (fin : Line) : (finishJobs s p b fin).md = s.md :=
  foldl_md (by simp) _ _

@[simp] theorem pressFails_md (s : State) (d : Nat) (c : String) : (pressFails s d c).md = s.md := by
  simp only [pressFails]; split <;> simp

@[simp] theorem abandonArm_md (s : State) (d : Nat) (f : FaultKind) : (abandonArm s d f).md = s.md := by
  unfold abandonArm; split <;> simp

@[simp] theorem safeDeckle_md (s : State) (d : Nat) : (safeDeckle s d).md = s.md := by
  simp only [safeDeckle]; split <;> simp

end Sys2Proof.Machine
end

section
/-! Entry to SAFE (R92, R520): switching outputs off changes KEEPER alone of the module's own record, so that a module-scope
fault leaves SAFE, the cause and the SAFE latch as it has just set them. -/

namespace Sys2Proof.Machine

/-- The module's own record but for KEEPER (R63), which the outputs start and stop. -/
def ModSt.sansKeeper (m : ModSt) : ModSt := { m with keeper := false, keeperT := 0 }

/-- The module's own record in SAFE by a fault. -/
def ModSt.inSafe (m : ModSt) (cause : String) (latch : Bool) : ModSt :=
  { m with st := .safe, cause := cause, latch := m.latch || latch,
           latchCause := if latch && !m.latch then cause else m.latchCause }

@[simp] theorem sansKeeper_st (m : ModSt) : m.sansKeeper.st = m.st := rfl
@[simp] theorem sansKeeper_cause (m : ModSt) : m.sansKeeper.cause = m.cause := rfl
@[simp] theorem sansKeeper_latch (m : ModSt) : m.sansKeeper.latch = m.latch := rfl

@[simp] theorem keep_md_sansKeeper (s : State) : (keep s).md.sansKeeper = s.md.sansKeeper := by
  unfold keep
  split
  · split <;> rfl
  · rfl

@[simp] theorem safeOutputs_md_sansKeeper (s : State) : (safeOutputs s).md.sansKeeper = s.md.sansKeeper := rfl

@[simp] theorem releaseEvt_md (s : State) : (releaseEvt s).md = s.md := rfl

@[simp] theorem abandonTmu_md (s : State) (n : Nat) : (abandonTmu s n).md = s.md := rfl

@[simp] theorem outputsOff_md_sansKeeper (s : State) (d : Nat) : (outputsOff s d).md.sansKeeper = s.md.sansKeeper := by
  simp only [outputsOff, keep_md_sansKeeper]
  rw [forEach_md abandonTmu_md, forEach_md, forEach_md, forEach_md, forEach_md] <;> simp

@[simp] theorem beginZero_md_sansKeeper (s : State) (d : Nat) : (beginZero s d).md.sansKeeper = s.md.sansKeeper := by
  simp only [beginZero, setSt_md, modDk_md]
  rw [forEach_md (fun _ _ => modBk_md _ _ _), outputsOff_md_sansKeeper]

theorem foldl_md_sansKeeper {f : State → α → State} (hf : ∀ s a, (f s a).md.sansKeeper = s.md.sansKeeper) (l : List α) (s : State) :
    (l.foldl f s).md.sansKeeper = s.md.sansKeeper :=
  foldl_keeps (g := fun s => s.md.sansKeeper) hf l s

/-- The module's own record after a fault has taken the module to SAFE. -/
theorem enterSafe_md_sansKeeper (s : State) (cause : String) (latch : Bool) (t : Line) :
    (enterSafe s cause latch t).md.sansKeeper = (s.md.inSafe cause latch).sansKeeper := by
  simp only [enterSafe, evtRaise_md, sendAll_md]
  rw [foldl_md_sansKeeper, safeOutputs_md_sansKeeper, releaseEvt_md, foldl_md safeDeckle_md, ModSt.inSafe]
  intro s d
  split <;> simp

theorem enterSafe_st (s : State) (cause : String) (latch : Bool) (t : Line) : (enterSafe s cause latch t).md.st = .safe := by
  rw [← sansKeeper_st, enterSafe_md_sansKeeper]; rfl

theorem enterSafe_cause (s : State) (cause : String) (latch : Bool) (t : Line) : (enterSafe s cause latch t).md.cause = cause := by
  rw [← sansKeeper_cause, enterSafe_md_sansKeeper]; rfl

theorem enterSafe_latch (s : State) (cause : String) (latch : Bool) (t : Line) :
    (enterSafe s cause latch t).md.latch = (s.md.latch || latch) := by
  rw [← sansKeeper_latch, enterSafe_md_sansKeeper]; rfl

end Sys2Proof.Machine
end

section
/-! A window of the pace monitor (R200 to R204). -/

namespace Sys2Proof

open Machine

variable {ratio : Rat} {s : State}

/-- What a window of the pace monitor does to the report and to the derating factor (R199, R201). -/
def windowTaken (ratio : Rat) (s : State) : State :=
  let s := reportRatio s ratio
  if s.pc.next.isSome then s
  else if s.pc.skip then { s with pc := { s.pc with skip := false } }
  else derate s ratio

theorem exec_monitorWindowEnd_run (dt : Nat) (ratio : Rat) (s : State) (hrun : (advance s dt).rf.run = true) :
    exec (.monitorWindowEnd dt ratio) s =
      .next (if ratio < 1 / 2 then moduleFault (windowTaken ratio (advance s dt)) "F-PACE" false else windowTaken ratio (advance s dt)) := by
  show execMonitorWindowEnd dt ratio s = _
  simp only [execMonitorWindowEnd, hrun]
  rfl

@[simp] theorem windowTaken_md (ratio : Rat) (s : State) : (windowTaken ratio s).md = s.md := by
  simp only [windowTaken]
  split
  · simp
  · split <;> simp

/-- A module-scope fault of a module in operation takes it to SAFE. -/
theorem moduleFault_in_operation (cause : String) (latch : Bool) (hst : s.md.st = .degraded ∨ s.md.st = .warming ∨ s.md.st = .ready) :
    moduleFault s cause latch = enterSafe s cause latch [] := by
  rcases hst with hst | hst | hst <;> simp only [moduleFault, hst]

/-- Settles O39: the window leaves the module's own record as it was, and its fault then enters SAFE without a latch. -/
theorem slowFabricEntersSafe : Obligations.SlowFabricEntersSafe := by
  intro dt ratio s hrun hslow hst
  have hmd : (windowTaken ratio (advance s dt)).md = s.md := windowTaken_md _ _
  refine ⟨enterSafe (windowTaken ratio (advance s dt)) "F-PACE" false [], ?_, enterSafe_st _ _ _ _, enterSafe_cause _ _ _ _, ?_⟩
  · rw [exec_monitorWindowEnd_run dt ratio s hrun, if_pos hslow, moduleFault_in_operation _ _ (by rwa [hmd])]
  · rw [enterSafe_latch, Bool.or_false, hmd]

end Sys2Proof
end

section
/-! The start of a run: the first multiple of a grid at or after a tick, and what `beginRun` leaves of the deckle it starts. The
STATE packet of the change to RUNNING takes room in the trace FIFO alone, and the first TIMER start of the converters and KEEPER
touch no deckle. -/

namespace Sys2Proof.Machine

/-! ### The grid of R234 -/

theorem ceilTo_eq_ceilDiv_mul (t g : Nat) : ceilTo t g = t ⌈/⌉ g * g := by rw [ceilTo, Nat.ceilDiv_eq_add_pred_div]

theorem dvd_ceilTo (t g : Nat) : g ∣ ceilTo t g := Nat.dvd_mul_left _ _

theorem le_ceilTo {g : Nat} (t : Nat) (hg : 0 < g) : t ≤ ceilTo t g := by
  rw [ceilTo_eq_ceilDiv_mul, Nat.mul_comm]
  exact le_smul_ceilDiv hg

/-- No multiple of a grid from `t` on lies before `ceilTo t`. -/
theorem ceilTo_le {t g u : Nat} (hg : 0 < g) (hu : g ∣ u) (ht : t ≤ u) : ceilTo t g ≤ u := by
  obtain ⟨n, rfl⟩ := hu
  have hn : t ⌈/⌉ g ≤ n := (ceilDiv_le_iff_le_smul hg).mpr ht
  rw [ceilTo_eq_ceilDiv_mul, Nat.mul_comm]
  exact Nat.mul_le_mul_left g hn

/-! ### Trace packets -/

@[simp] theorem cntAdd_st (k : Deckle) (i n : Nat) : (cntAdd k i n).st = k.st := rfl
@[simp] theorem cntAdd_seq (k : Deckle) (i n : Nat) : (cntAdd k i n).seq = k.seq := rfl

@[simp] theorem fifoPut_st (k : Deckle) (p : Packet) : (fifoPut k p).st = k.st := by unfold fifoPut; split <;> rfl
@[simp] theorem fifoPut_seq (k : Deckle) (p : Packet) : (fifoPut k p).seq = k.seq := by unfold fifoPut; split <;> rfl

@[simp] theorem putTime_st (d t : Nat) (k : Deckle) : (putTime d t k).st = k.st := by simp [putTime]
@[simp] theorem putTime_seq (d t : Nat) (k : Deckle) : (putTime d t k).seq = k.seq := by simp [putTime]

@[simp] theorem streamPut_st (s : State) (d ty : Nat) (b : List Nat) : (getDk (streamPut s d ty b) d).st = (getDk s d).st := by
  rw [streamPut, getDk_modDk_same, fifoPut_st]
  split
  · exact putTime_st _ _ _
  · rfl

@[simp] theorem streamPut_seq (s : State) (d ty : Nat) (b : List Nat) : (getDk (streamPut s d ty b) d).seq = (getDk s d).seq := by
  rw [streamPut, getDk_modDk_same, fifoPut_seq]
  split
  · exact putTime_seq _ _ _
  · rfl

@[simp] theorem traceState_st (s : State) (d : Nat) : (getDk (traceState s d) d).st = (getDk s d).st := by
  simp only [traceState]; split <;> simp

@[simp] theorem traceState_seq (s : State) (d : Nat) : (getDk (traceState s d) d).seq = (getDk s d).seq := by
  simp only [traceState]; split <;> simp

/-! ### A change of deckle state -/

@[simp] theorem setSt_st (s : State) (d : Nat) (x : DkState) : (getDk (setSt s d x) d).st = x := by simp [setSt]

@[simp] theorem setSt_seq (s : State) (d : Nat) (x : DkState) : (getDk (setSt s d x) d).seq = (getDk s d).seq := by simp [setSt]

/-! ### Outputs and converters -/

@[simp] theorem keep_dk (s : State) : (keep s).dk = s.dk := by
  unfold keep
  split
  · split <;> rfl
  · rfl

@[simp] theorem getDk_keep (s : State) (d : Nat) : getDk (keep s) d = getDk s d := by simp [getDk]

@[simp] theorem startTimers_dk (s : State) (d start : Nat) : (startTimers s d start).dk = s.dk :=
  foldl_keeps (g := State.dk) (fun s n => by split <;> simp) _ _

@[simp] theorem getDk_startTimers (s : State) (d start n : Nat) : getDk (startTimers s d start) n = getDk s n := by simp [getDk]

/-! ### The start of a run -/

@[simp] theorem beginRun_st (s : State) (d start : Nat) (trig : Option Nat) : (getDk (beginRun s d start trig) d).st = .running := by
  simp [beginRun]

@[simp] theorem beginRun_seq (s : State) (d start : Nat) (trig : Option Nat) :
    (getDk (beginRun s d start trig) d).seq = { (getDk s d).seq with start := start, started := true, trigAt := trig } := by
  simp [beginRun]

end Sys2Proof.Machine
end

section
/-! RUN and TRIG (R234): what their bodies answer for an ARMED deckle, and the tick at which sheet 0 or the stamp then lies. -/

namespace Sys2Proof

open Machine

variable {s : State} {d : Nat}

theorem exec_run (h : Hdr) (s : State) :
    exec (.run h) s = noram s (.run h) (tenantForm "RUN") h (fun s => runNow s (myDk s h) (runTick s)) := rfl

theorem exec_trig (h : Hdr) (s : State) :
    exec (.trig h) s = noram s (.trig h) (tenantForm "TRIG") h (fun s => trigNow s (myDk s h) (runTick s)) := rfl

/-- A deckle in one of the states that a command allows passes its check. -/
theorem inSt_ok {k : Deckle} {l : List DkState} (hst : k.st ∈ l) : inSt k l = .ok ⟨⟩ :=
  need_ok _ _ (List.contains_iff_mem.mpr hst)

/-- An ARMED deckle begins its run with sheet 0 at the tick given. -/
theorem runNow_armed (harm : (getDk s d).st = .armed) (t : Nat) :
    runNow s d t = .ok (beginRun s d (t * 1024) none, .now [] [w "OK", w "RUN", dTok d]) := by
  rw [runNow, inSt_ok (by simp [harm]), res_bind_ok, ok]

/-- An ARMED deckle whose trigger is its own begins its run with the stamp at the tick given, and counts the trigger. -/
theorem trigNow_armed (harm : (getDk s d).st = .armed) (hown : cmdGroup s (getDk s d) = none) (t : Nat) :
    trigNow s d t =
      .ok (incr (beginRun s d ((t + 35) * 1024) (some (t * 1024))) d 25, .now [] [w "OK", w "TRIG", dTok d]) := by
  rw [trigNow, inSt_ok (by simp [harm]), res_bind_ok, hown]
  rfl

section
variable {h : Hdr} (harm : (getDk (begun h s) (myDk (begun h s) h)).st = .armed)
include harm

/-- RUN of an ARMED deckle begins its run with sheet 0 at `runTick`. -/
theorem run_replies_armed :
    Replies (.run h) (tenantForm "RUN") h s (beginRun (begun h s) (myDk (begun h s) h) (runTick (begun h s) * 1024) none) []
      [w "OK", w "RUN", dTok (myDk (begun h s) h)] := by
  intro hA
  rw [exec_run]
  exact noram_now hA (runNow_armed harm _)

/-- TRIG of an ARMED deckle whose trigger is its own begins its run with the stamp at `runTick`. -/
theorem trig_replies_armed (hown : cmdGroup (begun h s) (getDk (begun h s) (myDk (begun h s) h)) = none) :
    Replies (.trig h) (tenantForm "TRIG") h s
      (incr (beginRun (begun h s) (myDk (begun h s) h) ((runTick (begun h s) + 35) * 1024) (some (runTick (begun h s) * 1024)))
        (myDk (begun h s) h) 25) []
      [w "OK", w "TRIG", dTok (myDk (begun h s) h)] := by
  intro hA
  rw [exec_trig]
  exact noram_now hA (trigNow_armed harm hown _)

end

/-- Settles O40: both commands act at `runTick`, the first point of the grid 2,500 ticks after execution, and the run that they
begin there leaves its instant in the sequencer of the deckle. That the deckle is RUNNING at once is log 82. -/
theorem runAndTrigActAtTheFirstMultipleOf1250 : Obligations.RunAndTrigActAtTheFirstMultipleOf1250 := by
  rintro h s _ _ rfl rfl harm hown
  refine ⟨runTick (begun h s), _, _, ?onGrid, ?ahead, ?first, run_replies_armed harm, ?running, ?sheet0,
    trig_replies_armed harm hown, ?triggered, ?stamp⟩
  case onGrid => exact Nat.mod_eq_zero_of_dvd (dvd_ceilTo _ _)
  case ahead => exact le_ceilTo _ (by decide)
  case first => exact fun u hu ht => ceilTo_le (by decide) (Nat.dvd_of_mod_eq_zero hu) ht
  case running => exact beginRun_st _ _ _ _
  case sheet0 => rw [beginRun_seq]
  case triggered => rw [getDk_incr_same, cntAdd_st, beginRun_st]
  case stamp => rw [getDk_incr_same, cntAdd_seq, beginRun_seq]

end Sys2Proof
end

section
/-! A stock op: what the end of an op leaves of the thread, and what the event of an op answers for a thread that stands at it. -/

namespace Sys2Proof.Machine

/-! ### Counters, trace packets and steps leave the thread as it is -/

@[simp] theorem cntAdd_thr (k : Deckle) (i n : Nat) : (cntAdd k i n).thr = k.thr := rfl
@[simp] theorem cntMax_thr (k : Deckle) (i n : Nat) : (cntMax k i n).thr = k.thr := rfl

@[simp] theorem fifoPut_thr (k : Deckle) (p : Packet) : (fifoPut k p).thr = k.thr := by unfold fifoPut; split <;> rfl

@[simp] theorem putTime_thr (d t : Nat) (k : Deckle) : (putTime d t k).thr = k.thr := by simp [putTime]

@[simp] theorem streamPut_thr (s : State) (d ty : Nat) (b : List Nat) : (getDk (streamPut s d ty b) d).thr = (getDk s d).thr := by
  rw [streamPut, getDk_modDk_same, fifoPut_thr]
  split
  · exact putTime_thr _ _ _
  · rfl

@[simp] theorem traceRoutine_thr (s : State) (d id op steps : Nat) : (getDk (traceRoutine s d id op steps) d).thr = (getDk s d).thr := by
  unfold traceRoutine; split <;> simp

@[simp] theorem stepsRun_thr (s : State) (d n : Nat) : (getDk (stepsRun s d n) d).thr = (getDk s d).thr := by simp [stepsRun]

/-! ### The end of an op -/

@[simp] theorem scratch_ip (s : State) (d : Nat) : (getDk (scratch s d) d).thr.ip = (getDk s d).thr.ip :=
  foldl_keeps (g := fun s => (getDk s d).thr.ip) (fun s r => by simp) _ _

@[simp] theorem scratch_os (s : State) (d : Nat) : (getDk (scratch s d) d).thr.os = (getDk s d).thr.os :=
  foldl_keeps (g := fun s => (getDk s d).thr.os) (fun s r => by simp) _ _

@[simp] theorem goOp_ip (s : State) (d next : Nat) : (getDk (goOp s d next) d).thr.ip = next := by simp [goOp]
@[simp] theorem goOp_os (s : State) (d next : Nat) : (getDk (goOp s d next) d).thr.os = (getDk s d).thr.os := by simp [goOp]

@[simp] theorem opEnd_ip (s : State) (d code steps next : Nat) : (getDk (opEnd s d code steps next) d).thr.ip = next := by
  simp [opEnd]

@[simp] theorem opEnd_os (s : State) (d code steps next : Nat) :
    (getDk (opEnd s d code steps next) d).thr.os = (getDk s d).thr.os := by
  simp [opEnd]

end Sys2Proof.Machine
end

section
/-! CALL, RET and JUMP (R265): the state in which the event of each ends, for a thread that stands at the op. -/

namespace Sys2Proof

open Machine

variable {dt : Nat} {d : Fin 8} {s : State} {o : Op}

/-- The event of a stock op runs its body for a thread that stands at such an op. -/
theorem stockOp_atOp (hat : AtOp dt d s o) {isOp : Nat → Bool} (hop : isOp o.code = true) (body : State → Deckle → Op → State) :
    stockOp dt d s isOp body = .next (body (advance s dt) (getDk s d) o) := by
  obtain ⟨hrun, hstock, hfetch⟩ := hat
  simp [stockOp, hrun, hstock, hfetch, hop]

/-- The call made: where to return to is on the op stack, with the op loop depth there, and the deepest stack is counted. -/
def callPushed (s : State) (d : Nat) : State :=
  modDk (modThr s d (fun t => { t with os := (t.ip + 1, t.depth) :: t.os })) d (fun k => cntMax k 15 k.thr.os.length)

@[simp] theorem callPushed_os (s : State) (d : Nat) :
    (getDk (callPushed s d) d).thr.os = ((getDk s d).thr.ip + 1, (getDk s d).thr.depth) :: (getDk s d).thr.os := by
  simp [callPushed]

/-- A CALL with room on the op stack pushes and goes to its target. -/
theorem exec_opCall_atOp (hat : AtOp dt d s o) (hcode : o.code = 0x23) (hroom : (getDk s d).thr.os.length < 16) :
    exec (.opCall dt d) s = .next (opEnd (callPushed (advance s dt) d) d 0x23 2 (o.b % 2 ^ 17)) := by
  change execOpCall dt d s = _
  rw [execOpCall, stockOp_atOp hat (decide_eq_true hcode), if_neg (Nat.not_le_of_lt hroom)]
  rfl

/-- A RET with an entry on the op stack pops it and goes there. -/
theorem exec_opRet_atOp {r e : Nat} {l : List (Nat × Nat)} (hat : AtOp dt d s o) (hcode : o.code = 0x24)
    (hos : (getDk s d).thr.os = (r, e) :: l) :
    exec (.opRet dt d) s = .next (opEnd (modThr (advance s dt) d (fun t => { t with os := l })) d 0x24 2 r) := by
  change execOpRet dt d s = _
  rw [execOpRet, stockOp_atOp hat (decide_eq_true hcode)]
  simp only [hos]

/-- A JUMP goes to its target. -/
theorem exec_opJump_atOp (hat : AtOp dt d s o) (hcode : o.code = 0x22) :
    exec (.opJump dt d) s = .next (opEnd (advance s dt) d 0x22 1 (o.b % 2 ^ 17)) := by
  change execOpJump dt d s = _
  rw [execOpJump, stockOp_atOp hat (decide_eq_true hcode)]

/-- Settles O46: each of the three ends by `opEnd`, which sets the program counter and leaves the op stack as the op has made it. -/
theorem callRetAndJumpFollowTheOpStack : Obligations.CallRetAndJumpFollowTheOpStack := by
  refine ⟨?call, ?ret, ?jump⟩
  case call =>
    intro dt d s o hat hcode hroom
    exact ⟨_, exec_opCall_atOp hat hcode hroom, opEnd_ip _ _ _ _ _, by rw [opEnd_os, callPushed_os, getDk_advance]⟩
  case ret =>
    intro dt d s o r e l hat hcode hos
    exact ⟨_, exec_opRet_atOp hat hcode hos, opEnd_ip _ _ _ _ _, by rw [opEnd_os, getDk_modThr_same]⟩
  case jump =>
    intro dt d s o hat hcode
    exact ⟨_, exec_opJump_atOp hat hcode, opEnd_ip _ _ _ _ _, by rw [opEnd_os, getDk_advance]⟩

end Sys2Proof
end

section
/-! The first sheet of a write that is at fault (R255): what fault a sheet word has, and which of several words is reported. -/

namespace Sys2Proof.Machine

variable {k : Deckle} {x i c : Nat}

theorem numbered_eq_zipIdx (l : List α) (p : Nat) : numbered p l = (l.zipIdx p).map Prod.swap := by
  induction l generalizing p with
  | nil => rfl
  | cons y l ih => rw [numbered, ih, List.zipIdx_cons, List.map_cons, Prod.swap_prod_mk]

theorem numbered_append (p : Nat) (a b : List α) : numbered p (a ++ b) = numbered p a ++ numbered (p + a.length) b := by
  simp only [numbered_eq_zipIdx, List.zipIdx_append, List.map_append]

theorem getElem?_numbered_zero (l : List α) (i : Nat) : (numbered 0 l)[i]? = l[i]?.map (fun y => (i, y)) := by
  rw [numbered_eq_zipIdx, List.getElem?_map, List.getElem?_zipIdx, Option.map_map, Nat.zero_add]
  rfl

theorem fst_getElem_numbered_zero (l : List α) (i : Nat) (hi : i < (numbered 0 l).length) : (numbered 0 l)[i].1 = i := by
  simp [numbered_eq_zipIdx]

theorem mem_numbered_zero {l : List α} {e : Nat × α} : e ∈ numbered 0 l ↔ l[e.1]? = some e.2 := by
  rw [numbered_eq_zipIdx, ← Prod.swap_swap e, List.mem_map_of_injective Prod.swap_injective, List.mem_zipIdx_iff_getElem?,
    Prod.swap_swap]
  rfl

/-! ### One sheet word -/

/-- No granted pin carries a reserved code. -/
def CodesDefined (k : Deckle) (x : Nat) : Prop := ∀ i < k.grant.ch.length, sheetCode x i ≤ 10

/-- Pin `i`, on channel `c`, is the first with a reserved code. -/
structure FirstReserved (k : Deckle) (x i c : Nat) : Prop where
  pin : k.grant.ch[i]? = some c
  before : ∀ j < i, sheetCode x j ≤ 10
  code : 10 < sheetCode x i

/-- A sheet word has a first reserved code where its codes are not all defined. -/
theorem exists_firstReserved (hbad : ¬ CodesDefined k x) : ∃ i c, FirstReserved k x i c := by
  have hex : ∃ i, i < k.grant.ch.length ∧ 10 < sheetCode x i := by simpa [CodesDefined] using hbad
  obtain ⟨hi, hcode⟩ := Nat.find_spec hex
  refine ⟨Nat.find hex, _, List.getElem?_eq_getElem hi, fun j hj => ?_, hcode⟩
  exact Nat.le_of_not_lt fun hcj => Nat.find_min hex hj ⟨hj.trans hi, hcj⟩

/-- A first reserved code is the fault of its sheet word. -/
theorem sheetFault_of_firstReserved (h : FirstReserved k x i c) : sheetFault k x = some (kv "PIN" (unitName .ch c)) := by
  have hfind : (numbered 0 k.grant.ch).find? (fun e => 10 < sheetCode x e.1) = some (i, c) := by
    have hget : (numbered 0 k.grant.ch)[i]? = some (i, c) := by rw [getElem?_numbered_zero, h.pin, Option.map_some]
    obtain ⟨hi, hget⟩ := List.getElem?_eq_some_iff.mp hget
    refine List.find?_eq_some_iff_getElem.mpr ⟨decide_eq_true h.code, i, hi, hget, fun j hj => ?_⟩
    simp [fst_getElem_numbered_zero, h.before j hj]
  simp only [sheetFault, hfind]

/-- Without a reserved code, the filler bits decide. -/
theorem sheetFault_of_codesDefined (hok : CodesDefined k x) :
    sheetFault k x = if x < 2 ^ (4 * k.grant.ch.length + 8) then none else some (w "FILL") := by
  have hfind : (numbered 0 k.grant.ch).find? (fun e => 10 < sheetCode x e.1) = none := by
    refine List.find?_eq_none.mpr fun e he => ?_
    obtain ⟨hlt, -⟩ := List.getElem?_eq_some_iff.mp (mem_numbered_zero.mp he)
    simpa using hok e.1 hlt
  simp only [sheetFault, hfind]

/-- A sheet word has no fault exactly when its codes are defined and its filler bits are zero. -/
theorem sheetFault_eq_none_iff : sheetFault k x = none ↔ CodesDefined k x ∧ x < 2 ^ (4 * k.grant.ch.length + 8) := by
  by_cases hok : CodesDefined k x
  · simp [sheetFault_of_codesDefined hok, hok]
  · obtain ⟨i, c, hfirst⟩ := exists_firstReserved hok
    simp [sheetFault_of_firstReserved hfirst, hok]

/-! ### Several sheet words -/

/-- The first word at fault is reported, at its quire and sheet. -/
theorem quiresFault_first {a b : List Nat} {why : Tok} (ha : ∀ y ∈ a, sheetFault k y = none) (hx : sheetFault k x = some why) (pa : Nat) :
    quiresFault k pa (a ++ x :: b) = some (e417 (pa + a.length / 32) (a.length % 32) why) := by
  have hnone : (numbered 0 a).filterMap
      (fun e => (sheetFault k e.2).map (fun why => e417 (pa + e.1 / 32) (e.1 % 32) why)) = [] := by
    refine List.filterMap_eq_nil_iff.mpr fun e he => ?_
    rw [ha _ (List.mem_of_getElem? (mem_numbered_zero.mp he)), Option.map_none]
  rw [quiresFault, numbered_append, List.filterMap_append, hnone, List.nil_append, numbered, Nat.zero_add]
  simp [hx]

end Sys2Proof.Machine
end

section
/-! DATA SHEETS with a sheet word at fault (R255): its body answers E417 and takes nothing of the block. -/

namespace Sys2Proof

open Machine

variable {h : Hdr} {pa n : Nat} {p : List Nat} {s : State}

/-- A command line with a block that is refused by its command. -/
theorem noramBlk_refused {c : Instr} {f : Form} {b : Blk} {pre : State → Res Unit} {body : List Nat → Body} {e : Line}
    (hA : AcceptsBlk f h b s) (hB : BlkIs h b s p) (hpre : pre (begunBlk h b s) = .ok ⟨⟩)
    (hb : body p (begunBlk h b s) = .error e) (h37 : e.head? ≠ some (w "E437")) :
    noramBlk s c f h b pre body = .next (replied h (blkText b) (begunBlk h b s) (begunBlk h b s) [] e) := by
  obtain ⟨go, hgo, he⟩ := noramBlk_start (c := c) (body := body) hA hB hpre
  rw [he, start_refused _ _ _ _ _ _ e hA.fresh rfl (by rw [hA.pass, res_bind_ok, hgo, hb]), errNote_other _ e h37]

theorem e417_head? (pa i : Nat) (why : Tok) : (e417 pa i why).head? ≠ some (w "E437") := by
  change some (w "E417") ≠ some (w "E437")
  decide

/-- What DATA SHEETS checks before its block is read. -/
def dataSheetsPre (h : Hdr) (pa n : Nat) : State → Res Unit := fun s =>
  let k := getDk s (myDk s h)
  quireRange k k.editing 3 pa n

/-- What DATA SHEETS does with the payload of its block. -/
def dataSheetsBody (h : Hdr) (pa n : Nat) (p : List Nat) : Body := fun s => do
  let d := myDk s h
  let k := getDk s d
  quiresHeld k k.editing pa n
  need (p.length = n * (4 * k.width)) e415
  notProgram k k.editing pa n
  let xs := splitNums (k.width / 8) p.length p
  match quiresFault k pa xs with | some e => .error e | none => pure ⟨⟩
  let (s, t) ← putSheets s d "DATA-SHEETS" (32 * pa) xs
  ok s ([w "OK", w "DATA", w "SHEETS", dTok d, kn "PA" pa, kn "N" n] ++ t)

theorem exec_dataSheets (h : Hdr) (pa n : Nat) (blk : Blk) (s : State) :
    exec (.dataSheets h pa n blk) s =
      noramBlk s (.dataSheets h pa n blk) (tenantForm "DATA") h blk (dataSheetsPre h pa n) (dataSheetsBody h pa n) := rfl

/-- Sheet words of which one is at fault are answered with the error line of the first. -/
theorem dataSheetsBody_fault {k : Deckle} {e : Line} (hk : getDk s (myDk s h) = k) (hheld : quiresHeld k k.editing pa n = .ok ())
    (hlen : p.length = n * (4 * k.width)) (hprog : notProgram k k.editing pa n = .ok ())
    (hfault : quiresFault k pa (splitNums (k.width / 8) p.length p) = some e) : dataSheetsBody h pa n p s = .error e := by
  subst hk
  simp only [dataSheetsBody, hheld, need_ok _ _ (decide_eq_true hlen), hprog, hfault, res_bind_ok, res_bind_error]

/-- Settles O50: the body of an accepted write answers E417 with the first word at fault, and a word is at fault by a reserved code
of a pin or, without one, by a filler bit. That the first word, and in it the first pin, is the one named, and a pin before FILL,
is the model's reading of R255. -/
theorem aBadSheetRefusesTheWholeWrite : Obligations.ABadSheetRefusesTheWholeWrite := by
  refine ⟨?refused, ?atFault, ?filler, ?pin⟩
  case refused =>
    rintro h pa n blk s _ _ p a x b why hB rfl rfl hrange hheld hlen hprog hsplit ha hx hA
    have hfault := quiresFault_first (b := b) ha hx pa
    rw [← hsplit] at hfault
    rw [exec_dataSheets]
    exact noramBlk_refused hA hB hrange (dataSheetsBody_fault rfl hheld hlen hprog hfault) (e417_head? _ _ _)
  case atFault => exact fun k x => sheetFault_eq_none_iff
  case filler =>
    intro k x why hwhy hok
    rw [sheetFault_of_codesDefined hok] at hwhy
    split at hwhy
    · cases hwhy
    · exact (Option.some.inj hwhy).symm
  case pin => exact fun k x i c _ hbefore hcode hpin => sheetFault_of_firstReserved ⟨hpin, hbefore, hcode⟩

end Sys2Proof
end

section
/-! What an access to a bank and an event of a deckle leave of each deckle's results and event queue, and of the vat. -/

namespace Sys2Proof.Machine

/-! ### Banks -/

/-- What an update keeps of its deckle, it keeps of every deckle. -/
theorem getDk_modDk_keeps {g : Deckle → β} {f : Deckle → Deckle} (hf : ∀ k, g (f k) = g k) (s : State) {e : Nat} (d : Nat) :
    g (getDk (modDk s e f) d) = g (getDk s d) := by
  by_cases hd : d = e
  · rw [hd, getDk_modDk_same, hf]
  · rw [getDk_modDk_other _ _ _ _ hd]

section
variable {g : Deckle → β} (hg : ∀ k w a h, g { k with work := w, act := a, shad := h } = g k)
include hg

/-- What does not depend on the furnishes of a deckle, a bank whose loaded op goes keeps. -/
theorem unload_keeps (s : State) (b d : Nat) : g (getDk (unload s b) d) = g (getDk s d) := by
  unfold unload
  split
  · exact getDk_modDk_keeps (fun k => hg k _ _ _) s d
  · rfl

/-- Of the deckles, a bank that is woken changes the furnishes alone, where it comes up from OFF. -/
theorem wakeBank_keeps (s : State) (b d : Nat) : g (getDk (wakeBank s b) d) = g (getDk s d) := by
  simp only [wakeBank]
  split
  · rfl
  · split
    · rfl
    · rfl
    · exact unload_keeps hg s b d

end

@[simp] theorem wakeBank_res (s : State) (b d : Nat) : (getDk (wakeBank s b) d).res = (getDk s d).res :=
  wakeBank_keeps (g := Deckle.res) (fun _ _ _ _ => rfl) s b d

@[simp] theorem wakeBank_evq (s : State) (b d : Nat) : (getDk (wakeBank s b) d).evq = (getDk s d).evq :=
  wakeBank_keeps (g := Deckle.evq) (fun _ _ _ _ => rfl) s b d

@[simp] theorem putBank_vat (s : State) (b o : Nat) (l : List (BitVec 8)) : (putBank s b o l).vat = mput s.vat (bankBase b + o) l := rfl

@[simp] theorem getDk_putBank (s : State) (b o : Nat) (l : List (BitVec 8)) (d : Nat) : getDk (putBank s b o l) d = getDk s d := rfl

/-- Two updates of the results that agree on the results at hand are one. -/
theorem modRes_congr {s : State} {d : Nat} {f g : Results → Results} (h : f (getDk s d).res = g (getDk s d).res) :
    modRes s d f = modRes s d g := by
  simp only [modRes, modDk, h]

/-! ### Events -/

@[simp] theorem evtRaise_vat (s : State) (x : MapSrc) (c : EvClass) : (evtRaise s x c).vat = s.vat :=
  foldl_keeps (g := State.vat) (fun s n => by dsimp only; split <;> rfl) _ _

@[simp] theorem evtRaise_dk (s : State) (x : MapSrc) (c : EvClass) : (evtRaise s x c).dk = s.dk :=
  foldl_keeps (g := State.dk) (fun s n => by dsimp only; split <;> rfl) _ _

@[simp] theorem getDk_evtRaise (s : State) (x : MapSrc) (c : EvClass) (d : Nat) : getDk (evtRaise s x c) d = getDk s d := by
  simp [getDk]

@[simp] theorem cntAdd_res (k : Deckle) (i n : Nat) : (cntAdd k i n).res = k.res := rfl
@[simp] theorem cntAdd_evq (k : Deckle) (i n : Nat) : (cntAdd k i n).evq = k.evq := rfl

@[simp] theorem queueEv_vat (s : State) (d : Nat) (own : Bool) (c : EvClass) (t : Line) : (queueEv s d own c t).vat = s.vat := rfl

@[simp] theorem queueEv_res (s : State) (d : Nat) (own : Bool) (c : EvClass) (t : Line) :
    (getDk (queueEv s d own c t) d).res = (getDk s d).res := by
  rw [queueEv, getDk_modDk_same]
  dsimp only
  split <;> split <;> rfl

@[simp] theorem queueEv_evq (s : State) (d : Nat) (own : Bool) (c : EvClass) (t : Line) :
    (getDk (queueEv s d own c t) d).evq = (enqueue 256 (getDk s d).evq c t).1 := by
  rw [queueEv, getDk_modDk_same]
  dsimp only
  split <;> split <;> rfl

@[simp] theorem event_vat (s : State) (d : Nat) (c : EvClass) (t : Line) : (event s d c t).vat = s.vat := by simp [event]

@[simp] theorem event_res (s : State) (d : Nat) (c : EvClass) (t : Line) : (getDk (event s d c t) d).res = (getDk s d).res := by
  simp [event]

@[simp] theorem event_evq (s : State) (d : Nat) (c : EvClass) (t : Line) :
    (getDk (event s d c t) d).evq = (enqueue 256 (getDk s d).evq c (evLine c d t)).1 := by
  simp [event]

end Sys2Proof.Machine
end

section
/-! The drain of a broke record (R382), in its three parts: the record is taken from the queue, stored at the next slot where there
is one, and the log is told full where it fills or wraps. -/

namespace Sys2Proof.Machine

variable {s : State} {d b : Nat} {r : BrokeRec} {rest : List BrokeRec}

/-- The bank awake and the oldest record taken from the queue. -/
def recordTaken (s : State) (d b : Nat) (rest : List BrokeRec) : State := modRes (wakeBank s b) d (fun x => { x with bq := rest })

/-- The slot that the next record goes to: the write position while the bank has a slot there, then none in FIRST and 1 in LAST. -/
def nextSlot (m : LogMode) (pos : Nat) : Option Nat :=
  if pos < 16384 then some pos else match m with | .first => none | .last => some 1

/-- The log fills (FIRST) or wraps (LAST) with the record at a write position. -/
abbrev FillsOrWraps (m : LogMode) (pos : Nat) : Prop := m = .first ∧ pos = 16383 ∨ m = .last ∧ 16384 ≤ pos

/-- A record as it is stored from a write position: FULL where it fills a log in FIRST. -/
def markFull (m : LogMode) (pos : Nat) (r : BrokeRec) : BrokeRec := if m = .first ∧ pos = 16383 then { r with kind := 0xE } else r

/-- A record stored at a slot of the broke bank, the write position after it; without a slot, nothing is stored. -/
def storeRecord (s : State) (d b : Nat) (r : BrokeRec) : Option Nat → State
  | some i => modRes (putBank s b (64 * i) r.bytes) d (fun x => { x with bpos := i + 1, brec := x.brec + 1 })
  | none => s

/-- The log is full: the tenant is told so, unless the run has been told before. -/
def tellFull (s : State) (d index : Nat) (told : Bool) : State :=
  if told then s
  else event (modRes s d (fun x => { x with bfull := true })) d .limit [w "BROKE-FULL", kn "INDEX" index]

/-! ### The next slot -/

theorem nextSlot_of_lt {pos : Nat} (m : LogMode) (h : pos < 16384) : nextSlot m pos = some pos := if_pos h

theorem nextSlot_first {pos : Nat} (h : 16384 ≤ pos) : nextSlot .first pos = none := if_neg h.not_gt

theorem nextSlot_last {pos : Nat} (h : 16384 ≤ pos) : nextSlot .last pos = some 1 := if_neg h.not_gt

@[simp] theorem fillsOrWraps_first {pos : Nat} : FillsOrWraps .first pos ↔ pos = 16383 := by simp [FillsOrWraps]
@[simp] theorem fillsOrWraps_last {pos : Nat} : FillsOrWraps .last pos ↔ 16384 ≤ pos := by simp [FillsOrWraps]

theorem not_fillsOrWraps_of_lt {pos : Nat} (m : LogMode) (h : pos < 16383) : ¬ FillsOrWraps m pos := by
  rintro (⟨-, hpos⟩ | ⟨-, hpos⟩) <;> omega

theorem markFull_first_last_slot (r : BrokeRec) : markFull .first 16383 r = { r with kind := 0xE } := rfl

theorem markFull_of_ne {pos : Nat} (m : LogMode) (r : BrokeRec) (h : pos ≠ 16383) : markFull m pos r = r := if_neg fun hf => h hf.2

theorem markFull_last (pos : Nat) (r : BrokeRec) : markFull .last pos r = r := if_neg (by simp)

/-! ### The record taken -/

@[simp] theorem recordTaken_vat (s : State) (d b : Nat) (rest : List BrokeRec) : (recordTaken s d b rest).vat = (wakeBank s b).vat := rfl

@[simp] theorem recordTaken_res (s : State) (d b : Nat) (rest : List BrokeRec) :
    (getDk (recordTaken s d b rest) d).res = { (getDk s d).res with bq := rest } := by
  simp [recordTaken]

@[simp] theorem recordTaken_evq (s : State) (d b : Nat) (rest : List BrokeRec) :
    (getDk (recordTaken s d b rest) d).evq = (getDk s d).evq := by
  simp [recordTaken]

/-! ### The record stored -/

@[simp] theorem storeRecord_some_vat (s : State) (d b : Nat) (r : BrokeRec) (i : Nat) :
    (storeRecord s d b r (some i)).vat = mput s.vat (bankBase b + 64 * i) r.bytes := rfl

@[simp] theorem storeRecord_some_bpos (s : State) (d b : Nat) (r : BrokeRec) (i : Nat) :
    (getDk (storeRecord s d b r (some i)) d).res.bpos = i + 1 := by
  simp [storeRecord]

@[simp] theorem storeRecord_none (s : State) (d b : Nat) (r : BrokeRec) : storeRecord s d b r none = s := rfl

@[simp] theorem storeRecord_bq (s : State) (d b : Nat) (r : BrokeRec) (o : Option Nat) :
    (getDk (storeRecord s d b r o) d).res.bq = (getDk s d).res.bq := by
  cases o <;> simp [storeRecord]

@[simp] theorem storeRecord_bfull (s : State) (d b : Nat) (r : BrokeRec) (o : Option Nat) :
    (getDk (storeRecord s d b r o) d).res.bfull = (getDk s d).res.bfull := by
  cases o <;> simp [storeRecord]

@[simp] theorem storeRecord_evq (s : State) (d b : Nat) (r : BrokeRec) (o : Option Nat) :
    (getDk (storeRecord s d b r o) d).evq = (getDk s d).evq := by
  cases o <;> simp [storeRecord]

/-! ### The log told full -/

@[simp] theorem tellFull_vat (s : State) (d i : Nat) (told : Bool) : (tellFull s d i told).vat = s.vat := by
  cases told <;> simp [tellFull]

@[simp] theorem tellFull_bq (s : State) (d i : Nat) (told : Bool) : (getDk (tellFull s d i told) d).res.bq = (getDk s d).res.bq := by
  cases told <;> simp [tellFull]

@[simp] theorem tellFull_bpos (s : State) (d i : Nat) (told : Bool) :
    (getDk (tellFull s d i told) d).res.bpos = (getDk s d).res.bpos := by
  cases told <;> simp [tellFull]

/-- Once told, the log of the run is full, whether it is told now or was told before. -/
theorem tellFull_bfull {told : Bool} (i : Nat) (htold : (getDk s d).res.bfull = told) :
    (getDk (tellFull s d i told) d).res.bfull = true := by
  cases told <;> simp [tellFull, htold]

@[simp] theorem tellFull_evq (s : State) (d i : Nat) (told : Bool) :
    (getDk (tellFull s d i told) d).evq =
      if told then (getDk s d).evq
      else (enqueue 256 (getDk s d).evq .limit (evLine .limit d [w "BROKE-FULL", kn "INDEX" i])).1 := by
  cases told <;> simp [tellFull]

/-! ### The drain -/

/-- The record stored, before the log is told full. -/
def recordStored (s : State) (d b : Nat) (r : BrokeRec) (rest : List BrokeRec) : State :=
  let k := getDk s d
  storeRecord (recordTaken s d b rest) d b (markFull k.act.bmode k.res.bpos r) (nextSlot k.act.bmode k.res.bpos)

theorem recordStored_bq : (getDk (recordStored s d b r rest) d).res.bq = rest := by simp [recordStored]
theorem recordStored_bfull : (getDk (recordStored s d b r rest) d).res.bfull = (getDk s d).res.bfull := by simp [recordStored]
theorem recordStored_evq : (getDk (recordStored s d b r rest) d).evq = (getDk s d).evq := by simp [recordStored]

/-- A write position that stands at the slot of a record moves past it when it counts up by one. -/
theorem storeRecord_some_of_bpos {i : Nat} (hpos : (getDk s d).res.bpos = i) :
    modRes (putBank s b (64 * i) r.bytes) d (fun x => { x with bpos := x.bpos + 1, brec := x.brec + 1 }) =
      storeRecord s d b r (some i) := by
  subst hpos
  exact modRes_congr rfl

/-- The drain of a record into a bank stores it at its slot and tells the log full where it fills or wraps. -/
theorem drainBroke_eq (hq : (getDk s d).res.bq = r :: rest) (hb : (getDk s d).act.bbank = some b) :
    drainBroke s d =
      if FillsOrWraps (getDk s d).act.bmode (getDk s d).res.bpos then
        tellFull (recordStored s d b r rest) d r.index (getDk s d).res.bfull
      else recordStored s d b r rest := by
  have htaken : modRes (wakeBank s b) d (fun x => { x with bq := rest }) = recordTaken s d b rest := rfl
  have hpos : (getDk (recordTaken s d b rest) d).res.bpos = (getDk s d).res.bpos := by rw [recordTaken_res]
  simp only [drainBroke, hq, hb, htaken, recordStored]
  cases (getDk s d).act.bmode with
  | first =>
    rcases Nat.lt_trichotomy (getDk s d).res.bpos 16383 with hfree | hlast | hfull
    · have hroom : (getDk s d).res.bpos < 16384 := by omega
      simp [nextSlot_of_lt, markFull_of_ne, hroom, hroom.not_ge, hfree.ne, storeRecord_some_of_bpos hpos]
    · rw [hlast] at hpos
      simp [nextSlot_of_lt, markFull_first_last_slot, hlast, storeRecord_some_of_bpos hpos, tellFull]
    · have hnone : 16384 ≤ (getDk s d).res.bpos := hfull
      simp [nextSlot_first, hnone, hfull.ne']
  | last =>
    rcases Nat.lt_or_ge (getDk s d).res.bpos 16384 with hroom | hwrap
    · simp [nextSlot_of_lt, markFull_last, hroom, hroom.not_ge, storeRecord]
    · simp [nextSlot_last, markFull_last, hwrap, storeRecord, tellFull]

section
variable (hq : (getDk s d).res.bq = r :: rest) (hb : (getDk s d).act.bbank = some b)
include hq hb

theorem drainBroke_bq : (getDk (drainBroke s d) d).res.bq = rest := by
  rw [drainBroke_eq hq hb]
  split <;> simp [recordStored_bq]

/-- A record that has a slot is stored there and moves the write position past it. -/
theorem drainBroke_of_slot {i : Nat} (hslot : nextSlot (getDk s d).act.bmode (getDk s d).res.bpos = some i) :
    (drainBroke s d).vat = mput (wakeBank s b).vat (bankBase b + 64 * i)
        (markFull (getDk s d).act.bmode (getDk s d).res.bpos r).bytes ∧
      (getDk (drainBroke s d) d).res.bpos = i + 1 := by
  rw [drainBroke_eq hq hb]
  split <;> simp [recordStored, hslot]

/-- A record that has no slot leaves the bank and the write position. -/
theorem drainBroke_of_no_slot (hslot : nextSlot (getDk s d).act.bmode (getDk s d).res.bpos = none) :
    (drainBroke s d).vat = (wakeBank s b).vat ∧ (getDk (drainBroke s d) d).res.bpos = (getDk s d).res.bpos := by
  rw [drainBroke_eq hq hb]
  split <;> simp [recordStored, hslot]

/-- A record that neither fills nor wraps the log tells nothing. -/
theorem drainBroke_quiet (hquiet : ¬ FillsOrWraps (getDk s d).act.bmode (getDk s d).res.bpos) :
    (getDk (drainBroke s d) d).res.bfull = (getDk s d).res.bfull ∧ (getDk (drainBroke s d) d).evq = (getDk s d).evq := by
  rw [drainBroke_eq hq hb, if_neg hquiet]
  exact ⟨recordStored_bfull, recordStored_evq⟩

/-- A record that fills or wraps the log leaves it full, with the line queued that was not queued before. -/
theorem drainBroke_tells (htells : FillsOrWraps (getDk s d).act.bmode (getDk s d).res.bpos) :
    (getDk (drainBroke s d) d).res.bfull = true ∧
      (getDk (drainBroke s d) d).evq =
        if (getDk s d).res.bfull then (getDk s d).evq
        else (enqueue 256 (getDk s d).evq .limit (evLine .limit d [w "BROKE-FULL", kn "INDEX" r.index])).1 := by
  rw [drainBroke_eq hq hb, if_pos htells]
  exact ⟨tellFull_bfull _ recordStored_bfull, by rw [tellFull_evq, recordStored_evq]⟩

end

end Sys2Proof.Machine
end

section
/-! The broke log (R382): where an ARM begins it, and each drain of a record by the mode and the write position. -/

namespace Sys2Proof

open Machine

theorem exec_brokeDrain_record (dt : Nat) (d : Fin 8) (s : State) :
    exec (.brokeDrain dt d false) s = .next (drainBroke (advance s dt) d) := rfl

/-- An ARM begins with empty results. -/
theorem armBegin_res (s : State) (d : Nat) : (getDk (armBegin s d) d).res = {} := by
  simp only [armBegin, getDk_modDk_same]

/-- Settles O44: the next slot, by mode and write position, says where the record goes, and whether the log fills or wraps with it
says whether the tenant is told. -/
theorem brokeLogFillsOrWraps : Obligations.BrokeLogFillsOrWraps := by
  refine ⟨rfl, armBegin_res, rfl, rfl, fun _ _ => rfl, ?drain⟩
  rintro dt d s _ _ r rest b t rfl rfl hq hb hexec
  obtain rfl : drainBroke (advance s dt) d = t := by simpa [exec_brokeDrain_record] using hexec
  refine ⟨drainBroke_bq hq hb, ?free, ?fills, ?full, ?lastSlot, ?wraps, drainBroke_tells hq hb⟩
  case free =>
    intro hfree
    obtain ⟨hvat, hbpos⟩ := drainBroke_of_slot hq hb (nextSlot_of_lt _ (by omega))
    obtain ⟨hbfull, hevq⟩ := drainBroke_quiet hq hb (not_fillsOrWraps_of_lt _ hfree)
    rw [markFull_of_ne _ _ hfree.ne] at hvat
    exact ⟨hvat, hbpos, hbfull, hevq⟩
  case fills =>
    intro hm hpos
    obtain ⟨hvat, hbpos⟩ := drainBroke_of_slot (i := 16383) hq hb (by rw [hpos, nextSlot_of_lt _ (by decide)])
    rw [hm, hpos, markFull_first_last_slot] at hvat
    exact ⟨hvat, hbpos⟩
  case full =>
    intro hm hfull
    obtain ⟨hvat, hbpos⟩ := drainBroke_of_no_slot hq hb (by rw [hm, nextSlot_first hfull])
    obtain ⟨-, hevq⟩ := drainBroke_quiet hq hb (by rw [hm, fillsOrWraps_first]; omega)
    exact ⟨hvat, hbpos, hevq⟩
  case lastSlot =>
    intro hm hpos
    obtain ⟨hvat, hbpos⟩ := drainBroke_of_slot (i := 16383) hq hb (by rw [hpos, nextSlot_of_lt _ (by decide)])
    obtain ⟨-, hevq⟩ := drainBroke_quiet hq hb (by rw [hm, fillsOrWraps_last]; omega)
    rw [hm, markFull_last] at hvat
    exact ⟨hvat, hbpos, hevq⟩
  case wraps =>
    intro hm hwrap
    obtain ⟨hvat, hbpos⟩ := drainBroke_of_slot hq hb (by rw [hm, nextSlot_last hwrap])
    rw [hm, markFull_last] at hvat
    exact ⟨hvat, hbpos⟩

end Sys2Proof
end

section
/-! Start events of a generator (R455): what a start event does by the state of the generator, and that taking over a halt whose tick
has come (R457) does nothing more the second time. -/

namespace Sys2Proof.Machine

variable {a : Aux} {s : State} {n t u : Nat}

/-- A halt that a generator still knows at a tick lies ahead, or a start of the same tick is requested (R457, R469). -/
def HaltPending (t : Nat) (a : Aux) : Prop := ∀ h, a.halt = some h → h ≤ t → h ∈ a.starts

/-- A start tick joins the ticks requested of a generator, once. -/
def requestStart (t : Nat) (a : Aux) : Aux := if a.starts.contains t then a else { a with starts := a.starts ++ [t] }

/-- A generator without a halt whose tick has come stays as it is. -/
theorem auxSync_of_not_due (hahead : ∀ h, a.halt = some h → t < h) : auxSync t a = a := by
  unfold auxSync
  split
  · rename_i h hh
    exact if_neg (hahead h hh).not_ge
  · rfl

/-- A halt whose tick has come ends play, and stays known while a start of its tick is requested. -/
theorem auxSync_of_due (hh : a.halt = some u) (hu : u ≤ t) :
    auxSync t a = { (if a.st = .playing then auxStop a (a.cfg.fin = .zero) u else a) with
      halt := if a.starts.contains u then some u else none } := by
  simp only [auxSync, hh, if_pos hu]

/-- The halt that stays known after its tick is one of a requested start. -/
theorem auxSync_haltPending (t : Nat) (a : Aux) : HaltPending t (auxSync t a) := by
  by_cases hahead : ∀ h, a.halt = some h → t < h
  · rw [auxSync_of_not_due hahead]
    exact fun h hh hle => absurd hle (hahead h hh).not_ge
  · push Not at hahead
    obtain ⟨u, hu, hle⟩ := hahead
    have hstarts : (auxSync t a).starts = a.starts := by rw [auxSync_of_due hu hle]; split <;> rfl
    have hhalt : (auxSync t a).halt = if a.starts.contains u then some u else none := by rw [auxSync_of_due hu hle]
    intro h hh _
    rw [hhalt, Option.ite_none_right_eq_some, Option.some.injEq] at hh
    obtain ⟨hmem, rfl⟩ := hh
    rw [hstarts]
    exact List.contains_iff_mem.mp hmem

/-- A generator that does not play has nothing to take over from a halt that is still pending. -/
theorem auxSync_eq_self (hst : a.st ≠ .playing) (hp : HaltPending t a) : auxSync t a = a := by
  by_cases hahead : ∀ h, a.halt = some h → t < h
  · exact auxSync_of_not_due hahead
  · push Not at hahead
    obtain ⟨u, hu, hle⟩ := hahead
    rw [auxSync_of_due hu hle, if_neg hst, if_pos (List.contains_iff_mem.mpr (hp u hu hle)), ← hu]

@[simp] theorem requestStart_st (t : Nat) (a : Aux) : (requestStart t a).st = a.st := by unfold requestStart; split <;> rfl

@[simp] theorem requestStart_halt (t : Nat) (a : Aux) : (requestStart t a).halt = a.halt := by unfold requestStart; split <;> rfl

theorem mem_requestStart : u ∈ (requestStart t a).starts ↔ u ∈ a.starts ∨ u = t := by
  unfold requestStart
  split
  · rename_i ht
    rw [List.contains_iff_mem] at ht
    exact ⟨.inl, fun hu => hu.elim id (· ▸ ht)⟩
  · simp

theorem requestStart_haltPending (hp : HaltPending u a) : HaltPending u (requestStart t a) := by
  intro h hh hle
  rw [requestStart_halt] at hh
  exact mem_requestStart.mpr (.inl (hp h hh hle))

/-- A tick requested already is not requested again. -/
theorem requestStart_idem (t : Nat) (a : Aux) : requestStart t (requestStart t a) = requestStart t a :=
  if_pos (List.contains_iff_mem.mpr (mem_requestStart.mpr (.inr rfl)))

/-- A start event at a generator that plays or is frozen counts in MISSED. -/
theorem auxStartAt_of_busy (t : Nat) (ha : auxSync (now s) (getAux s n) = a) (hst : a.st = .playing ∨ a.st = .frozen) :
    auxStartAt s n t = setAux s n { a with missed := a.missed + 1 } := by
  rcases hst with hst | hst <;> simp only [auxStartAt, modAux, ha, hst]

/-- A start event at a generator that waits for one requests its tick. -/
theorem auxStartAt_of_waiting (t : Nat) (ha : auxSync (now s) (getAux s n) = a) (hst : a.st = .idle ∨ a.st = .ended) :
    auxStartAt s n t = setAux s n (requestStart t a) := by
  rcases hst with hst | hst <;> simp only [auxStartAt, modAux, ha, hst, requestStart]

/-- A second start event of the same tick finds a generator that waits for it, and leaves it as it is. -/
theorem getAux_auxStartAt_twice (ha : auxSync (now s) (getAux s n) = a) (hst : a.st = .idle ∨ a.st = .ended) :
    getAux (auxStartAt (auxStartAt s n t) n t) n = getAux (auxStartAt s n t) n := by
  have hp : HaltPending (now s) a := ha ▸ auxSync_haltPending _ _
  have hidle : (requestStart t a).st ≠ .playing := by rcases hst with hst | hst <;> simp [hst]
  have hsync : auxSync (now s) (requestStart t a) = requestStart t a := auxSync_eq_self hidle (requestStart_haltPending hp)
  have hfirst : getAux (auxStartAt s n t) n = requestStart t a := by rw [auxStartAt_of_waiting t ha hst, getAux_setAux_same]
  have hnow : now (auxStartAt s n t) = now s := rfl
  have hagain : auxSync (now (auxStartAt s n t)) (getAux (auxStartAt s n t) n) = requestStart t a := by rw [hnow, hfirst, hsync]
  rw [auxStartAt_of_waiting t hagain (by simpa using hst), getAux_setAux_same, requestStart_idem, hfirst]

end Sys2Proof.Machine
end

section
/-! AUX READ (R455, R463): what its body answers, MISSED among it. -/

namespace Sys2Proof

open Machine

variable {h : Hdr} {n d : Nat} {s : State}

/-- The line in which AUX READ reports a generator at a tick. -/
def auxReport (d n : Nat) (a : Aux) (t : Nat) : Line :=
  [w "OK", w "AUX", dTok d, uTok .aux n, kw "STATE" a.st.name, kn "ENTRY" a.ent, kv "SPAN" (spanAtoms a.cfg.span),
    kw "RELAY" (if a.relay then "CLOSED" else "OPEN"), kn "MISSED" a.missed, kt "TB" t]

/-- What AUX READ does once its line is accepted. -/
def auxReadBody (h : Hdr) (n : Nat) : Body := fun s => do
  let d ← ownUnit s h .aux n
  let r := modAux s n (auxSync (now s))
  ok r (auxReport d n (getAux r n) (now r))

theorem exec_auxRead (h : Hdr) (n : Nat) (s : State) :
    exec (.auxRead h n) s = noram s (.auxRead h n) (readForm "AUX") h (auxReadBody h n) := rfl

/-- A generator that the session may read is reported as it stands now. -/
theorem auxReadBody_own (hown : ownUnit s h .aux n = .ok d) :
    auxReadBody h n s = .ok (modAux s n (auxSync (now s)),
      .now [] (auxReport d n (getAux (modAux s n (auxSync (now s))) n) (now s))) := by
  rw [auxReadBody, hown, res_bind_ok]
  rfl

/-- Settles O47: a start event counts in MISSED or requests its tick by the state of the generator, a tick requested already is
requested no more, and the body of an accepted AUX READ reports MISSED. -/
theorem auxStartEventsWhileBusyAreCounted : Obligations.AuxStartEventsWhileBusyAreCounted := by
  refine ⟨?busy, ?twice, ?read⟩
  case busy => exact fun s n t a ha hst => auxStartAt_of_busy t ha hst
  case twice => exact fun s n t a ha hst => getAux_auxStartAt_twice ha hst
  case read =>
    rintro h n s _ d _ _ rfl hown rfl rfl hA
    rw [exec_auxRead]
    exact noram_now hA (auxReadBody_own hown)

end Sys2Proof
end

section
/-! The event queues (R526): what a line does to a queue with room and to a full one, and what events leave of the queues. -/

namespace Sys2Proof.Machine

variable {cap d : Nat} {q a b : List (EvClass × Line)} {e : EvClass × Line} {c : EvClass} {s : State}

/-! ### A line enters a queue -/

theorem dropFirst_eq_eraseP (p : α → Bool) (l : List α) : dropFirst p l = l.eraseP p := by
  induction l with
  | nil => rfl
  | cons x l ih => rw [dropFirst, List.eraseP_cons, ih]; cases p x <;> rfl

theorem enqueue_of_room (c : EvClass) (t : Line) (hroom : q.length < cap) : enqueue cap q c t = (q ++ [(c, t)], 0) := if_pos hroom

theorem enqueue_of_full (t : Line) (hfull : cap ≤ q.length) (hc : c ≠ .fault) : enqueue cap q c t = (q, 1) := by
  rw [enqueue, if_neg hfull.not_gt, if_neg hc]

theorem enqueue_fault_of_full (t : Line) (hfull : cap ≤ q.length) :
    enqueue cap q .fault t =
      ((if q.any (·.1 != .fault) then q.eraseP (·.1 != .fault) else q.drop 1) ++ [(.fault, t)], 1) := by
  rw [enqueue, if_neg hfull.not_gt, if_pos rfl, dropFirst_eq_eraseP]
  split <;> rfl

/-- The oldest line that is not a FAULT line gives way. -/
theorem enqueue_fault_displaces_other (t : Line) (hfull : cap ≤ (a ++ e :: b).length) (ha : ∀ x ∈ a, x.1 = EvClass.fault)
    (he : e.1 ≠ .fault) : enqueue cap (a ++ e :: b) .fault t = (a ++ b ++ [(.fault, t)], 1) := by
  have hany : (a ++ e :: b).any (·.1 != .fault) = true := by simp [he]
  have herase : (a ++ e :: b).eraseP (·.1 != .fault) = a ++ b := by
    rw [List.eraseP_append_right _ (by simpa using ha), List.eraseP_cons_of_pos (by simpa using he)]
  rw [enqueue_fault_of_full t hfull, if_pos hany, herase]

/-- Among FAULT lines alone the oldest gives way. -/
theorem enqueue_fault_displaces_oldest (t : Line) (hfull : cap ≤ (e :: b).length) (hall : ∀ x ∈ e :: b, x.1 = EvClass.fault) :
    enqueue cap (e :: b) .fault t = (b ++ [(.fault, t)], 1) := by
  have hany : ¬ (e :: b).any (·.1 != .fault) = true := by simpa using hall
  rw [enqueue_fault_of_full t hfull, if_neg hany, List.drop_one, List.tail_cons]

/-! ### Events and the queues -/

@[simp] theorem evtRaise_ow (s : State) (x : MapSrc) (c : EvClass) : (evtRaise s x c).ow = s.ow :=
  foldl_keeps (g := State.ow) (fun s n => by dsimp only; split <;> rfl) _ _

@[simp] theorem ownerEvent_q (s : State) (c : EvClass) (t : Line) :
    (ownerEvent s c t).ow.q = (enqueue 64 s.ow.q c (w ("!" ++ c.name) :: t)).1 := by
  simp [ownerEvent]

@[simp] theorem cntAdd_evlost (k : Deckle) (i n : Nat) : (cntAdd k i n).evlost = k.evlost := rfl

/-- From 192 queued lines on a UEVENT is lost; EVLOST counts the loss and UEVENTS the event (R526, R549). -/
theorem uevent_of_full (c : EvClass) (t : Line) (hfull : 192 ≤ (getDk s d).evq.length) :
    uevent s d c t = incr (incr (modDk s d (fun k => { k with evlost := k.evlost + 1 })) d 20) d 21 :=
  if_neg hfull.not_gt

end Sys2Proof.Machine
end

section
/-! The event queues (R526): their capacities, what a full one drops and what FAULT lines displace. -/

namespace Sys2Proof

open Machine

/-- Settles O41: a queue with room appends, a full one drops other lines and lets a FAULT line displace one; events pass the
capacities 256 and 64, and a UEVENT stops at 192. -/
theorem eventQueuesKeepFaultLines : Obligations.EventQueuesKeepFaultLines := by
  refine ⟨?room, ?displacesOther, ?displacesOldest, ?dropped, event_evq, ownerEvent_q, ?uevent⟩
  case room => exact fun _ _ c t hroom => enqueue_of_room c t hroom
  case displacesOther =>
    rintro cap _ t a e b rfl hfull ha he
    exact enqueue_fault_displaces_other t hfull ha he
  case displacesOldest =>
    rintro cap _ t e b rfl hfull hall
    exact enqueue_fault_displaces_oldest t hfull hall
  case dropped => exact fun _ _ _ t hfull hc => enqueue_of_full t hfull hc
  case uevent =>
    intro s d c t hfull
    simp [uevent_of_full c t hfull]

end Sys2Proof
end

section
/-! Event lines sent (R525, R527): the note of the lines lost, then the oldest line. -/

namespace Sys2Proof.Machine

variable {s : State} {l d : Nat} {e : EvClass × Line} {r : List (EvClass × Line)}

/-- What a line is sent ahead of an event line: after a loss the note of it, with the deckle's name or without (R527). -/
def tellLost (s : State) (l : Nat) (who : Line) (n : Nat) : State :=
  if 0 < n then sendEvent s l (w "!NOTE" :: who ++ [w "EVENTS-LOST", kn "N" n]) else s

theorem tellLost_of_pos (s : State) (l : Nat) (who : Line) {n : Nat} (hlost : 0 < n) :
    tellLost s l who n = sendEvent s l (w "!NOTE" :: who ++ [w "EVENTS-LOST", kn "N" n]) := if_pos hlost

/-- A tenant's line passes on the oldest line of its deckle. -/
theorem passNext_tenant (hup : (getLn s l).up = true) (hrole : (getLn s l).role = .tenant d) (hq : (getDk s d).evq = e :: r) :
    passNext s l =
      sendEvent (modDk (tellLost s l [dTok d] (getDk s d).evlost) d (fun k => { k with evq := r, evlost := 0 })) l e.2 := by
  simp only [passNext, hup, hrole, hq, Bool.not_true, Bool.false_eq_true, if_false]
  rfl

/-- The owner's line passes on the oldest line of the owner queue. -/
theorem passNext_owner (hup : (getLn s l).up = true) (hrole : (getLn s l).role = .owner) (hq : s.ow.q = e :: r) :
    passNext s l =
      sendEvent { tellLost s l [] s.ow.lost with ow := { (tellLost s l [] s.ow.lost).ow with q := r, lost := 0 } } l e.2 := by
  simp only [passNext, hup, hrole, hq, Bool.not_true, Bool.false_eq_true, if_false]
  rfl

/-- A line whose output is not paused is sent what it passes on. -/
theorem sendNext_of_running (hrun : (getLn s l).paused = false) : sendNext s l = passNext s l := by
  rw [sendNext, hrun, if_neg Bool.false_ne_true]

theorem exec_eventLineSend (dt : Nat) (l : Fin 10) (s : State) :
    exec (.eventLineSend dt l) s = .next (sendNext (advance s dt) l) := rfl

end Sys2Proof.Machine
end

section
/-! Lost event lines (R527): the next delivery of a queue begins with how many it has lost. -/

namespace Sys2Proof

open Machine

/-- Settles O42: the line passes on the oldest line of its queue, and with a loss the note comes first. -/
theorem lostEventsAreAnnouncedBeforeTheNextLine : Obligations.LostEventsAreAnnouncedBeforeTheNextLine := by
  refine ⟨?tenant, ?owner⟩
  case tenant =>
    rintro dt l s _ d e r _ rfl hup hrun hrole hq rfl hlost
    rw [exec_eventLineSend, sendNext_of_running hrun, passNext_tenant hup hrole hq, tellLost_of_pos _ _ _ hlost]
    rfl
  case owner =>
    rintro dt l s _ e r _ _ rfl hup hrun hrole hq rfl hlost rfl
    rw [exec_eventLineSend, sendNext_of_running hrun, passNext_owner hup hrole hq, tellLost_of_pos _ _ _ hlost]
    rfl

end Sys2Proof
end

section
/-! Counters cleared (R550): what deleting table entries, zeroing counters and zeroing a log's bank leave of a deckle's counters. -/

namespace Sys2Proof.Machine

/-! ### Deleted table entries -/

theorem tget_tdel (t : Tab α) (i j : Nat) (d : α) : tget (tdel t i) j d = if j = i then d else tget t j d := by
  rw [tget, tget?, tdel, List.find?_filter]
  split
  · next h =>
    have hnone : t.find? (fun e => e.1 != i ∧ e.1 == j) = none := by simp [List.find?_eq_none, h]
    rw [hnone]
    rfl
  · next h =>
    have hsame : (fun e : Nat × α => decide (e.1 != i ∧ e.1 == j)) = fun e => e.1 == j := by
      funext e
      by_cases he : e.1 = j <;> simp [he, h]
    rw [hsame]
    rfl

theorem tget_foldl_tdel (l : List Nat) (t : Tab α) (j : Nat) (d : α) :
    tget (l.foldl tdel t) j d = if j ∈ l then d else tget t j d := by
  induction l generalizing t with
  | nil => simp
  | cons i l ih =>
    rw [List.foldl_cons, ih, tget_tdel]
    by_cases hl : j ∈ l <;> simp [hl]

/-! ### Counters of a deckle -/

theorem tget_zeroCounts (l : List Nat) (k : Deckle) (i : Nat) :
    tget (zeroCounts l k).cnt i 0 = if i ∈ l then 0 else tget k.cnt i 0 := tget_foldl_tdel l k.cnt i 0

/-- Zeroing a bank changes of the deckles the furnishes alone. -/
@[simp] theorem zeroBank_cnt (s : State) (b d : Nat) : (getDk (zeroBank s b) d).cnt = (getDk s d).cnt :=
  unload_keeps (g := Deckle.cnt) (fun _ _ _ _ => rfl) s b d

@[simp] theorem zeroLog_cnt (s : State) (b : Option Nat) (d : Nat) : (getDk (zeroLog s b) d).cnt = (getDk s d).cnt := by
  cases b with
  | none => rfl
  | some b => exact zeroBank_cnt s b d

/-- An ARM begins with every counter 0 (R160). -/
theorem armBegin_cnt (s : State) (d : Nat) : (getDk (armBegin s d) d).cnt = [] := by
  simp only [armBegin, getDk_modDk_same]

end Sys2Proof.Machine
end

section
/-! COUNT CLEAR, BROKE CLEAR and CAPTURE CLEAR (R390, R550): what their bodies answer, and which counters they leave at 0. -/

namespace Sys2Proof

open Machine

variable {h : Hdr} {s : State} {c : List Nat}

/-! ### COUNT CLEAR -/

/-- The counters of a list that COUNT CLEAR may zero. -/
def clearable (c : List Nat) : List Nat := c.filter (fun i => !(2 ≤ i && i ≤ 6))

theorem mem_clearable {i : Nat} : i ∈ clearable c ↔ i ∈ c ∧ ¬ (2 ≤ i ∧ i ≤ 6) := by
  simp only [clearable, List.mem_filter, ← Bool.decide_and, ← decide_not, decide_eq_true_eq]

/-- Counters of a deckle zeroed; with WAITTICKS among them, a wait in progress counts from now on. -/
def countsCleared (s : State) (d : Nat) (z : List Nat) : State :=
  modThr (modDk s d (zeroCounts z)) d (fun t => if z.contains 10 then { t with waitT := now s } else t)

theorem countsCleared_cnt (s : State) (d : Nat) (z : List Nat) (i : Nat) :
    tget (getDk (countsCleared s d z) d).cnt i 0 = if i ∈ z then 0 else tget (getDk s d).cnt i 0 := by
  simp only [countsCleared, getDk_modThr_same, getDk_modDk_same]
  exact tget_zeroCounts z (getDk s d) i

/-- What COUNT CLEAR does once its line is accepted. -/
def countClearBody (h : Hdr) (l : Option (List (Nat × Nat))) : Body := fun s => do
  let c ← countList 3 0 47 l
  inSt (getDk s (myDk s h)) anySt
  ok (countsCleared s (myDk s h) (clearable c)) [w "OK", w "COUNT", w "CLEAR", dTok (myDk s h), kn "N" (clearable c).length]

theorem exec_countClear (h : Hdr) (l : Option (List (Nat × Nat))) (s : State) :
    exec (.countClear h l) s = noram s (.countClear h l) (tenantForm "COUNT") h (countClearBody h l) := rfl

/-- A deckle that is not CLOSED has the counters named cleared, as far as they are clearable. -/
theorem countClearBody_of_list {l : Option (List (Nat × Nat))} (hlist : countList 3 0 47 l = .ok c)
    (hst : (getDk s (myDk s h)).st ∈ anySt) :
    countClearBody h l s = .ok (countsCleared s (myDk s h) (clearable c),
      .now [] [w "OK", w "COUNT", w "CLEAR", dTok (myDk s h), kn "N" (clearable c).length]) := by
  rw [countClearBody, hlist, res_bind_ok, inSt_ok hst, res_bind_ok, ok]

/-! ### BROKE CLEAR and CAPTURE CLEAR -/

/-- A log cleared: its bank zeroed if the deckle still holds it, its counters 0, its part of the results emptied. -/
def logCleared (s : State) (d : Nat) (bank : Option Nat) (z : List Nat) (emptied : Results → Results) : State :=
  modRes (modDk (zeroLog s (logBank (getDk s d) bank)) d (zeroCounts z)) d emptied

theorem logCleared_cnt (s : State) (d : Nat) (bank : Option Nat) (z : List Nat) (emptied : Results → Results) (i : Nat) :
    tget (getDk (logCleared s d bank z emptied) d).cnt i 0 = if i ∈ z then 0 else tget (getDk s d).cnt i 0 := by
  simp only [logCleared, getDk_modRes_same, getDk_modDk_same]
  rw [tget_zeroCounts, zeroLog_cnt]

/-- What the CLEAR of a log does once its line is accepted. -/
def logClearBody (h : Hdr) (word : String) (bank : Furnish → Option Nat) (z : List Nat) (emptied : Results → Results) : Body :=
  fun s => do
    inSt (getDk s (myDk s h)) clearStates
    ok (logCleared s (myDk s h) (bank (getDk s (myDk s h)).act) z emptied) [w "OK", w word, w "CLEAR", dTok (myDk s h)]

/-- The results without what BROKE CLEAR empties. -/
def brokeEmptied (x : Results) : Results :=
  { x with fc := [], sheets := 0, bq := [], blost := false, bpos := 0, brec := 0, bfull := false }

/-- The results without what CAPTURE CLEAR empties. -/
def captureEmptied (x : Results) : Results := { x with cq := [], clost := false, cpos := 0, crec := 0, cfull := false }

theorem exec_brokeClear (h : Hdr) (s : State) :
    exec (.brokeClear h) s = noram s (.brokeClear h) (tenantForm "BROKE") h
      (logClearBody h "BROKE" Furnish.bbank [2, 3, 4] brokeEmptied) := rfl

theorem exec_captureClear (h : Hdr) (s : State) :
    exec (.captureClear h) s = noram s (.captureClear h) (tenantForm "CAPTURE") h
      (logClearBody h "CAPTURE" Furnish.cbank [5, 6] captureEmptied) := rfl

/-- A STOPPED, OPEN or HELD deckle has the log cleared. -/
theorem logClearBody_at_rest (hst : (getDk s (myDk s h)).st ∈ clearStates) (word : String) (bank : Furnish → Option Nat)
    (z : List Nat) (emptied : Results → Results) :
    logClearBody h word bank z emptied s = .ok (logCleared s (myDk s h) (bank (getDk s (myDk s h)).act) z emptied,
      .now [] [w "OK", w word, w "CLEAR", dTok (myDk s h)]) := by
  rw [logClearBody, inSt_ok hst, res_bind_ok, ok]

/-! ### The replies -/

theorem countClear_replies {l : Option (List (Nat × Nat))} (hlist : countList 3 0 47 l = .ok c)
    (hst : (getDk (begun h s) (myDk (begun h s) h)).st ∈ anySt) :
    Replies (.countClear h l) (tenantForm "COUNT") h s (countsCleared (begun h s) (myDk (begun h s) h) (clearable c)) []
      [w "OK", w "COUNT", w "CLEAR", dTok (myDk (begun h s) h), kn "N" (clearable c).length] := by
  intro hA
  rw [exec_countClear]
  exact noram_now hA (countClearBody_of_list hlist hst)

section
variable (hst : (getDk (begun h s) (myDk (begun h s) h)).st ∈ clearStates)
include hst

theorem brokeClear_replies :
    Replies (.brokeClear h) (tenantForm "BROKE") h s
      (logCleared (begun h s) (myDk (begun h s) h) (getDk (begun h s) (myDk (begun h s) h)).act.bbank [2, 3, 4] brokeEmptied) []
      [w "OK", w "BROKE", w "CLEAR", dTok (myDk (begun h s) h)] := by
  intro hA
  rw [exec_brokeClear]
  exact noram_now hA (logClearBody_at_rest hst _ _ _ _)

theorem captureClear_replies :
    Replies (.captureClear h) (tenantForm "CAPTURE") h s
      (logCleared (begun h s) (myDk (begun h s) h) (getDk (begun h s) (myDk (begun h s) h)).act.cbank [5, 6] captureEmptied) []
      [w "OK", w "CAPTURE", w "CLEAR", dTok (myDk (begun h s) h)] := by
  intro hA
  rw [exec_captureClear]
  exact noram_now hA (logClearBody_at_rest hst _ _ _ _)

end

/-- Settles O43: each CLEAR deletes the entries of its counters from the table, an unlisted counter reads 0, and an ARM empties
the table. -/
theorem countersAreClearedWhereTheRuleSays : Obligations.CountersAreClearedWhereTheRuleSays := by
  refine ⟨?countClear, ?arm, ?brokeClear, ?captureClear⟩
  case countClear =>
    rintro h l c s _ _ rfl hlist rfl hst
    refine ⟨_, _, countClear_replies hlist hst, fun i => ?_⟩
    simp only [countsCleared_cnt, mem_clearable]
  case arm =>
    intro s d i
    rw [armBegin_cnt]
    rfl
  case brokeClear =>
    rintro h s _ _ rfl rfl hst
    refine ⟨_, brokeClear_replies hst, fun i => ?_⟩
    have hmem : i ∈ [2, 3, 4] ↔ 2 ≤ i ∧ i ≤ 4 := by simp only [List.mem_cons, List.not_mem_nil, or_false]; omega
    simp only [logCleared_cnt, hmem]
  case captureClear =>
    rintro h s _ _ rfl rfl hst
    refine ⟨_, captureClear_replies hst, fun i => ?_⟩
    have hmem : i ∈ [5, 6] ↔ 5 ≤ i ∧ i ≤ 6 := by simp only [List.mem_cons, List.not_mem_nil, or_false]; omega
    simp only [logCleared_cnt, hmem]

end Sys2Proof
end

section
/-! A trace slot (R539, R540): what the slot of a deckle carries, and that it touches no other deckle. -/

namespace Sys2Proof.Machine

variable {s : State} {d e : Nat} {p : Packet} {r : List Packet}

/-! ### The TIME packet of a slot (R542) -/

/-- An open deckle whose last TIME packet lies a second back gets one. -/
def timeTold (s : State) (d : Nat) : State :=
  if (getDk s d).st.isOpen && timeDue (getDk s d) (now s) then modDk s d (putTime d (now s)) else s

theorem timeTold_of_not_due (hdue : timeDue (getDk s d) (now s) = false) : timeTold s d = s := by
  rw [timeTold, hdue, Bool.and_false, if_neg Bool.false_ne_true]

theorem getDk_timeTold_other (he : e ≠ d) : getDk (timeTold s d) e = getDk s e := by
  unfold timeTold
  split
  · exact getDk_modDk_other _ _ _ _ he
  · rfl

@[simp] theorem timeTold_ph (s : State) (d : Nat) : (timeTold s d).ph = s.ph := by unfold timeTold; split <;> rfl

/-! ### What a slot carries -/

@[simp] theorem getDk_putSlot (s : State) (d : Nat) (b : List Nat) (e : Nat) : getDk (putSlot s d b) e = getDk s e := by
  unfold putSlot; split <;> rfl

theorem putSlot_slot (hport : s.ph.port = true) (b : List Nat) : (putSlot s d b).ph.slot = some (d, b) := by
  rw [putSlot, if_pos hport]

/-- The slot of a deckle drains into no ring but its own. -/
theorem getDk_drainSlot_other (he : e ≠ d) : getDk (drainSlot s d) e = getDk s e := by
  simp only [drainSlot]
  split
  · rw [getDk_putSlot, getDk_setDk_other _ _ _ _ he]
  · exact getDk_putSlot _ _ _ _

section
variable (hport : s.ph.port = true)
include hport

/-- A waiting packet goes to the slot where it may reach the port, and a SYNC packet in its place where not. -/
theorem drainSlot_slot_waiting (hfifo : (getDk s d).trace.fifo = p :: r) :
    (drainSlot s d).ph.slot = some (d, if toPort s (getDk s d) p then p.bytes else syncBytes d) := by
  simp only [drainSlot, hfifo]
  exact putSlot_slot (by rw [setDk_ph, hport]) _

/-- Without a waiting packet the slot carries a SYNC packet. -/
theorem drainSlot_slot_empty (hfifo : (getDk s d).trace.fifo = []) : (drainSlot s d).ph.slot = some (d, syncBytes d) := by
  simp only [drainSlot, hfifo]
  exact putSlot_slot hport _

/-- Whatever waits, the slot bears its deckle's number. -/
theorem drainSlot_slot_own : ∃ b, (drainSlot s d).ph.slot = some (d, b) := by
  cases hfifo : (getDk s d).trace.fifo with
  | nil => exact ⟨_, drainSlot_slot_empty hport hfifo⟩
  | cons p r => exact ⟨_, drainSlot_slot_waiting hport hfifo⟩

end

/-- The event of a slot at a multiple of 32 of the counting timebase serves the deckle of that count. -/
theorem exec_traceSlot_starts {dt : Nat} (hrun : (advance s dt).rf.run = true) (hgrid : now (advance s dt) % 32 = 0) :
    exec (.traceSlot dt) s =
      .next (drainSlot (timeTold (advance s dt) (now (advance s dt) / 32 % 8)) (now (advance s dt) / 32 % 8)) := by
  change execTraceSlot dt s = _
  rw [execTraceSlot, if_pos (by rw [hrun, Bool.true_and]; exact decide_eq_true hgrid)]
  rfl

end Sys2Proof.Machine
end

section
/-! The rotation of the trace slots (R539): deckle (c div 32) mod 8 owns the slot at count c. -/

namespace Sys2Proof

open Machine

/-- Settles O56: a slot drains the FIFO of its own deckle, after a TIME packet to the same FIFO where one is due, and 256 ticks are
eight slots. -/
theorem traceSlotsRotateOverTheDeckles : Obligations.TraceSlotsRotateOverTheDeckles := by
  refine ⟨?slot, fun c => by omega⟩
  rintro dt s _ _ d t rfl hrun rfl hgrid hd hport hexec
  rw [exec_traceSlot_starts hrun hgrid, hd, Host.Outcome.next.injEq] at hexec
  subst hexec
  refine ⟨?others, ?own, ?mapped, ?unmapped, ?empty⟩
  case others => exact fun e he => (getDk_drainSlot_other he).trans (getDk_timeTold_other he)
  case own => exact drainSlot_slot_own (by rw [timeTold_ph, hport])
  case mapped =>
    intro p r hfifo hdue hto
    rw [timeTold_of_not_due hdue, drainSlot_slot_waiting hport hfifo, if_pos hto]
  case unmapped =>
    intro p r hfifo hdue hto
    rw [timeTold_of_not_due hdue, drainSlot_slot_waiting hport hfifo, hto, if_neg Bool.false_ne_true]
  case empty =>
    intro hfifo hdue
    rw [timeTold_of_not_due hdue, drainSlot_slot_empty hport hfifo]

end Sys2Proof
end

section
/-! What every step must keep: the queue, the identity of the module, time, the count of free values and the canonical form of the memories.
The parts of a state that say so are its ledger; `Kept` compares two ledgers. An operation that changes none of them leaves the ledger as it
is (`ledger_…`, an equation); one that writes a memory, draws a free value or lets time pass keeps it (`kept_…`). A body that checks first
is `KeptR`, a command `KeptO`. -/

namespace Sys2Proof.Machine

/-- What the invariants of a step speak of: the queue, the identity of the module, wall time, the free values drawn, and the memories. -/
structure Ledger where
  pending : List Instr
  variant : Variant
  serial : Nat
  wall : Nat
  free : Nat
  vat : Mem
  tpad : Mem
  cep : Mem
  mpad : Mem
  ust : Mem
  nst : Mem
  upar : Mem
  npar : Mem
  keepU : Mem
  keepN : Mem

/-- The memories of a ledger are in canonical form. -/
structure Ledger.Canonical (a : Ledger) : Prop where
  vat : Memory.wf a.vat
  tpad : Memory.wf a.tpad
  cep : Memory.wf a.cep
  mpad : Memory.wf a.mpad
  ust : Memory.wf a.ust
  nst : Memory.wf a.nst
  upar : Memory.wf a.upar
  npar : Memory.wf a.npar
  keepU : Memory.wf a.keepU
  keepN : Memory.wf a.keepN

/-- The ledger of a state. -/
def ledger (s : State) : Ledger :=
  { pending := s.pending, variant := s.nv.variant, serial := s.nv.serial, wall := s.wall, free := s.free, vat := s.vat, tpad := s.tpad,
    cep := s.cep, mpad := s.mpad, ust := s.ust, nst := s.nst, upar := s.upar, npar := s.npar, keepU := s.md.keepU, keepN := s.md.keepN }

/-- A ledger `b` keeps `a`: the queue and the identity are the same, wall time and the number of free values have not fallen, and the memories
are in canonical form if they were. -/
structure Kept (a b : Ledger) : Prop where
  pending : b.pending = a.pending
  variant : b.variant = a.variant
  serial : b.serial = a.serial
  wall : a.wall ≤ b.wall
  free : a.free ≤ b.free
  canonical : a.Canonical → b.Canonical

theorem Kept.refl (a : Ledger) : Kept a a := ⟨rfl, rfl, rfl, le_rfl, le_rfl, id⟩

theorem Kept.trans {a b c : Ledger} (h : Kept a b) (k : Kept b c) : Kept a c :=
  ⟨k.pending.trans h.pending, k.variant.trans h.variant, k.serial.trans h.serial, h.wall.trans k.wall, h.free.trans k.free,
    k.canonical ∘ h.canonical⟩

@[simp] theorem ledger_mk : ledger ⟨wall, pending, free, arrN, resume, md, nv, rf, ch, pc, ln, jobs, ow, dk, bk, vat, tpad, cep, mpad, ust, nst,
      upar, npar, pin, fe, dps, aux, adc, tmu, ph⟩ =
    ⟨pending, nv.variant, nv.serial, wall, free, vat, tpad, cep, mpad, ust, nst, upar, npar, md.keepU, md.keepN⟩ := rfl

@[simp] theorem ledger_fold (s : State) : (⟨s.pending, s.nv.variant, s.nv.serial, s.wall, s.free, s.vat, s.tpad, s.cep, s.mpad, s.ust, s.nst,
    s.upar, s.npar, s.md.keepU, s.md.keepN⟩ : Ledger) = ledger s := rfl

@[simp] theorem ledger_ite (c : Prop) {_ : Decidable c} (x y : State) : ledger (if c then x else y) = if c then ledger x else ledger y := apply_ite ..

@[simp] theorem ledger_foldl {f : State → β → State} (l : List β) (hf : ∀ s b, ledger (f s b) = ledger s) : ledger (l.foldl f s) = ledger s := by
  induction l generalizing s with
  | nil => rfl
  | cons x l ih => simp [ih, hf]

@[simp] theorem ledger_forEach {f : State → β → State} (l : List β) (hf : ∀ s b, ledger (f s b) = ledger s) : ledger (forEach l s f) = ledger s :=
  ledger_foldl l hf

@[simp] theorem kept_ite (c : Prop) {_ : Decidable c} : Kept a (if c then x else y) ↔ (c → Kept a x) ∧ (¬c → Kept a y) := by
  split <;> simp [*]

@[simp] theorem kept_foldl {f : State → β → State} {l : List β} (h : Kept a (ledger s))
    (hf : ∀ s b, Kept a (ledger s) → Kept a (ledger (f s b))) : Kept a (ledger (l.foldl f s)) := by
  induction l generalizing s with
  | nil => exact h
  | cons x l ih => exact ih (hf s x h)

@[simp] theorem kept_forEach {f : State → β → State} {l : List β} (h : Kept a (ledger s))
    (hf : ∀ s b, Kept a (ledger s) → Kept a (ledger (f s b))) : Kept a (ledger (forEach l s f)) := kept_foldl h hf

/-! One memory replaced by one in canonical form. -/

@[simp] theorem kept_vat (h : Kept a (ledger s)) (hm : Memory.wf s.vat → Memory.wf m) :
    Kept a ⟨s.pending, s.nv.variant, s.nv.serial, s.wall, s.free, m, s.tpad, s.cep, s.mpad, s.ust, s.nst, s.upar, s.npar, s.md.keepU, s.md.keepN⟩ :=
  h.trans ⟨rfl, rfl, rfl, le_rfl, le_rfl, fun c => { c with vat := hm c.vat }⟩

@[simp] theorem kept_tpad (h : Kept a (ledger s)) (hm : Memory.wf s.tpad → Memory.wf m) :
    Kept a ⟨s.pending, s.nv.variant, s.nv.serial, s.wall, s.free, s.vat, m, s.cep, s.mpad, s.ust, s.nst, s.upar, s.npar, s.md.keepU, s.md.keepN⟩ :=
  h.trans ⟨rfl, rfl, rfl, le_rfl, le_rfl, fun c => { c with tpad := hm c.tpad }⟩

@[simp] theorem kept_cep (h : Kept a (ledger s)) (hm : Memory.wf s.cep → Memory.wf m) :
    Kept a ⟨s.pending, s.nv.variant, s.nv.serial, s.wall, s.free, s.vat, s.tpad, m, s.mpad, s.ust, s.nst, s.upar, s.npar, s.md.keepU, s.md.keepN⟩ :=
  h.trans ⟨rfl, rfl, rfl, le_rfl, le_rfl, fun c => { c with cep := hm c.cep }⟩

@[simp] theorem kept_mpad (h : Kept a (ledger s)) (hm : Memory.wf s.mpad → Memory.wf m) :
    Kept a ⟨s.pending, s.nv.variant, s.nv.serial, s.wall, s.free, s.vat, s.tpad, s.cep, m, s.ust, s.nst, s.upar, s.npar, s.md.keepU, s.md.keepN⟩ :=
  h.trans ⟨rfl, rfl, rfl, le_rfl, le_rfl, fun c => { c with mpad := hm c.mpad }⟩

/-- Wall time has passed. -/
@[simp] theorem kept_wall (h : Kept a (ledger s)) : Kept a ⟨s.pending, s.nv.variant, s.nv.serial, s.wall + dt, s.free, s.vat, s.tpad, s.cep,
    s.mpad, s.ust, s.nst, s.upar, s.npar, s.md.keepU, s.md.keepN⟩ :=
  h.trans ⟨rfl, rfl, rfl, Nat.le_add_right .., le_rfl, fun c => { c with }⟩

/-- The stores and their parity bits replaced. -/
theorem kept_stores (h : Kept a (ledger s)) (hm : StoresWf s → StoresWf { s with ust := u, upar := up, nst := n, npar := np }) :
    Kept a (ledger { s with ust := u, upar := up, nst := n, npar := np }) :=
  h.trans ⟨rfl, rfl, rfl, le_rfl, le_rfl, fun c =>
    have ⟨hu, hup, hn, hnp⟩ := hm ⟨c.ust, c.upar, c.nst, c.npar⟩
    { c with ust := hu, upar := hup, nst := hn, npar := hnp }⟩

/-- Time passes. -/
@[simp] theorem kept_advance (h : Kept a (ledger s)) : Kept a (ledger (advance s dt)) :=
  h.trans ⟨rfl, rfl, rfl, Nat.le_add_right .., le_rfl, fun c => { c with }⟩

/-- A free value is drawn. -/
@[simp] theorem kept_draw (h : Kept a (ledger s)) : Kept a (ledger (draw s).2) :=
  h.trans ⟨rfl, rfl, rfl, le_rfl, Nat.le_succ _, fun c => { c with }⟩

/-! ### Commands that check first -/

/-- The state that a command leaves when its checks pass keeps a ledger. -/
def KeptR (a : Ledger) (r : Res (State × α)) : Prop := ∀ t x, r = .ok (t, x) → Kept a (ledger t)

@[simp] theorem keptR_ok : KeptR a (.ok (t, x) : Res (State × α)) ↔ Kept a (ledger t) :=
  ⟨fun h => h t x rfl, fun h _ _ e => by cases e; exact h⟩

@[simp] theorem keptR_pure : KeptR a (pure (t, x) : Res (State × α)) ↔ Kept a (ledger t) := keptR_ok

@[simp] theorem keptR_error : KeptR a (.error e : Res (State × α)) := fun _ _ h => nomatch h

@[simp] theorem keptR_ite (c : Prop) {_ : Decidable c} {x y : Res (State × α)} :
    KeptR a (if c then x else y) ↔ (c → KeptR a x) ∧ (¬c → KeptR a y) := by
  split <;> simp [*]

@[simp] theorem keptR_answer_ok : KeptR a (Machine.ok t l) ↔ Kept a (ledger t) := keptR_ok

@[simp] theorem keptR_okBody : KeptR a (okBody t b l) ↔ Kept a (ledger t) := keptR_ok

/-- What follows a check keeps a ledger if it does so for each value that the check may give. -/
@[simp] theorem keptR_bind {r : Res β} {f : β → Res (State × α)} : KeptR a (r >>= f) ↔ ∀ x, r = .ok x → KeptR a (f x) := by
  cases r with
  | error e => exact ⟨fun _ x h => (nomatch h), fun _ => keptR_error⟩
  | ok y => exact ⟨fun h x e => by cases e; exact h, fun h => h y rfl⟩

/-- What follows an operation on the state keeps a ledger if the operation does and so does what follows on any state that keeps it. -/
@[simp] theorem keptR_bind_state {r : Res (State × β)} {f : State × β → Res (State × α)} (hr : KeptR a r)
    (hf : ∀ t x, Kept a (ledger t) → KeptR a (f (t, x))) : KeptR a (r >>= f) :=
  keptR_bind.2 fun x hx => hf x.1 x.2 (hr x.1 x.2 hx)

@[simp] theorem keptR_map {r : Res β} {f : β → State × α} : KeptR a (f <$> r) ↔ ∀ x, r = .ok x → Kept a (ledger (f x).1) := by
  cases r with
  | error e => exact ⟨fun _ x h => (nomatch h), fun _ => keptR_error⟩
  | ok y => exact ⟨fun h x e => by cases e; exact h _ _ rfl, fun h t x e => by simpa [Except.ok.inj e] using h y rfl⟩

@[simp] theorem keptR_map_state {r : Res (State × β)} {f : State × β → State × α} (hr : KeptR a r)
    (hf : ∀ t x, Kept a (ledger t) → Kept a (ledger (f (t, x)).1)) : KeptR a (f <$> r) :=
  keptR_map.2 fun x hx => hf x.1 x.2 (hr x.1 x.2 hx)

/-! ### Outcomes -/

/-- A command answers a next state, which keeps a ledger. -/
def KeptO (a : Ledger) (o : Out) : Prop := ∃ t, o = .next t ∧ Kept a (ledger t)

@[simp] theorem keptO_next : KeptO a (.next t) ↔ Kept a (ledger t) :=
  ⟨fun ⟨_, e, h⟩ => by cases e; exact h, fun h => ⟨t, rfl, h⟩⟩

@[simp] theorem keptO_ite (c : Prop) {_ : Decidable c} {x y : Out} : KeptO a (if c then x else y) ↔ (c → KeptO a x) ∧ (¬c → KeptO a y) := by
  split <;> simp [*]

end Sys2Proof.Machine
end

section
/-! The ledger under the operations of Machine/Ops.lean: parts of the state. -/

namespace Sys2Proof.Machine

@[simp] theorem ledger_setDk : ledger (setDk s d x) = ledger s := by simp [setDk]
@[simp] theorem ledger_modDk : ledger (modDk s d f) = ledger s := by simp [modDk]
@[simp] theorem ledger_setLn : ledger (setLn s l x) = ledger s := by simp [setLn]
@[simp] theorem ledger_modLn : ledger (modLn s l f) = ledger s := by simp [modLn]
@[simp] theorem ledger_setBk : ledger (setBk s b x) = ledger s := by simp [setBk]
@[simp] theorem ledger_modBk : ledger (modBk s b f) = ledger s := by simp [modBk]
@[simp] theorem ledger_setPin : ledger (setPin s c x) = ledger s := by simp [setPin]
@[simp] theorem ledger_modPin : ledger (modPin s c f) = ledger s := by simp [modPin]
@[simp] theorem ledger_modFe : ledger (modFe s c f) = ledger s := by simp [modFe]
@[simp] theorem ledger_setDps : ledger (setDps s n x) = ledger s := by simp [setDps]
@[simp] theorem ledger_modDps : ledger (modDps s n f) = ledger s := by simp [modDps]
@[simp] theorem ledger_setAux : ledger (setAux s n x) = ledger s := by simp [setAux]
@[simp] theorem ledger_modAux : ledger (modAux s n f) = ledger s := by simp [modAux]
@[simp] theorem ledger_setAdc : ledger (setAdc s n x) = ledger s := by simp [setAdc]
@[simp] theorem ledger_modAdc : ledger (modAdc s n f) = ledger s := by simp [modAdc]
@[simp] theorem ledger_setTmu : ledger (setTmu s n x) = ledger s := by simp [setTmu]
@[simp] theorem ledger_modTmu : ledger (modTmu s n f) = ledger s := by simp [modTmu]
@[simp] theorem ledger_modEvt : ledger (modEvt s n f) = ledger s := by simp [modEvt]
@[simp] theorem ledger_modThr : ledger (modThr s d f) = ledger s := by simp [modThr]
@[simp] theorem ledger_modSeq : ledger (modSeq s d f) = ledger s := by simp [modSeq]
@[simp] theorem ledger_modRes : ledger (modRes s d f) = ledger s := by simp [modRes]
@[simp] theorem ledger_incr : ledger (incr s d i n) = ledger s := by simp [incr]
@[simp] theorem ledger_stepsRun : ledger (stepsRun s d n) = ledger s := by simp [stepsRun]

end Sys2Proof.Machine
end

section
/-! The ledger under the operations of Machine/EventOps.lean: event lines, event queues and trace packets. -/

namespace Sys2Proof.Machine

@[simp] theorem ledger_sendLine : ledger (sendLine s l t) = ledger s := by simp [sendLine]
@[simp] theorem ledger_sendRaw : ledger (sendRaw s l b) = ledger s := by simp [sendRaw]
@[simp] theorem ledger_resumeOut : ledger (resumeOut s l) = ledger s := by simp [resumeOut]
@[simp] theorem ledger_flowControl : ledger (flowControl s l) = ledger s := by simp [flowControl]
@[simp] theorem ledger_sendEvent : ledger (sendEvent s l t) = ledger s := by simp [sendEvent]
@[simp] theorem ledger_sendAll : ledger (sendAll s t) = ledger s := by simp [sendAll]
@[simp] theorem ledger_evtHit : ledger (evtHit s n) = ledger s := by simp [evtHit]
@[simp] theorem ledger_evtRaise : ledger (evtRaise s src' c) = ledger s := by simp [evtRaise]
@[simp] theorem ledger_queueEv : ledger (queueEv s d own c t) = ledger s := by simp [queueEv]
@[simp] theorem ledger_event : ledger (event s d c t) = ledger s := by simp [event]
@[simp] theorem ledger_ownerEvent : ledger (ownerEvent s c t) = ledger s := by simp [ownerEvent]
@[simp] theorem ledger_noteDeckles : ledger (noteDeckles s p t) = ledger s := by simp [noteDeckles]
@[simp] theorem ledger_noteAll : ledger (noteAll s t) = ledger s := by simp [noteAll]

@[simp] theorem ledger_passNext : ledger (passNext s l) = ledger s := by
  unfold passNext
  dsimp only
  repeat' split
  all_goals simp [-sendEvent_md]

@[simp] theorem ledger_sendNext : ledger (sendNext s l) = ledger s := by simp [sendNext]
@[simp] theorem ledger_sendQueued : ledger (sendQueued s) = ledger s := by simp [sendQueued]
@[simp] theorem ledger_uevent : ledger (uevent s d c t) = ledger s := by simp [uevent]
@[simp] theorem ledger_streamPut : ledger (streamPut s d ty body) = ledger s := by simp [streamPut]
@[simp] theorem ledger_traceState : ledger (traceState s d) = ledger s := by simp [traceState]
@[simp] theorem ledger_traceRoutine : ledger (traceRoutine s d i op steps) = ledger s := by simp [traceRoutine]
@[simp] theorem ledger_traceDisp : ledger (traceDisp s d pa n q cont) = ledger s := by simp [traceDisp]
@[simp] theorem ledger_setSt : ledger (setSt s d st) = ledger s := by simp [setSt]

end Sys2Proof.Machine
end

section
/-! The ledger under the operations of Machine/Lines.lean: the lines: sessions, replies, tags, and a command line as it arrives. -/

namespace Sys2Proof.Machine

@[simp] theorem ledger_setTags : ledger (setTags s m t) = ledger s := by
  unfold setTags
  split <;> simp

@[simp] theorem ledger_beginTag : ledger (beginTag s m t text) = ledger s := by simp [beginTag]
@[simp] theorem ledger_endTag : ledger (endTag s m t body fin) = ledger s := by simp [endTag]
@[simp] theorem ledger_sendReply : ledger (sendReply s l p) = ledger s := by simp [sendReply]
@[simp] theorem ledger_flushSlots : ledger (flushSlots s l) = ledger s := by simp [flushSlots]
@[simp] theorem ledger_answer : ledger (answer s l slot' body fin) = ledger s := by simp [answer]
@[simp] theorem ledger_newSlot : ledger (newSlot s l bytes).2 = ledger s := by simp [newSlot]

@[simp] theorem ledger_completeJob : ledger (completeJob s j body fin) = ledger s := by
  unfold completeJob
  cases j.tag <;> cases j.atId <;> simp
  all_goals
    rw [ledger_foldl]
    · simp
    · intro s x
      split <;> simp

@[simp] theorem ledger_finishJob : ledger (finishJob s p body fin) = ledger s := by
  unfold finishJob
  split <;> simp

@[simp] theorem ledger_finishJobs : ledger (finishJobs s p body fin) = ledger s := by simp [finishJobs]

@[simp] theorem ledger_dropJobs : ledger (dropJobs s p) = ledger s := by
  refine ledger_foldl _ fun s j => ?_
  dsimp only
  split <;> simp

@[simp] theorem ledger_holdDeckle : ledger (holdDeckle s d y) = ledger s := by simp [holdDeckle]

@[simp] theorem ledger_tenantGone : ledger (tenantGone s r) = ledger s := by
  unfold tenantGone
  split <;> simp

@[simp] theorem ledger_endSession : ledger (endSession s l) = ledger s := by simp [endSession]
@[simp] theorem ledger_dropOut : ledger (dropOut s l) = ledger s := by simp [dropOut]
@[simp] theorem ledger_closeLine : ledger (closeLine s l) = ledger s := by simp [closeLine]
@[simp] theorem ledger_dropSessions : ledger (dropSessions s) = ledger s := by simp [dropSessions]

@[simp] theorem ledger_badMac : ledger (badMac s l) = ledger s := by
  unfold badMac
  dsimp only
  split <;> simp

@[simp] theorem ledger_blkMacs (rows : List BlkRow) : ledger (blkMacs s l rows).1 = ledger s := by
  induction rows generalizing s with
  | nil => rfl
  | cons r t ih => simp only [blkMacs]; split <;> simp [ih]

@[simp] theorem ledger_discard (rows : List BlkRow) : ledger (discard s l rows) = ledger s := by
  induction rows generalizing s with
  | nil => rfl
  | cons r t ih => simp only [discard]; split <;> simp [ih]

@[simp] theorem ledger_errNote : ledger (errNote s e) = ledger s := by
  unfold errNote
  split <;> simp

/-- A command begins executing: its refusal changes nothing that a ledger holds, and its effect keeps it if the body does. -/
theorem kept_start (h : Kept a (ledger s)) (hb : KeptR a (body s)) : Kept a (ledger (start s pre hd extra slot body)) := by
  have hgo : KeptR a (do pre s; body s) := keptR_bind.2 fun _ _ => hb
  unfold start
  cases ht : lineTag hd.text with
  | none =>
    cases hr : (do pre s; body s) with
    | error e => simp [hr, h]
    | ok y =>
      have hy := hgo y.1 y.2 hr
      obtain ⟨t, b | k | _⟩ := y <;> simpa [hr] using hy
  | some tag =>
    dsimp only
    split
    · cases hr : (do pre s; body s) with
      | error e => simp [h]
      | ok y =>
        have hy := hgo y.1 y.2 hr
        obtain ⟨t, b | k | _⟩ := y <;> simpa [hr] using hy
    · simp [h]

@[simp] theorem ledger_refuseForm : ledger (refuseForm s hd e) = ledger s := by
  unfold refuseForm
  dsimp only
  split <;> simp

/-- A line that arrives keeps a ledger if its execution does. -/
theorem kept_arrive (h : Kept a (ledger s)) (hgo : ∀ p s n, Kept a (ledger s) → Kept a (ledger (go p s n))) :
    Kept a (ledger (arrive s c hd blk overtakes go)) := by
  unfold arrive
  split
  · exact hgo _ _ _ (by simpa using h)
  · simp only [ledger_ite, kept_ite]
    refine ⟨fun _ => by simp [h], fun _ => ⟨fun _ => by simp [h], fun _ => ⟨fun _ => by simp [h], fun _ => ⟨fun _ => by simp [h], fun _ =>
      ⟨fun _ => by simp [h], fun _ => ?_⟩⟩⟩⟩⟩
    split
    · simp [h]
    · simp [h, hgo]

theorem kept_noram (h : Kept a (ledger s)) (hb : ∀ s, Kept a (ledger s) → KeptR a (body s)) : KeptO a (noram s c f hd body) :=
  keptO_next.2 (kept_arrive h fun _ s _ h => kept_start h (hb s h))

theorem kept_noramFirst (h : Kept a (ledger s)) (hb : ∀ s, Kept a (ledger s) → KeptR a (body s)) : KeptO a (noramFirst s c f hd body) :=
  keptO_next.2 (kept_arrive h fun _ s _ h => kept_start h (hb s h))

theorem kept_noramBlk (h : Kept a (ledger s)) (hb : ∀ p s, Kept a (ledger s) → KeptR a (body p s)) : KeptO a (noramBlk s c f hd b pre body) :=
  keptO_next.2 (kept_arrive h fun _ s _ h => kept_start h (by simp [hb _ s h]))

@[simp] theorem ledger_cancelWarm : ledger (cancelWarm s d cause) = ledger s := by simp [cancelWarm]
@[simp] theorem ledger_clearSeal : ledger (clearSeal s d cause) = ledger s := by simp [clearSeal]
@[simp] theorem keptR_edit (h : Kept a (ledger s)) : KeptR a (edit s d it f) := by simp [edit, h]

@[simp] theorem keptR_editList (h : Kept a (ledger s)) : KeptR a (editList s d f) :=
  keptR_bind_state (keptR_edit h) fun t x h => by simpa using h

@[simp] theorem keptR_writeOrStage (h : Kept a (ledger s)) (hn : ∀ s, Kept a (ledger s) → Kept a (ledger (g s))) :
    KeptR a (writeOrStage s d it n x g) := by
  simp [writeOrStage, h, hn]

@[simp] theorem ledger_modEditing : ledger (modEditing s d g) = ledger s := by simp [modEditing]
@[simp] theorem ledger_modSession : ledger (modSession s hd f) = ledger s := by simp [modSession]

end Sys2Proof.Machine
end

section
/-! The ledger under the operations of Machine/TmuOps.lean: the measurement pad. -/

namespace Sys2Proof.Machine

@[simp] theorem kept_tmuStateByte (h : Kept a (ledger s)) : Kept a (ledger (tmuStateByte s n)) := kept_mpad (s := s) h (wf_mputNum _ _ _ _)
@[simp] theorem kept_tmuNoStats (h : Kept a (ledger s)) : Kept a (ledger (tmuNoStats s).2) := kept_draw (kept_draw (kept_draw h))

@[simp] theorem kept_tmuWindow (h : Kept a (ledger s)) : Kept a (ledger (tmuWindow s n)) := by
  unfold tmuWindow
  extract_lets x
  have h₁ : Kept a (ledger (if x.done = 0 then tmuNoStats s else ((0, 0, 0), s)).2) := by split <;> simp [h]
  exact kept_mpad (s := (if x.done = 0 then tmuNoStats s else ((0, 0, 0), s)).2) h₁ (wf_mput _ _ _)

@[simp] theorem kept_tmuStore (h : Kept a (ledger s)) : Kept a (ledger (tmuStore s n r).1) := by
  unfold tmuStore
  dsimp only
  split
  · simpa using h
  · rw [ledger_setTmu]
    exact kept_mpad (s := s) h (wf_mput _ _ _)

@[simp] theorem kept_tmuTake (h : Kept a (ledger s)) : Kept a (ledger (tmuTake s n m)) := by
  refine kept_mpad (s := modTmu s n (fun x => { x with recs := x.recs.drop m })) (by simpa using h) fun hm => ?_
  exact List.foldlRecOn (List.range m) _ hm fun p hp i _ => wf_mput _ _ _ hp

end Sys2Proof.Machine
end

section
/-! The ledger under the operations of Machine/Outputs.lean: outputs, stops and faults of a deckle. -/

namespace Sys2Proof.Machine

@[simp] theorem kept_abandonTmu (h : Kept a (ledger s)) : Kept a (ledger (abandonTmu s n)) := by simp [abandonTmu, h]
@[simp] theorem ledger_keep : ledger (keep s) = ledger s := by simp [keep]

@[simp] theorem kept_outputsOff (h : Kept a (ledger s)) : Kept a (ledger (outputsOff s d)) := by
  simp +contextual [outputsOff, h]

@[simp] theorem kept_safeOutputs (h : Kept a (ledger s)) : Kept a (ledger (safeOutputs s)) := kept_mpad (s := s) h fun _ => wf_nil

@[simp] theorem kept_faultUnits (h : Kept a (ledger s)) : Kept a (ledger (faultUnits s d)) := by
  simp +contextual [faultUnits, h]

@[simp] theorem ledger_stopUnits : ledger (stopUnits s d) = ledger s := by simp [stopUnits]
@[simp] theorem ledger_restPins : ledger (restPins s d b) = ledger s := by simp [restPins]
@[simp] theorem ledger_pressFails : ledger (pressFails s d cause) = ledger s := by simp [pressFails]

@[simp] theorem kept_beginOff (h : Kept a (ledger s)) : Kept a (ledger (beginOff s d)) := by
  simp +contextual [beginOff, h]

@[simp] theorem kept_traceFree (h : Kept a (ledger s)) : Kept a (ledger (traceFree s d i)) := by simp [traceFree, h]

@[simp] theorem ledger_applyFailOut : ledger (applyFailOut s) = ledger s := by
  unfold applyFailOut
  split <;> simp

@[simp] theorem kept_beginZero (h : Kept a (ledger s)) : Kept a (ledger (beginZero s d)) := by simp [beginZero, h]
@[simp] theorem ledger_leaveSource : ledger (leaveSource s) = ledger s := by simp [leaveSource]

@[simp] theorem kept_stopDeckle (h : Kept a (ledger s)) : Kept a (ledger (stopDeckle s d)) := by
  unfold stopDeckle
  extract_lets k causes fault q t s₁ s₂ s₃ s₄ s₅ s₆ s₇ s₈ s₉ s₁₀ s₁₁ s₁₂
  have h₇ : Kept a (ledger s₇) := by simp [s₇, s₆, s₅, s₄, s₃, s₂, s₁, h]
  have h₈ : ledger s₈ = ledger s₇ := ledger_foldl _ fun s c => by split <;> simp
  have h₁₂ : Kept a (ledger s₁₂) := by simp [s₁₂, s₁₁, s₁₀, s₉, h₈, h₇]
  simp [h₁₂]

@[simp] theorem ledger_abandonArm : ledger (abandonArm s d f) = ledger s := by simp [abandonArm]

@[simp] theorem kept_detect (h : Kept a (ledger s)) : Kept a (ledger (detect s d f fields)) := by
  unfold detect
  dsimp only
  (repeat' split)
  all_goals simp [h]

@[simp] theorem ledger_safeDeckle : ledger (safeDeckle s d) = ledger s := by simp [safeDeckle]
@[simp] theorem ledger_releaseEvt : ledger (releaseEvt s) = ledger s := by simp [releaseEvt]

@[simp] theorem kept_enterSafe (h : Kept a (ledger s)) : Kept a (ledger (enterSafe s cause latch fields)) := by
  unfold enterSafe
  extract_lets m s₁ s₂ s₃
  have h₁ : Kept a (ledger s₁) := h
  have h₂ : Kept a (ledger s₂) := kept_safeOutputs (by simp [h₁])
  have h₃ : Kept a (ledger s₃) := kept_foldl h₂ fun s d h => by simp [h]
  simp [h₃]

end Sys2Proof.Machine
end

section
/-! The ledger under the operations of Machine/Session.lean: sessions, identity lines and MODE. -/

namespace Sys2Proof.Machine

theorem keptO_execUnknownCommand (h : Kept a (ledger s)) : KeptO a (execUnknownCommand hd s) :=
  keptO_next.2 (kept_arrive h fun _ _ _ h => kept_start h keptR_error)

theorem keptO_execDataBlockTimeout (h : Kept a (ledger s)) : KeptO a (execDataBlockTimeout hd bh rows s) := by
  unfold execDataBlockTimeout
  split
  · simp [h]
  · exact keptO_next.2 (kept_arrive h fun _ _ _ h => by simpa using kept_start h keptR_error)

theorem keptO_execDataBlockAbort (h : Kept a (ledger s)) : KeptO a (execDataBlockAbort hd bh rows s) :=
  keptO_next.2 (kept_arrive h fun _ _ _ h => by simpa using kept_start h keptR_error)

theorem keptO_execTagEntryExpiry (h : Kept a (ledger s)) : KeptO a (execTagEntryExpiry dt mem s) := by simp [execTagEntryExpiry, h]

theorem keptO_execConOverrun (h : Kept a (ledger s)) : KeptO a (execConOverrun dt s) := by
  unfold execConOverrun
  dsimp only
  (repeat' split)
  all_goals simp [h]

theorem keptO_execHello (h : Kept a (ledger s)) : KeptO a (execHello hd s) := kept_noram h fun s h => by simp [h]
theorem keptO_execHelloEcho (h : Kept a (ledger s)) : KeptO a (execHelloEcho hd blk s) := kept_noramBlk h fun p s h => by simp [h]

theorem keptO_execHelp (h : Kept a (ledger s)) : KeptO a (execHelp hd word' s) := by
  unfold execHelp
  refine kept_noram h fun s h => ?_
  (repeat' split)
  all_goals simp [h]

theorem keptO_execIdent (h : Kept a (ledger s)) : KeptO a (execIdent hd s) := kept_noram h fun s h => by simp [h]
theorem keptO_execIdentCert (h : Kept a (ledger s)) : KeptO a (execIdentCert hd s) := kept_noram h fun s h => by simp [h]
theorem keptO_execIdentAttest (h : Kept a (ledger s)) : KeptO a (execIdentAttest hd nonce s) := kept_noram h fun s h => by simp [h]
theorem keptO_execStatus (h : Kept a (ledger s)) : KeptO a (execStatus hd s) := kept_noram h fun s h => by simp [h]
theorem keptO_execStatusMeter (h : Kept a (ledger s)) : KeptO a (execStatusMeter hd s) := kept_noram h fun s h => by simp [h]
theorem keptO_execSelftest (h : Kept a (ledger s)) : KeptO a (execSelftest hd s) := kept_noram h fun s h => by simp [h]
theorem keptO_execTime (h : Kept a (ledger s)) : KeptO a (execTime hd s) := kept_noram h fun s h => by simp [h]
theorem keptO_execMode (h : Kept a (ledger s)) : KeptO a (execMode hd s) := kept_noram h fun s h => by simp [h]
theorem keptO_execModeMachine (h : Kept a (ledger s)) : KeptO a (execModeMachine hd s) := kept_noram h fun s h => by simp [h]
theorem keptO_execModeTyped (h : Kept a (ledger s)) : KeptO a (execModeTyped hd s) := kept_noram h fun s h => by simp [h]

theorem keptO_execModeSeal (h : Kept a (ledger s)) : KeptO a (execModeSeal hd s) := by
  unfold execModeSeal
  refine kept_noram h fun s h => ?_
  dsimp only
  refine keptR_bind.2 fun _ _ => ?_
  split <;> simp [h]

theorem keptO_execModeEcho (h : Kept a (ledger s)) : KeptO a (execModeEcho hd on s) := kept_noram h fun s h => by simp [h]
theorem keptO_execModeXon (h : Kept a (ledger s)) : KeptO a (execModeXon hd on s) := kept_noram h fun s h => by simp [h]
theorem keptO_execModeIdle (h : Kept a (ledger s)) : KeptO a (execModeIdle hd n s) := kept_noram h fun s h => by simp [h]
theorem keptO_execModeBaud (h : Kept a (ledger s)) : KeptO a (execModeBaud hd n s) := kept_noram h fun s h => by simp [h]
theorem keptO_execBaudChangeApply (h : Kept a (ledger s)) : KeptO a (execBaudChangeApply dt s) := by simp [execBaudChangeApply, h]
@[simp] theorem ledger_countFail : ledger (countFail s b) = ledger s := by simp [countFail]
@[simp] theorem ledger_clearFail : ledger (clearFail s b) = ledger s := by simp [clearFail]
theorem keptO_execLogin (h : Kept a (ledger s)) : KeptO a (execLogin hd target s) := kept_noram h fun s h => by simp [h]

theorem keptO_execLoginResp (h : Kept a (ledger s)) : KeptO a (execLoginResp hd a₀ s) := by
  unfold execLoginResp
  refine kept_noram h fun s h => keptR_bind.2 fun _ _ => ?_
  dsimp only
  split <;> simp [h]

@[simp] theorem ledger_flushEvents : ledger (flushEvents s l d) = ledger s := by simp [flushEvents]

@[simp] theorem ledger_takeOver : ledger (takeOver s l r) = ledger s := by
  unfold takeOver
  split <;> simp

theorem keptO_execLoginReply (h : Kept a (ledger s)) : KeptO a (execLoginReply dt line' s) := by
  unfold execLoginReply
  dsimp only
  (repeat' split)
  all_goals simp [h]

theorem keptO_execNonceExpiry (h : Kept a (ledger s)) : KeptO a (execNonceExpiry dt line' s) := by simp [execNonceExpiry, h]

theorem keptO_execLockoutExpiry (h : Kept a (ledger s)) : KeptO a (execLockoutExpiry dt target s) := by
  unfold execLockoutExpiry
  dsimp only
  repeat' split
  all_goals simp [h]

theorem keptO_execLogout (h : Kept a (ledger s)) : KeptO a (execLogout hd s) := kept_noram h fun s h => by simp [h]
theorem keptO_execUsbDtrSet (h : Kept a (ledger s)) : KeptO a (execUsbDtrSet dt n s) := by simp [execUsbDtrSet, h]
theorem keptO_execUsbDtrClear (h : Kept a (ledger s)) : KeptO a (execUsbDtrClear dt n s) := by simp [execUsbDtrClear, h]
theorem keptO_execUsbBusLoss (h : Kept a (ledger s)) : KeptO a (execUsbBusLoss dt s) := by simp [execUsbBusLoss, h]
theorem keptO_execConBreak (h : Kept a (ledger s)) : KeptO a (execConBreak dt s) := by simp [execConBreak, h]

theorem keptO_execIdleTimeout (h : Kept a (ledger s)) : KeptO a (execIdleTimeout dt line' s) := by
  unfold execIdleTimeout
  dsimp only
  (repeat' split)
  all_goals simp [h]

theorem keptO_execSendBlockedTimeout (h : Kept a (ledger s)) : KeptO a (execSendBlockedTimeout dt line' s) := by simp [execSendBlockedTimeout, h]
theorem keptO_execXoffReceived (h : Kept a (ledger s)) : KeptO a (execXoffReceived dt line' s) := by simp [execXoffReceived, h]

theorem keptO_execXonReceived (h : Kept a (ledger s)) : KeptO a (execXonReceived dt line' s) := by
  unfold execXonReceived
  dsimp only
  (repeat' split)
  all_goals simp [h]

@[simp] theorem ledger_lineEnd : ledger (lineEnd s l b) = ledger s := by simp [lineEnd]

theorem keptO_execLineEditing (h : Kept a (ledger s)) : KeptO a (execLineEditing dt line b s) := by
  unfold execLineEditing
  extract_lets s₁ l x echo
  have he : ∀ s t, ledger (echo s t) = ledger s := fun s t => by simp [echo]
  simp [he, s₁, h]

theorem keptO_execEventLineSend (h : Kept a (ledger s)) : KeptO a (execEventLineSend dt line' s) := by simp [execEventLineSend, h]

end Sys2Proof.Machine
end

section
/-! The ledger under the operations of Machine/Sheets.lean: the vat banks: waking, zeroing and writing them. -/

namespace Sys2Proof.Machine

@[simp] theorem ledger_unload : ledger (unload s b) = ledger s := by
  unfold unload
  split <;> simp

@[simp] theorem kept_wakeBank (h : Kept a (ledger s)) : Kept a (ledger (wakeBank s b)) := by
  unfold wakeBank
  dsimp only
  repeat' split
  case h_3 =>
    have hv : (unload s b).vat = s.vat := congrArg Ledger.vat ledger_unload
    simpa using kept_vat (s := unload s b) (by simpa using h) (hv ▸ wf_mzero _ _ _)
  all_goals simp [h]

@[simp] theorem kept_zeroBank (h : Kept a (ledger s)) : Kept a (ledger (zeroBank s b)) := by
  have hv : (unload s b).vat = s.vat := congrArg Ledger.vat ledger_unload
  simpa [zeroBank] using kept_vat (s := unload s b) (by simpa using h) (hv ▸ wf_mzero _ _ _)

@[simp] theorem kept_writeSheet (h : Kept a (ledger s)) : Kept a (ledger (writeSheet s d f pa i x)) :=
  kept_vat (s := modBk s _ _) (by simpa using h) (wf_mputNum _ _ _ _)

@[simp] theorem kept_writeSheets (h : Kept a (ledger s)) : Kept a (ledger (writeSheets s d f first xs)) :=
  kept_foldl h fun _ _ h => kept_writeSheet (kept_wakeBank h)

@[simp] theorem kept_writeOps (h : Kept a (ledger s)) : Kept a (ledger (writeOps s bank a₀ ops)) :=
  kept_vat (s := modBk s _ _) (by simpa using h) (wf_mput _ _ _)

end Sys2Proof.Machine
end

section
/-! The ledger under the operations of Machine/Stores.lean: the control stores. -/

namespace Sys2Proof.Machine

@[simp] theorem kept_storeU (h : Kept a (ledger s)) : Kept a (ledger (storeU s m b n)) :=
  kept_stores (n := s.nst) (np := s.npar) h (wf_storeU s m b n)

@[simp] theorem kept_storeN (h : Kept a (ledger s)) : Kept a (ledger (storeN s m b n)) :=
  kept_stores (u := s.ust) (up := s.upar) h (wf_storeN s m b n)

@[simp] theorem kept_writeStore (h : Kept a (ledger s)) : Kept a (ledger (writeStore s nano a₀ bs)) := by simp [writeStore, h]

@[simp] theorem kept_upset (h : Kept a (ledger s)) : Kept a (ledger (upset s x)) :=
  have he : upset s x = { s with ust := (upset s x).ust, upar := (upset s x).upar, nst := (upset s x).nst, npar := (upset s x).npar } := by
    unfold upset; split <;> split <;> rfl
  he ▸ kept_stores h fun hs => he ▸ wf_upset s x hs

@[simp] theorem kept_writeImage (h : Kept a (ledger s)) : Kept a (ledger (writeImage s x)) := by
  simp +contextual [writeImage, h]

@[simp] theorem kept_writeVendor (h : Kept a (ledger s)) : Kept a (ledger (writeVendor s)) := by
  simp +contextual [writeVendor, h]

@[simp] theorem kept_keepVendor (h : Kept a (ledger s)) : Kept a (ledger (keepVendor s)) :=
  h.trans ⟨rfl, rfl, rfl, le_rfl, le_rfl, fun c => { c with keepU := wf_mslice _ _ _ _ c.ust, keepN := wf_mslice _ _ _ _ c.nst }⟩

@[simp] theorem kept_rewriteVendor (h : Kept a (ledger s)) : Kept a (ledger (rewriteVendor s)) := by simp [rewriteVendor, h]

end Sys2Proof.Machine
end

section
/-! The ledger under the operations of Machine/Arm.lean: arming a deckle. -/

namespace Sys2Proof.Machine

@[simp] theorem ledger_releaseHold : ledger (releaseHold s d) = ledger s := by simp [releaseHold]

@[simp] theorem kept_armBegin (h : Kept a (ledger s)) : Kept a (ledger (armBegin s d)) := by
  unfold armBegin
  extract_lets k fresh f settled t₁ s₁ s₂ s₃ s₄
  have h₂ : Kept a (ledger s₂) := kept_forEach (by simpa [s₁] using h) fun _ _ h => kept_wakeBank h
  have h₃ : Kept a (ledger s₃) := kept_forEach h₂ fun _ _ h => kept_zeroBank h
  simp [s₄, h₃]

@[simp] theorem kept_loadFft (h : Kept a (ledger s)) : Kept a (ledger (loadFft s n c)) := kept_cep (s := s) h (wf_mcopy _ _ _ _ _)
@[simp] theorem kept_clearTmuPad (h : Kept a (ledger s)) : Kept a (ledger (clearTmuPad s n)) := kept_mpad (s := s) h (wf_mzero _ _ _)

@[simp] theorem kept_armUnits (h : Kept a (ledger s)) : Kept a (ledger (armUnits s d)) := by
  unfold armUnits
  extract_lets k f s₁ s₂ s₃ s₄
  have h₂ : Kept a (ledger s₂) := kept_forEach (by simpa [s₁] using h) fun _ _ h => by simpa using kept_loadFft h
  exact kept_forEach (by simpa [s₄, s₃] using h₂) fun _ _ h => kept_tmuWindow (by simpa using kept_clearTmuPad h)

@[simp] theorem kept_armEnd (h : Kept a (ledger s)) : Kept a (ledger (armEnd s d)) := by
  unfold armEnd
  split <;> simp [h]

@[simp] theorem kept_warmArm (h : Kept a (ledger s)) : Kept a (ledger (warmArm s d)) := by
  unfold warmArm
  dsimp only
  (repeat' split)
  all_goals simp [h]

@[simp] theorem ledger_enterState : ledger (enterState s st fields) = ledger s := by simp [enterState]

@[simp] theorem kept_enterReady (h : Kept a (ledger s)) : Kept a (ledger (enterReady s fields)) := by
  simp +contextual [enterReady, h]

@[simp] theorem kept_setWarm (h : Kept a (ledger s)) : Kept a (ledger (setWarm s b)) := by
  unfold setWarm
  extract_lets m s₁
  have h₁ : Kept a (ledger s₁) := h
  simp [h₁]

end Sys2Proof.Machine
end

section
/-! The ledger under the operations of Machine/Timing.lean: module states and timing sets. -/

namespace Sys2Proof.Machine

theorem keptO_execTsetCount (h : Kept a (ledger s)) : KeptO a (execTsetCount hd n s) := by
  unfold execTsetCount
  refine kept_noram h fun s h => ?_
  simp
  intros
  exact keptR_edit h _ _ ‹_›

theorem keptO_execTsetPeriod (h : Kept a (ledger s)) : KeptO a (execTsetPeriod hd i v s) := by
  unfold execTsetPeriod
  refine kept_noram h fun s h => ?_
  simp
  intros
  exact keptR_edit h _ _ ‹_›

theorem keptO_execTsetPinFields (h : Kept a (ledger s)) : KeptO a (execTsetPinFields hd i l f s) := by
  unfold execTsetPinFields
  refine kept_noram h fun s h => ?_
  simp
  intros
  exact keptR_edit h _ _ ‹_›

theorem keptO_execTsetCopy (h : Kept a (ledger s)) : KeptO a (execTsetCopy hd i r s) := by
  unfold execTsetCopy
  refine kept_noram h fun s h => ?_
  simp
  intros
  exact keptR_edit h _ _ ‹_›

theorem keptO_execTsetShow (h : Kept a (ledger s)) : KeptO a (execTsetShow hd i l s) := kept_noram h fun s h => by simp [h]

theorem keptO_execTsetDeskew (h : Kept a (ledger s)) : KeptO a (execTsetDeskew hd l f s) := by
  unfold execTsetDeskew
  refine kept_noram h fun s h => ?_
  simp
  intros
  exact keptR_edit h _ _ ‹_›

theorem keptO_execTsetDeskewMeasure (h : Kept a (ledger s)) : KeptO a (execTsetDeskewMeasure hd l s) := kept_noram h fun s h => by simp [h]

theorem keptO_execDeskewMeasureComplete (h : Kept a (ledger s)) : KeptO a (execDeskewMeasureComplete dt d res s) := by
  unfold execDeskewMeasureComplete
  dsimp only
  (repeat' split)
  all_goals simp [h]

theorem keptO_execTsetDeskewShow (h : Kept a (ledger s)) : KeptO a (execTsetDeskewShow hd s) := kept_noram h fun s h => by simp [h]

theorem keptO_execFDll (h : Kept a (ledger s)) : KeptO a (execFDll dt ch s) := by
  unfold execFDll
  dsimp only
  (repeat' split)
  all_goals simp [h]

theorem keptO_execDllLocked (h : Kept a (ledger s)) : KeptO a (execDllLocked dt ch s) := by
  unfold execDllLocked
  dsimp only
  (repeat' split)
  all_goals simp [h]

end Sys2Proof.Machine
end

section
/-! The ledger under the operations of Machine/FrontEnd.lean: the pin front end. -/

namespace Sys2Proof.Machine

theorem keptO_execPinName (h : Kept a (ledger s)) : KeptO a (execPinName hd ch name s) := by
  unfold execPinName
  refine kept_noram h fun s h => ?_
  simp
  intros
  exact keptR_edit h _ _ ‹_›

theorem keptO_execPinRest (h : Kept a (ledger s)) : KeptO a (execPinRest hd l r s) := by
  unfold execPinRest
  refine kept_noram h fun s h => ?_
  simp
  intros
  exact keptR_edit h _ _ ‹_›

theorem keptO_execPinShow (h : Kept a (ledger s)) : KeptO a (execPinShow hd l s) := kept_noram h fun s h => by simp [h]

theorem keptO_execLevel (h : Kept a (ledger s)) : KeptO a (execLevel hd l f s) := by
  unfold execLevel
  refine kept_noram h fun s h => ?_
  simp
  intros
  exact keptR_edit h _ _ ‹_›

theorem keptO_execLevelPmu (h : Kept a (ledger s)) : KeptO a (execLevelPmu hd l f s) := by
  unfold execLevelPmu
  refine kept_noram h fun s h => ?_
  simp
  intros
  exact keptR_edit h _ _ ‹_›

theorem keptO_execLevelShow (h : Kept a (ledger s)) : KeptO a (execLevelShow hd l s) := kept_noram h fun s h => by simp [h]
@[simp] theorem ledger_levelUpdate : ledger (levelUpdate s t) = ledger s := by simp [levelUpdate]

theorem keptO_execLevelTick (h : Kept a (ledger s)) : KeptO a (execLevelTick dt s) := by
  unfold execLevelTick
  dsimp only
  (repeat' split)
  all_goals simp [h]

theorem keptO_execRangeDwellEnd (h : Kept a (ledger s)) : KeptO a (execRangeDwellEnd dt ch s) := by simp [execRangeDwellEnd, h]
theorem keptO_execPmuReconnectEnd (h : Kept a (ledger s)) : KeptO a (execPmuReconnectEnd dt ch s) := by simp [execPmuReconnectEnd, h]

theorem keptO_execFPinDrvi (h : Kept a (ledger s)) : KeptO a (execFPinDrvi dt ch s) := by
  unfold execFPinDrvi
  dsimp only
  (repeat' split)
  all_goals simp [h]

theorem keptO_execPmuClampLimit (h : Kept a (ledger s)) : KeptO a (execPmuClampLimit dt ch released' s) := by
  unfold execPmuClampLimit
  dsimp only
  (repeat' split)
  all_goals simp [h]

theorem keptO_execFeWarm (h : Kept a (ledger s)) : KeptO a (execFeWarm dt fe s) := by simp [execFeWarm, h]

theorem keptO_execFPinHot (h : Kept a (ledger s)) : KeptO a (execFPinHot dt fe s) := by
  simp +contextual [execFPinHot, h]

end Sys2Proof.Machine
end

section
/-! The ledger under the operations of Machine/DpsCmd.lean: the DPS channels and the learning memory. -/

namespace Sys2Proof.Machine

theorem keptO_execDpsFields (h : Kept a (ledger s)) : KeptO a (execDpsFields hd n f s) := by
  unfold execDpsFields
  refine kept_noram h fun s h => ?_
  simp
  intros
  exact keptR_edit h _ _ ‹_›

theorem keptO_execDpsMatrix (h : Kept a (ledger s)) : KeptO a (execDpsMatrix hd n m v s) := by
  unfold execDpsMatrix
  refine kept_noram h fun s h => ?_
  simp
  intros
  exact keptR_edit h _ _ ‹_›

theorem keptO_execDpsFftable (h : Kept a (ledger s)) : KeptO a (execDpsFftable hd n i blk s) := by
  unfold execDpsFftable
  refine kept_noramBlk h fun p s h => ?_
  simp
  intros
  exact keptR_edit h _ _ ‹_›

theorem keptO_execDpsShow (h : Kept a (ledger s)) : KeptO a (execDpsShow hd n s) := kept_noram h fun s h => by simp [h]

theorem keptO_execLearnParams (h : Kept a (ledger s)) : KeptO a (execLearnParams hd n f s) := by
  unfold execLearnParams
  refine kept_noram h fun s h => ?_
  split
  · simp
  · simp
    intros
    exact keptR_edit h _ _ ‹_›

theorem keptO_execLearnRead (h : Kept a (ledger s)) : KeptO a (execLearnRead hd n s) := kept_noram h fun s h => by simp [h]

theorem keptO_execLearnLoad (h : Kept a (ledger s)) : KeptO a (execLearnLoad hd n blk s) := by
  unfold execLearnLoad
  refine kept_noramBlk h fun p s h => ?_
  simp only [keptR_bind, keptR_answer_ok]
  intros
  exact kept_cep (s := s) h (wf_mput _ _ _)

theorem keptO_execLearnClear (h : Kept a (ledger s)) : KeptO a (execLearnClear hd n s) := by
  unfold execLearnClear
  refine kept_noram h fun s h => ?_
  simp only [keptR_bind, keptR_answer_ok]
  intros
  exact kept_cep (s := s) h (wf_mzero _ _ _)

@[simp] theorem ledger_targetNow : ledger (targetNow s n v t).1 = ledger s := by simp [targetNow]

@[simp] theorem keptR_runTarget (h : Kept a (ledger s)) : KeptR a (runTarget s d n v t) := by
  refine keptR_bind.2 fun q _ => keptR_bind.2 fun _ _ => ?_
  split
  · simp [h]
  · exact keptR_bind_state (keptR_edit h) fun _ _ h => keptR_answer_ok.2 h

theorem keptO_execDpsTarget (h : Kept a (ledger s)) : KeptO a (execDpsTarget hd n v s) := kept_noram h fun s h => by simp [h]

@[simp] theorem keptR_runFfofs (h : Kept a (ledger s)) : KeptR a (runFfofs s d n v) := by
  refine keptR_bind.2 fun q _ => keptR_bind.2 fun _ _ => ?_
  split
  · simp [h]
  · exact keptR_bind_state (keptR_edit h) fun _ _ h => keptR_answer_ok.2 h

theorem keptO_execDpsFfofs (h : Kept a (ledger s)) : KeptO a (execDpsFfofs hd n v s) := kept_noram h fun s h => by simp [h]
theorem keptO_execDpsRead (h : Kept a (ledger s)) : KeptO a (execDpsRead hd n s) := kept_noram h fun s h => by simp [h]

@[simp] theorem ledger_cmdFfofs : ledger (cmdFfofs s d n) = ledger s := by
  unfold cmdFfofs
  split <;> simp

theorem keptO_execControlPeriod (h : Kept a (ledger s)) : KeptO a (execControlPeriod dt n m s) := by
  unfold execControlPeriod
  extract_lets s₁ n t d s₂ x c vs io q clamp s₃ xh e₀ e₁ s₄ frozen
  have h₁ : Kept a (ledger s₁) := kept_advance h
  have h₃ : Kept a (ledger s₃) := by simp [s₃, s₂, h₁]
  have h₄ : Kept a (ledger s₄) := by simp [s₄, h₃]
  refine (keptO_ite _).2 ⟨fun _ => keptO_next.2 h₁, fun _ => ?_⟩
  rcases feedForward s₂ d n x q with ⟨f, _ | ⟨p, len⟩⟩
  · simp [h₃, h₄]
  · have h₅ : ∀ v, Kept a (ledger { s₃ with cep := mputNum s₃.cep (learnBase n + 4 * (p % 4096)) 4 v }) := fun _ =>
      kept_cep (s := s₃) h₃ (wf_mputNum _ _ _ _)
    simp only [ledger_mk] at h₅
    simp [h₃, h₄, h₅]

@[simp] theorem kept_dpsFault (h : Kept a (ledger s)) : Kept a (ledger (dpsFault s n hot cause)) := by
  unfold dpsFault
  dsimp only
  (repeat' split)
  all_goals simp [h]

theorem keptO_execFDpsOv (h : Kept a (ledger s)) : KeptO a (execFDpsOv dt n s) := by
  unfold execFDpsOv
  dsimp only
  (repeat' split)
  all_goals simp [h]

theorem keptO_execFDpsHot (h : Kept a (ledger s)) : KeptO a (execFDpsHot dt n s) := by
  unfold execFDpsHot
  dsimp only
  (repeat' split)
  all_goals simp [h]

theorem keptO_execDpsClampLimit (h : Kept a (ledger s)) : KeptO a (execDpsClampLimit dt n released' s) := by
  unfold execDpsClampLimit
  dsimp only
  (repeat' split)
  all_goals simp [h]

theorem keptO_execDpsRangeDwellEnd (h : Kept a (ledger s)) : KeptO a (execDpsRangeDwellEnd dt n s) := by simp [execDpsRangeDwellEnd, h]

end Sys2Proof.Machine
end

section
/-! The ledger under the operations of Machine/Starts.lean: starts of instruments, deckles and groups. -/

namespace Sys2Proof.Machine

@[simp] theorem ledger_auxStartAt : ledger (auxStartAt s n t) = ledger s := by simp [auxStartAt]
@[simp] theorem ledger_auxHaltAt : ledger (auxHaltAt s n t) = ledger s := by simp [auxHaltAt]

@[simp] theorem ledger_mkRise : ledger (mkRise s n t) = ledger s := by
  unfold mkRise
  split <;> simp

@[simp] theorem ledger_auxMark : ledger (auxMark s n) = ledger s := by simp [auxMark]
@[simp] theorem ledger_adcStartAt : ledger (adcStartAt s n t) = ledger s := by simp [adcStartAt]
@[simp] theorem kept_tmuStartAt (h : Kept a (ledger s)) : Kept a (ledger (tmuStartAt s d n t)) := by simp [tmuStartAt, h]
@[simp] theorem ledger_tmuHaltNow : ledger (tmuHaltNow s n) = ledger s := by simp [tmuHaltNow]

@[simp] theorem kept_startUnits (h : Kept a (ledger s)) : Kept a (ledger (startUnits s d src' t)) := by
  simp +contextual [startUnits, h]

@[simp] theorem ledger_trigOutRise : ledger (trigOutRise s d m fine) = ledger s := by simp [trigOutRise]
@[simp] theorem kept_raiseMark (h : Kept a (ledger s)) : Kept a (ledger (raiseMark s d m fine)) := by simp [raiseMark, h]
@[simp] theorem ledger_startTimers : ledger (startTimers s d start') = ledger s := by simp [startTimers]
@[simp] theorem ledger_beginRun : ledger (beginRun s d start' trig) = ledger s := by simp [beginRun]

@[simp] theorem kept_groupStart (h : Kept a (ledger s)) : Kept a (ledger (groupStart s g arg fine)) :=
  kept_forEach h fun _ _ h => by simp [h]

@[simp] theorem kept_stampGroup (h : Kept a (ledger s)) : Kept a (ledger (stampGroup s g t fine)) := kept_groupStart h
@[simp] theorem keptR_runNow (h : Kept a (ledger s)) : KeptR a (runNow s d t) := by simp [runNow, h]

@[simp] theorem keptR_trigNow (h : Kept a (ledger s)) : KeptR a (trigNow s d t) := by
  refine keptR_bind.2 fun _ _ => ?_
  split <;> simp [h]

end Sys2Proof.Machine
end

section
/-! The ledger under the operations of Machine/AuxCmd.lean: the AUX generators. -/

namespace Sys2Proof.Machine

theorem keptO_execAuxFields (h : Kept a (ledger s)) : KeptO a (execAuxFields hd n f s) := by
  unfold execAuxFields
  refine kept_noram h fun s h => ?_
  refine keptR_bind.2 fun g _ => keptR_bind.2 fun _ _ => keptR_bind.2 fun d _ => ?_
  dsimp only
  split
  · exact keptR_bind_state (keptR_editList h) fun _ _ h => keptR_answer_ok.2 h
  · exact keptR_bind_state (keptR_edit h) fun _ _ h => keptR_answer_ok.2 h

theorem keptO_execAuxEntry (h : Kept a (ledger s)) : KeptO a (execAuxEntry hd n i f s) := by
  unfold execAuxEntry
  refine kept_noram h fun s h => ?_
  simp
  intros
  exact keptR_editList h _ _ ‹_›

theorem keptO_execAuxListWrite (h : Kept a (ledger s)) : KeptO a (execAuxListWrite hd n i blk s) := by
  unfold execAuxListWrite
  refine kept_noramBlk h fun p s h => ?_
  simp
  intros
  exact keptR_editList h _ _ ‹_›

theorem keptO_execAuxListRead (h : Kept a (ledger s)) : KeptO a (execAuxListRead hd n i k s) := kept_noram h fun s h => by simp [h]
theorem keptO_execAuxShow (h : Kept a (ledger s)) : KeptO a (execAuxShow hd n s) := kept_noram h fun s h => by simp [h]
@[simp] theorem keptR_playNow (h : Kept a (ledger s)) : KeptR a (playNow s d n t due) := by simp [playNow, h]
@[simp] theorem keptR_haltNow (h : Kept a (ledger s)) : KeptR a (haltNow s d n t) := by simp [haltNow, h]
theorem keptO_execAuxPlay (h : Kept a (ledger s)) : KeptO a (execAuxPlay hd n s) := kept_noram h fun s h => by simp [h]
theorem keptO_execAuxHalt (h : Kept a (ledger s)) : KeptO a (execAuxHalt hd n s) := kept_noram h fun s h => by simp [h]
theorem keptO_execAuxRead (h : Kept a (ledger s)) : KeptO a (execAuxRead hd n s) := kept_noram h fun s h => by simp [h]

@[simp] theorem ledger_auxStartDue : ledger (auxStartDue s n t) = ledger s := by
  unfold auxStartDue
  dsimp only
  split <;> simp

theorem keptO_execAuxStartTick (h : Kept a (ledger s)) : KeptO a (execAuxStartTick dt n s) := by simp [execAuxStartTick, h]
theorem keptO_execAuxEntryBoundary (h : Kept a (ledger s)) : KeptO a (execAuxEntryBoundary dt n s) := by simp [execAuxEntryBoundary, h]

theorem keptO_execAuxListEnd (h : Kept a (ledger s)) : KeptO a (execAuxListEnd dt n s) := by
  unfold execAuxListEnd
  dsimp only
  (repeat' split)
  all_goals simp [h]

theorem keptO_execMkFall (h : Kept a (ledger s)) : KeptO a (execMkFall dt n s) := by simp [execMkFall, h]
theorem keptO_execAuxSpanDwellEnd (h : Kept a (ledger s)) : KeptO a (execAuxSpanDwellEnd dt n s) := by simp [execAuxSpanDwellEnd, h]

end Sys2Proof.Machine
end

section
/-! The ledger under the operations of Machine/AdcCmd.lean: the converters. -/

namespace Sys2Proof.Machine

theorem keptO_execAdcFields (h : Kept a (ledger s)) : KeptO a (execAdcFields hd n f s) := by
  unfold execAdcFields
  refine kept_noram h fun s h => ?_
  simp
  intros
  exact keptR_edit h _ _ ‹_›

theorem keptO_execAdcEntry (h : Kept a (ledger s)) : KeptO a (execAdcEntry hd n i f s) := by
  unfold execAdcEntry
  refine kept_noram h fun s h => ?_
  simp
  intros
  exact keptR_edit h _ _ ‹_›

theorem keptO_execAdcSources (h : Kept a (ledger s)) : KeptO a (execAdcSources hd s) := kept_noram h fun s h => by simp [h]
theorem keptO_execAdcShow (h : Kept a (ledger s)) : KeptO a (execAdcShow hd n s) := kept_noram h fun s h => by simp [h]
@[simp] theorem keptR_adcStartNow (h : Kept a (ledger s)) : KeptR a (adcStartNow s d n t) := by simp [adcStartNow, h]
theorem keptO_execAdcStart (h : Kept a (ledger s)) : KeptO a (execAdcStart hd n s) := kept_noram h fun s h => by simp [h]
theorem keptO_execAdcResults (h : Kept a (ledger s)) : KeptO a (execAdcResults hd n k s) := kept_noram h fun s h => by simp [h]
theorem keptO_execAdcRead (h : Kept a (ledger s)) : KeptO a (execAdcRead hd n k s) := kept_noram h fun s h => by simp [h]
theorem keptO_execAdcStatus (h : Kept a (ledger s)) : KeptO a (execAdcStatus hd n s) := kept_noram h fun s h => by simp [h]

theorem keptO_execAdcTimerTick (h : Kept a (ledger s)) : KeptO a (execAdcTimerTick dt n s) := by
  unfold execAdcTimerTick
  dsimp only
  (repeat' split)
  all_goals simp [h]

@[simp] theorem ledger_adcStartDue : ledger (adcStartDue s n t) = ledger s := by simp [adcStartDue]
theorem keptO_execAdcScanStart (h : Kept a (ledger s)) : KeptO a (execAdcScanStart dt n s) := by simp [execAdcScanStart, h]

theorem keptO_execAdcConversionDone (h : Kept a (ledger s)) : KeptO a (execAdcConversionDone dt n m s) := by
  unfold execAdcConversionDone
  dsimp only
  split <;> simp [h]

end Sys2Proof.Machine
end

section
/-! The ledger under the operations of Machine/Slots.lean: furnish slots and restores. -/

namespace Sys2Proof.Machine

@[simp] theorem kept_setSeal (h : Kept a (ledger s)) : Kept a (ledger (setSeal s d)) := by simp [setSeal, h]
@[simp] theorem ledger_slotSeal : ledger (slotSeal s d n x) = ledger s := by simp [slotSeal]
@[simp] theorem ledger_loadSeal : ledger (loadSeal s d x) = ledger s := by simp [loadSeal]
@[simp] theorem ledger_dropSlot : ledger (dropSlot s n) = ledger s := by simp [dropSlot]
@[simp] theorem ledger_slotDone : ledger (slotDone s n) = ledger s := by simp [slotDone]

@[simp] theorem kept_loadSlot (h : Kept a (ledger s)) : Kept a (ledger (loadSlot s d x)) := by
  unfold loadSlot
  extract_lets banks s₁
  have h₁ : Kept a (ledger s₁) := kept_forEach h fun s b h => by
    simpa using kept_vat (s := wakeBank s b) (kept_wakeBank h) (wf_mcopy _ _ _ _ _)
  simp [h₁]

@[simp] theorem kept_beginRestore (h : Kept a (ledger s)) : Kept a (ledger (beginRestore s d)) := by
  unfold beginRestore
  dsimp only
  (repeat' split)
  all_goals simp [h]

@[simp] theorem kept_endRestore (h : Kept a (ledger s)) : Kept a (ledger (endRestore s d)) := by
  unfold endRestore
  dsimp only
  (repeat' split)
  all_goals simp [h]

end Sys2Proof.Machine
end

section
/-! The ledger under the operations of Machine/TmuCmd.lean: the time measurement units. -/

namespace Sys2Proof.Machine

theorem keptO_execTmuFields (h : Kept a (ledger s)) : KeptO a (execTmuFields hd n f s) := by
  unfold execTmuFields
  refine kept_noram h fun s h => ?_
  simp
  intros
  exact keptR_edit h _ _ ‹_›

theorem keptO_execTmuShow (h : Kept a (ledger s)) : KeptO a (execTmuShow hd n s) := kept_noram h fun s h => by simp [h]
@[simp] theorem keptR_tmuStartNow (h : Kept a (ledger s)) : KeptR a (tmuStartNow s d n t) := by simp [tmuStartNow, h]
@[simp] theorem keptR_tmuHaltCmd (h : Kept a (ledger s)) : KeptR a (tmuHaltCmd s d n) := by simp [tmuHaltCmd, h]
theorem keptO_execTmuStart (h : Kept a (ledger s)) : KeptO a (execTmuStart hd n s) := kept_noram h fun s h => by simp [h]
theorem keptO_execTmuHalt (h : Kept a (ledger s)) : KeptO a (execTmuHalt hd n s) := kept_noram h fun s h => by simp [h]
theorem keptO_execTmuClear (h : Kept a (ledger s)) : KeptO a (execTmuClear hd n s) := kept_noram h fun s h => by simp [h]
theorem keptO_execTmuStat (h : Kept a (ledger s)) : KeptO a (execTmuStat hd n s) := kept_noram h fun s h => by simp [h]
theorem keptO_execTmuResults (h : Kept a (ledger s)) : KeptO a (execTmuResults hd n k s) := kept_noram h fun s h => by simp [h]
theorem keptO_execTmuRead (h : Kept a (ledger s)) : KeptO a (execTmuRead hd n k s) := kept_noram h fun s h => by simp [h]
theorem keptO_execTmuStatus (h : Kept a (ledger s)) : KeptO a (execTmuStatus hd n s) := kept_noram h fun s h => by simp [h]

@[simp] theorem kept_tmuFault (h : Kept a (ledger s)) : Kept a (ledger (tmuFault s n cause)) := by
  unfold tmuFault
  dsimp only
  (repeat' split)
  all_goals simp [h]

@[simp] theorem kept_checkEdge (h : Kept a (ledger s)) : Kept a (ledger (checkEdge s n chB d?)) := by
  unfold checkEdge
  split <;> simp [h]

theorem keptO_execFTmuLock (h : Kept a (ledger s)) : KeptO a (execFTmuLock dt n s) := by
  unfold execFTmuLock
  dsimp only
  (repeat' split)
  all_goals simp [h]

theorem keptO_execTmuRelock (h : Kept a (ledger s)) : KeptO a (execTmuRelock dt n s) := by
  unfold execTmuRelock
  dsimp only
  (repeat' split)
  all_goals simp [h]

theorem keptO_execTmuStartEdge (h : Kept a (ledger s)) : KeptO a (execTmuStartEdge dt n t di s) := by
  unfold execTmuStartEdge
  dsimp only
  (repeat' split)
  all_goals simp [h]

@[simp] theorem kept_tmuEnded (h : Kept a (ledger s)) : Kept a (ledger (tmuEnded s d n next' tb)) := by simp [tmuEnded, h]
@[simp] theorem kept_tmuKeep (h : Kept a (ledger s)) : Kept a (ledger (tmuKeep s d n r)) := by simp [tmuKeep, h]

theorem keptO_execTmuStopEdge (h : Kept a (ledger s)) : KeptO a (execTmuStopEdge dt n t di s) := by
  unfold execTmuStopEdge
  extract_lets s₁ n x
  split
  · split
    · simp [s₁, h]
    · extract_lets v s₂ s₃ s₄
      have h₃ : Kept a (ledger s₃) := kept_tmuKeep (by simp [s₂, s₁, h])
      have h₄ : Kept a (ledger s₄) := by simp [s₄, h₃]
      simp [h₄]
  · simp [s₁, h]

theorem keptO_execTmuTimeout (h : Kept a (ledger s)) : KeptO a (execTmuTimeout dt n s) := by
  unfold execTmuTimeout
  extract_lets s₁ n x limit
  have h₁ : Kept a (ledger s₁) := kept_advance h
  cases measuring s₁ n false with
  | none => exact keptO_next.2 h₁
  | some d =>
    have h₂ : Kept a (ledger (draw s₁).2) := kept_draw h₁
    simp [h₁, h₂]

theorem keptO_execTmuFreqStamp (h : Kept a (ledger s)) : KeptO a (execTmuFreqStamp dt n k t di s) := by
  unfold execTmuFreqStamp
  dsimp only
  (repeat' split)
  all_goals simp [h]

theorem keptO_execTmuGateClose (h : Kept a (ledger s)) : KeptO a (execTmuGateClose dt n s) := by
  unfold execTmuGateClose
  extract_lets s₁ n x
  have h₁ : Kept a (ledger s₁) := kept_advance h
  cases measuring s₁ n true with
  | none => exact keptO_next.2 h₁
  | some d =>
    have h₂ : Kept a (ledger (draw s₁).2) := kept_draw h₁
    have h₃ : ∀ {s}, Kept a (ledger s) → ∀ f, Kept a (ledger (tmuWindow (modTmu s n f) n)) := fun h f => kept_tmuWindow (by simp [h])
    simp [h₁, h₂, h₃]

end Sys2Proof.Machine
end

section
/-! The ledger under the operations of Machine/Run.lean: ARM, RUN, TRIG, PRESS and STOP. -/

namespace Sys2Proof.Machine

@[simp] theorem keptR_armNow (h : Kept a (ledger s)) : KeptR a (armNow s d) := by simp [armNow, h]
theorem keptO_execArm (h : Kept a (ledger s)) : KeptO a (execArm hd s) := kept_noram h fun s h => by simp [h]
theorem keptO_execArmComplete (h : Kept a (ledger s)) : KeptO a (execArmComplete dt d s) := by simp [execArmComplete, h]
theorem keptO_execRun (h : Kept a (ledger s)) : KeptO a (execRun hd s) := kept_noram h fun s h => by simp [h]
theorem keptO_execTrig (h : Kept a (ledger s)) : KeptO a (execTrig hd s) := kept_noram h fun s h => by simp [h]

@[simp] theorem kept_applyStaged (h : Kept a (ledger s)) : Kept a (ledger (applyStaged s d rows)) := by
  unfold applyStaged
  split <;> simp [h]

@[simp] theorem kept_mergeShadow (h : Kept a (ledger s)) : Kept a (ledger (mergeShadow s d)) := by
  simp +contextual [mergeShadow, h]

@[simp] theorem keptR_pressNow (h : Kept a (ledger s)) : KeptR a (pressNow s d) := by
  refine keptR_bind.2 fun _ _ => keptR_bind.2 fun _ _ => ?_
  dsimp only
  split
  · simp
  · split <;> simp [h]

theorem keptO_execPress (h : Kept a (ledger s)) : KeptO a (execPress hd s) := kept_noram h fun s h => by simp [h]

@[simp] theorem kept_commitPress (h : Kept a (ledger s)) : Kept a (ledger (commitPress s d b f).1) := by
  simp +contextual [commitPress, h]

@[simp] theorem kept_endPlays (h : Kept a (ledger s)) : Kept a (ledger (endPlays s d)) := by
  refine kept_foldl h fun s j h => ?_
  split
  · dsimp only
    split
    · next hr => simpa using keptR_playNow (by exact h) _ _ hr
    · next hr => exact keptR_playNow (by exact h) _ _ hr
    · simpa using h
  · exact h

@[simp] theorem kept_applyPress (h : Kept a (ledger s)) : Kept a (ledger (applyPress s d b)) := by
  unfold applyPress
  split <;> simp [h]

@[simp] theorem kept_pressDue (h : Kept a (ledger s)) : Kept a (ledger (pressDue s d)) := by
  unfold pressDue
  split <;> simp [h]

theorem keptO_execPressBoundary (h : Kept a (ledger s)) : KeptO a (execPressBoundary dt d s) := by
  unfold execPressBoundary
  dsimp only
  (repeat' split)
  all_goals simp [h]

theorem keptO_execPressNoboundary (h : Kept a (ledger s)) : KeptO a (execPressNoboundary dt d s) := by
  unfold execPressNoboundary
  extract_lets s₁ k
  have h₁ : Kept a (ledger s₁) := by simp [s₁, h]
  split
  · simp [h₁]
  · simp [h₁]

@[simp] theorem kept_stopArmed (h : Kept a (ledger s)) : Kept a (ledger (stopArmed s d)) := by simp [stopArmed, h]
@[simp] theorem keptR_stopNow (h : Kept a (ledger s)) : KeptR a (stopNow s d) := by simp [stopNow, h]
theorem keptO_execStop (h : Kept a (ledger s)) : KeptO a (execStop hd s) := kept_noramFirst h fun s h => by simp [h]
@[simp] theorem ledger_stopArming : ledger (stopArming s d) = ledger s := by simp [stopArming]

@[simp] theorem keptR_stopOffNow (h : Kept a (ledger s)) : KeptR a (stopOffNow s d) := by
  unfold stopOffNow
  dsimp only
  (repeat' split)
  all_goals simp [h]

theorem keptO_execStopOff (h : Kept a (ledger s)) : KeptO a (execStopOff hd s) := kept_noramFirst h fun s h => by simp [h]

theorem keptO_execStopOffComplete (h : Kept a (ledger s)) : KeptO a (execStopOffComplete dt d s) := by
  unfold execStopOffComplete
  extract_lets s₁ d k s₂ merged s₃ fin s₄ s₅
  have h₁ : Kept a (ledger s₁) := kept_advance h
  have h₃ : Kept a (ledger s₃) := by simp [s₃, s₂, h₁]
  simp [s₅, s₄, h₃, h₁]

end Sys2Proof.Machine
end

section
/-! The ledger under the operations of Machine/Furnishes.lean: the FURNISH commands. -/

namespace Sys2Proof.Machine

theorem keptO_execFurnishSeal (h : Kept a (ledger s)) : KeptO a (execFurnishSeal hd s) := by
  unfold execFurnishSeal
  refine kept_noram h fun s h => keptR_bind.2 fun _ _ => keptR_bind.2 fun _ _ => ?_
  split <;> simp [h]

theorem keptO_execFurnishLoad (h : Kept a (ledger s)) : KeptO a (execFurnishLoad hd n s) := by
  unfold execFurnishLoad
  refine kept_noram h fun s h => keptR_bind.2 fun _ _ => keptR_bind.2 fun _ _ => keptR_bind.2 fun _ _ => keptR_bind.2 fun _ _ => ?_
  dsimp only
  split <;> simp [h]

theorem keptO_execFurnishSave (h : Kept a (ledger s)) : KeptO a (execFurnishSave hd n s) := kept_noram h fun s h => by simp [h]

theorem keptO_execFurnishSaveComplete (h : Kept a (ledger s)) : KeptO a (execFurnishSaveComplete dt d s) := by
  unfold execFurnishSaveComplete
  dsimp only
  (repeat' split)
  all_goals simp [h]

theorem keptO_execFurnishStart (h : Kept a (ledger s)) : KeptO a (execFurnishStart hd n s) := by
  unfold execFurnishStart
  refine kept_noram h fun s h => ?_
  (repeat' split)
  all_goals simp [h]

theorem keptO_execFurnishDrop (h : Kept a (ledger s)) : KeptO a (execFurnishDrop hd n s) := kept_noram h fun s h => by simp [h]
theorem keptO_execFurnishSlots (h : Kept a (ledger s)) : KeptO a (execFurnishSlots hd s) := kept_noram h fun s h => by simp [h]

theorem keptO_execFurnishSet (h : Kept a (ledger s)) : KeptO a (execFurnishSet hd f s) := by
  unfold execFurnishSet
  refine kept_noram h fun s h => keptR_bind.2 fun _ _ => ?_
  dsimp only
  split
  · simp
  · exact keptR_bind.2 fun _ _ => keptR_bind.2 fun _ _ => keptR_bind_state (keptR_edit h) fun _ _ h => keptR_answer_ok.2 h

theorem keptO_execFurnishRevert (h : Kept a (ledger s)) : KeptO a (execFurnishRevert hd s) := kept_noram h fun s h => by simp [h]

@[simp] theorem kept_shown (h : Kept a (ledger s)) : Kept a (ledger (shown s d shadow)) := by
  simp +contextual [shown, h]

theorem keptO_execFurnishShow (h : Kept a (ledger s)) : KeptO a (execFurnishShow hd sect shadow s) := kept_noram h fun s h => by simp +contextual [h]

end Sys2Proof.Machine
end

section
/-! The ledger under the operations of Machine/Placing.lean: the placing of a quire and its results. -/

namespace Sys2Proof.Machine

@[simp] theorem ledger_driveQuire : ledger (driveQuire s d f xs) = ledger s := by simp [driveQuire]
@[simp] theorem ledger_pushBroke : ledger (pushBroke s d r) = ledger s := by simp [pushBroke]
@[simp] theorem ledger_pushCapture : ledger (pushCapture s d r) = ledger s := by simp [pushCapture]
@[simp] theorem ledger_countPins : ledger (countPins s d l) = ledger s := by simp [countPins]

@[simp] theorem ledger_countSheet : ledger (countSheet s d) = ledger s := by
  unfold countSheet
  dsimp only
  split <;> simp

@[simp] theorem ledger_failOutRise : ledger (failOutRise s d l) = ledger s := by simp [failOutRise]

@[simp] theorem kept_sheetResults (h : Kept a (ledger s)) : Kept a (ledger (sheetResults s d f q unrec obs x).1) := by
  unfold sheetResults
  dsimp only
  (repeat' split)
  all_goals simp [h]

@[simp] theorem kept_quireResults (h : Kept a (ledger s)) : Kept a (ledger (quireResults s d f q unrec obs xs).1) := by
  unfold quireResults
  exact List.foldlRecOn xs _ (motive := fun p : State × Bool × Bool => Kept a (ledger p.1)) h fun _ h _ _ => kept_sheetResults h

@[simp] theorem kept_quireMarks (h : Kept a (ledger s)) : Kept a (ledger (quireMarks s d q xs)) :=
  kept_foldl h fun s m h => by split <;> simp [h]

@[simp] theorem kept_placeQuire (h : Kept a (ledger s)) : Kept a (ledger (placeQuire s d f q obs)) := by simp [placeQuire, h]

end Sys2Proof.Machine
end

section
/-! The ledger under the operations of Machine/Power.lean: power, starts, SAFE and WARM. -/

namespace Sys2Proof.Machine

@[simp] theorem kept_restart (h : Kept a (ledger s)) : Kept a (ledger (restart s)) :=
  h.trans ⟨rfl, rfl, rfl, le_rfl, le_rfl, fun _ => ⟨wf_nil, wf_nil, wf_nil, wf_nil, wf_nil, wf_nil, wf_nil, wf_nil, wf_nil, wf_nil⟩⟩

@[simp] theorem kept_goDark (h : Kept a (ledger s)) : Kept a (ledger (goDark s)) := by simp [goDark, h]
@[simp] theorem ledger_banksUp : ledger (banksUp s) = ledger s := by simp [banksUp]
@[simp] theorem ledger_openLines : ledger (openLines s) = ledger s := by simp [openLines]
@[simp] theorem ledger_advanceRollback : ledger (advanceRollback s) = ledger s := by simp [advanceRollback]

@[simp] theorem kept_enterUp (h : Kept a (ledger s)) : Kept a (ledger (enterUp s g)) := by
  unfold enterUp
  extract_lets s₁ s₂ s₃
  have h₂ : Kept a (ledger s₂) := by simpa [s₂, s₁] using h
  have h₃ : Kept a (ledger s₃) := kept_foldl h₂ fun _ _ h => kept_beginRestore h
  simp [h₃]

@[simp] theorem ledger_takeReport : ledger (takeReport s rep) = ledger s := by simp [takeReport]
@[simp] theorem kept_partReport (h : Kept a (ledger s)) : Kept a (ledger (partReport s)) := by simp [partReport, h]

@[simp] theorem kept_moduleFault (h : Kept a (ledger s)) : Kept a (ledger (moduleFault s cause latch)) := by
  unfold moduleFault
  dsimp only
  (repeat' split)
  all_goals simp [h]

theorem keptO_execPowerInputRise (h : Kept a (ledger s)) : KeptO a (execPowerInputRise dt s) := by
  unfold execPowerInputRise
  extract_lets s₁ m s₂
  have h₁ : Kept a (ledger s₁) := kept_advance h
  have h₂ : Kept a (ledger s₂) := kept_restart h₁
  refine (keptO_ite _).2 ⟨fun _ => keptO_next.2 h₁, fun _ => keptO_next.2 ?_⟩
  split <;> exact h₂

theorem keptO_execRailsInTolerance (h : Kept a (ledger s)) : KeptO a (execRailsInTolerance dt s) := by
  unfold execRailsInTolerance
  dsimp only
  split <;> simp [h]

@[simp] theorem ledger_startRef : ledger (startRef s) = ledger s := by simp [startRef]

theorem keptO_execFirmwareSlotVerify (h : Kept a (ledger s)) : KeptO a (execFirmwareSlotVerify dt s) := by
  unfold execFirmwareSlotVerify
  dsimp only
  (repeat' split)
  all_goals simp [h]

theorem keptO_execFBootRepeat (h : Kept a (ledger s)) : KeptO a (execFBootRepeat dt s) := by
  unfold execFBootRepeat
  dsimp only
  split <;> simp [h]

theorem keptO_execVerifyComplete (h : Kept a (ledger s)) : KeptO a (execVerifyComplete dt s) := by
  unfold execVerifyComplete
  dsimp only
  split <;> simp [h]

theorem keptO_execLoadComplete (h : Kept a (ledger s)) : KeptO a (execLoadComplete dt good s) := by
  unfold execLoadComplete
  extract_lets s₁ m s₂ m₂
  have h₁ : Kept a (ledger s₁) := kept_advance h
  have h₂ : Kept a (ledger s₂) := kept_writeVendor h₁
  have h₃ : Kept a (ledger { s₂ with md := { m₂ with st := .selfTest } }) := h₂
  simp only [keptO_ite, keptO_next, ledger_banksUp]
  exact ⟨fun _ => ⟨fun _ => kept_keepVendor h₃, fun _ => kept_moduleFault h₂⟩, fun _ => h₁⟩

@[simp] theorem ledger_endRef : ledger (endRef s) = ledger s := by simp [endRef]
theorem keptO_execSelfTestComplete (h : Kept a (ledger s)) : KeptO a (execSelfTestComplete dt obs s) := by simp [execSelfTestComplete, h]

theorem keptO_execSlotRestoreComplete (h : Kept a (ledger s)) : KeptO a (execSlotRestoreComplete dt d s) := by
  unfold execSlotRestoreComplete
  dsimp only
  (repeat' split)
  all_goals simp [h]

theorem keptO_execOwnerClearWindowEnd (h : Kept a (ledger s)) : KeptO a (execOwnerClearWindowEnd dt s) := by
  unfold execOwnerClearWindowEnd
  dsimp only
  repeat' split
  all_goals simp [h]

theorem keptO_execPowerLoss (h : Kept a (ledger s)) : KeptO a (execPowerLoss dt s) := by
  unfold execPowerLoss
  dsimp only
  (repeat' split)
  all_goals simp [h]

theorem keptO_execHoldUpEnd (h : Kept a (ledger s)) : KeptO a (execHoldUpEnd dt s) := by
  unfold execHoldUpEnd
  dsimp only
  repeat' split
  all_goals simp [h]

theorem keptO_execResetNLow (h : Kept a (ledger s)) : KeptO a (execResetNLow dt s) := by
  unfold execResetNLow
  extract_lets s₁ m s₂ s₃ m₃
  have h₂ : Kept a (ledger s₂) := kept_advance h
  have h₃ : Kept a (ledger s₃) := kept_goDark h₂
  simp [m₃, h₂, h₃]

theorem keptO_execResetNHigh (h : Kept a (ledger s)) : KeptO a (execResetNHigh dt s) := by
  unfold execResetNHigh
  extract_lets s₁ was m s₂
  have h₂ : Kept a (ledger s₂) := kept_advance h
  simp [h₂]

theorem keptO_execFPwr (h : Kept a (ledger s)) : KeptO a (execFPwr dt s) := by simp [execFPwr, h]
theorem keptO_execFHot (h : Kept a (ledger s)) : KeptO a (execFHot dt s) := by simp [execFHot, h]
theorem keptO_execFSupply (h : Kept a (ledger s)) : KeptO a (execFSupply dt s) := by simp [execFSupply, h]
@[simp] theorem ledger_ownerNote : ledger (ownerNote s t) = ledger s := by simp [ownerNote]
theorem keptO_execCoreWarm (h : Kept a (ledger s)) : KeptO a (execCoreWarm dt s) := by simp [execCoreWarm, h]
theorem keptO_execSupplyRailCore (h : Kept a (ledger s)) : KeptO a (execSupplyRailCore dt s) := by simp [execSupplyRailCore, h]
theorem keptO_execSupplyRailInput (h : Kept a (ledger s)) : KeptO a (execSupplyRailInput dt mv s) := by simp [execSupplyRailInput, h]
theorem keptO_execInputCurrentLimit (h : Kept a (ledger s)) : KeptO a (execInputCurrentLimit dt s) := by simp [execInputCurrentLimit, h]

theorem keptO_execWarmSet (h : Kept a (ledger s)) : KeptO a (execWarmSet dt s) := by
  unfold execWarmSet
  extract_lets s₁ m s₂
  have h₁ : Kept a (ledger s₁) := kept_advance h
  have h₂ : Kept a (ledger s₂) := h₁
  simp [h₁, h₂]

theorem keptO_execWarmLost (h : Kept a (ledger s)) : KeptO a (execWarmLost dt s) := by
  unfold execWarmLost
  extract_lets s₁ m s₂
  have h₁ : Kept a (ledger s₁) := kept_advance h
  have h₂ : Kept a (ledger s₂) := h₁
  simp [h₁, h₂]

@[simp] theorem ledger_withdraw : ledger (withdraw s u) = ledger s := by simp [withdraw]

theorem keptO_execAcceptDegraded (h : Kept a (ledger s)) : KeptO a (execAcceptDegraded hd units s) := by
  unfold execAcceptDegraded
  split
  · next t ht =>
    have hk : KeptO a (.next t) := ht ▸ kept_noram h fun s h => by simp [h]
    simp [keptO_next.1 hk]
  · exact kept_noram h fun s h => by simp [h]

theorem keptO_execKeeperLoad (h : Kept a (ledger s)) : KeptO a (execKeeperLoad dt s) := by
  unfold execKeeperLoad
  dsimp only
  (repeat' split)
  all_goals simp [h]

end Sys2Proof.Machine
end

section
/-! The ledger under the operations of Machine/Sequencer.lean: the sequencer: headbox, decisions, stops, logs and stock ops. -/

namespace Sys2Proof.Machine

@[simp] theorem ledger_beginWait : ledger (beginWait s d x) = ledger s := by simp [beginWait]
@[simp] theorem ledger_endWait : ledger (endWait s d) = ledger s := by simp [endWait]
@[simp] theorem ledger_bankNote : ledger (bankNote s b) = ledger s := by simp [bankNote]

theorem keptO_execHeadboxQuireWrite (h : Kept a (ledger s)) : KeptO a (execHeadboxQuireWrite dt d s) := by
  unfold execHeadboxQuireWrite
  dsimp only
  (repeat' split)
  all_goals simp [h]

@[simp] theorem kept_putBank (h : Kept a (ledger s)) : Kept a (ledger (putBank s b o' bytes)) := by
  rw [putBank, ledger_modBk]
  exact kept_vat (s := s) h (wf_mput _ _ _)

@[simp] theorem kept_drainBroke (h : Kept a (ledger s)) : Kept a (ledger (drainBroke s d)) := by
  unfold drainBroke
  dsimp only
  (repeat' split)
  all_goals simp [h]

@[simp] theorem kept_drainCapture (h : Kept a (ledger s)) : Kept a (ledger (drainCapture s d)) := by
  unfold drainCapture
  dsimp only
  (repeat' split)
  all_goals simp [h]

@[simp] theorem kept_fillLog (h : Kept a (ledger s)) : Kept a (ledger (fillLog s d)) := by
  simp +contextual [fillLog, h]

@[simp] theorem ledger_pressAhead : ledger (pressAhead s d q) = ledger s := by
  unfold pressAhead
  dsimp only
  split <;> simp

theorem keptO_execQuireDecision (h : Kept a (ledger s)) : KeptO a (execQuireDecision dt d obs s) := by
  unfold execQuireDecision
  extract_lets s₁ d k s₂
  have h₁ : Kept a (ledger s₁) := by simp [s₁, h]
  refine (keptO_ite _).2 ⟨fun _ => keptO_next.2 h₁, fun _ => ?_⟩
  split
  · simp [s₂, h₁]
  · split <;> simp [h₁]

theorem keptO_execQuireBoundaryStop (h : Kept a (ledger s)) : KeptO a (execQuireBoundaryStop dt d s) := by
  unfold execQuireBoundaryStop
  extract_lets s₁ d k
  have h₁ : Kept a (ledger s₁) := by simp [s₁, h]
  refine (keptO_ite _).2 ⟨fun _ => ?_, fun _ => keptO_next.2 h₁⟩
  exact keptO_next.2 (kept_endPlays (kept_stopDeckle (kept_fillLog (kept_pressDue h₁))))

@[simp] theorem ledger_takeFfofs : ledger (takeFfofs s d) = ledger s := by simp [takeFfofs]
@[simp] theorem ledger_dispatch : ledger (dispatch s d pa n same cont rep) = ledger s := by simp [dispatch]

@[simp] theorem kept_scratch (h : Kept a (ledger s)) : Kept a (ledger (scratch s d)) :=
  kept_foldl h fun s _ h => by simpa using kept_draw h

@[simp] theorem ledger_goOp : ledger (goOp s d next') = ledger s := by simp [goOp]
@[simp] theorem kept_opEnd (h : Kept a (ledger s)) : Kept a (ledger (opEnd s d code' steps next')) := by simp [opEnd, h]

@[simp] theorem kept_fetchOp (h : Kept a (ledger s)) : Kept a (ledger (fetchOp s d).1) := by
  unfold fetchOp
  dsimp only
  (repeat' split)
  all_goals simp [h]

theorem keptO_stockOp (h : Kept a (ledger s)) (hb : ∀ s k o, Kept a (ledger s) → Kept a (ledger (body s k o))) :
    KeptO a (stockOp dt d s isOp body) := by
  unfold stockOp
  extract_lets s₁ k
  have h₁ : Kept a (ledger s₁) := kept_advance h
  have hf := kept_fetchOp (d := d) h₁
  refine (keptO_ite _).2 ⟨fun _ => keptO_next.2 h₁, fun _ => ?_⟩
  split
  · next hr => rw [hr] at hf; exact keptO_next.2 hf
  · next hr => rw [hr] at hf; simp [hf, hb]

theorem keptO_execOpNop (h : Kept a (ledger s)) : KeptO a (execOpNop dt d s) := keptO_stockOp h fun s k o h => by simp [h]

theorem keptO_execOpHalt (h : Kept a (ledger s)) : KeptO a (execOpHalt dt d s) := by
  refine keptO_stockOp h fun s k o h => ?_
  dsimp only
  simp [h]

theorem keptO_execOpRun (h : Kept a (ledger s)) : KeptO a (execOpRun dt d s) := by
  refine keptO_stockOp h fun s k o h => ?_
  dsimp only
  simp [h]

@[simp] theorem kept_matchRep (h : Kept a (ledger s)) : Kept a (ledger (matchRep s d pa m)) := by simp [matchRep, h]

theorem keptO_execOpMatch (h : Kept a (ledger s)) : KeptO a (execOpMatch dt d s) := by
  refine keptO_stockOp h fun s k o h => ?_
  dsimp only
  (repeat' split)
  all_goals simp [h]

theorem keptO_execOpWaitt (h : Kept a (ledger s)) : KeptO a (execOpWaitt dt d s) := by
  refine keptO_stockOp h fun s k o h => ?_
  dsimp only
  simp [h]

theorem keptO_execOpLoop (h : Kept a (ledger s)) : KeptO a (execOpLoop dt d s) := by
  refine keptO_stockOp h fun s k o h => ?_
  dsimp only
  simp [h]

theorem keptO_execOpEndl (h : Kept a (ledger s)) : KeptO a (execOpEndl dt d s) := by
  refine keptO_stockOp h fun s k o h => ?_
  dsimp only
  simp [h]

theorem keptO_execOpJump (h : Kept a (ledger s)) : KeptO a (execOpJump dt d s) := keptO_stockOp h fun s k o h => by simp [h]

theorem keptO_execOpCall (h : Kept a (ledger s)) : KeptO a (execOpCall dt d s) := by
  refine keptO_stockOp h fun s k o h => ?_
  dsimp only
  simp [h]

theorem keptO_execOpRet (h : Kept a (ledger s)) : KeptO a (execOpRet dt d s) := by
  refine keptO_stockOp h fun s k o h => ?_
  split <;> simp [h]

theorem keptO_execOpBrfail (h : Kept a (ledger s)) : KeptO a (execOpBrfail dt d s) := by
  refine keptO_stockOp h fun s k o h => ?_
  dsimp only
  simp [h]

theorem keptO_execOpMark (h : Kept a (ledger s)) : KeptO a (execOpMark dt d s) := keptO_stockOp h fun s k o h => by simp [h]
theorem keptO_execOpLearn (h : Kept a (ledger s)) : KeptO a (execOpLearn dt d s) := keptO_stockOp h fun s k o h => by simp [h]
theorem keptO_execOpTsel (h : Kept a (ledger s)) : KeptO a (execOpTsel dt d s) := keptO_stockOp h fun s k o h => by simp [h]
@[simp] theorem kept_vendorCause (h : Kept a (ledger s)) : Kept a (ledger (vendorCause s d cause i)) := by simp [vendorCause, h]

theorem keptO_execOpCustom (h : Kept a (ledger s)) : KeptO a (execOpCustom dt d s) := by
  refine keptO_stockOp h fun s k o h => ?_
  dsimp only
  simp [h]

theorem keptO_execResultWaitRelease (h : Kept a (ledger s)) : KeptO a (execResultWaitRelease dt d s) := by
  unfold execResultWaitRelease
  dsimp only
  (repeat' split)
  all_goals simp [h]

theorem keptO_execBrokeDrain (h : Kept a (ledger s)) : KeptO a (execBrokeDrain dt d cap s) := by simp [execBrokeDrain, h]
theorem keptO_execFailOutFall (h : Kept a (ledger s)) : KeptO a (execFailOutFall dt s) := by simp [execFailOutFall, h]

theorem keptO_execFailOutRemapApply (h : Kept a (ledger s)) : KeptO a (execFailOutRemapApply dt s) := by
  unfold execFailOutRemapApply
  dsimp only
  (repeat' split)
  all_goals simp [h]

theorem keptO_execTrigOutFall (h : Kept a (ledger s)) : KeptO a (execTrigOutFall dt n s) := by simp [execTrigOutFall, h]

end Sys2Proof.Machine
end

section
/-! The ledger under the operations of Machine/Micro.lean: customer microcode, its parts and the instrument registers. -/

namespace Sys2Proof.Machine

@[simp] theorem kept_customerCheck (h : Kept a (ledger s)) : Kept a (ledger (customerCheck s d cause ua na)) := by simp [customerCheck, h]

@[simp] theorem kept_vendorCheck (h : Kept a (ledger s)) : Kept a (ledger (vendorCheck s)) :=
  kept_forEach (s := { s with md := { s.md with reload := true } }) h fun _ _ h => by simp [h]

@[simp] theorem kept_setFlags (h : Kept a (ledger s)) : Kept a (ledger (setFlags s d r)) := by
  unfold setFlags
  dsimp only
  (repeat' split)
  all_goals simp [h]

@[simp] theorem kept_writeDest (h : Kept a (ledger s)) : Kept a (ledger (writeDest s d dsel v mdrBusy lcBusy).1) := by
  unfold writeDest
  dsimp only
  (repeat' split)
  all_goals simp [h]

@[simp] theorem kept_aluPart (h : Kept a (ledger s)) : Kept a (ledger (aluPart s d op a₀ b c f mdrBusy lcBusy).1) := by
  unfold aluPart
  dsimp only
  (repeat' split)
  all_goals simp [h]

@[simp] theorem ledger_writeTarget : ledger (writeTarget s d n v) = ledger s := by simp [writeTarget]
@[simp] theorem ledger_writeFfofs : ledger (writeFfofs s n v) = ledger s := by simp [writeFfofs]
@[simp] theorem ledger_writePlay : ledger (writePlay s d n) = ledger s := by simp [writePlay]
@[simp] theorem ledger_writeAuxHalt : ledger (writeAuxHalt s d n) = ledger s := by simp [writeAuxHalt]
@[simp] theorem ledger_writeAdcStart : ledger (writeAdcStart s d n) = ledger s := by simp [writeAdcStart]
@[simp] theorem kept_writeTmuStart (h : Kept a (ledger s)) : Kept a (ledger (writeTmuStart s d n)) := by simp [writeTmuStart, h]
@[simp] theorem kept_writeReg (h : Kept a (ledger s)) : Kept a (ledger (writeReg s d u r v)) := by simp [writeReg, h]

@[simp] theorem kept_portRead (h : Kept a (ledger s)) : Kept a (ledger (portRead s d space bank ua).1) := by
  unfold portRead
  dsimp only
  (repeat' split)
  all_goals simp [h]

@[simp] theorem ledger_maskWord : ledger (maskWord s d bank o) = ledger s := by simp [maskWord]

@[simp] theorem kept_portWrite (h : Kept a (ledger s)) : Kept a (ledger (portWrite s d space bank)) := by
  unfold portWrite
  dsimp only
  split
  · exact h
  · simp [h]
  · exact kept_tpad (s := s) h (wf_mputNum _ _ _ _)
  · exact kept_mpad (s := s) h (wf_mputNum _ _ _ _)

@[simp] theorem kept_queuePop (h : Kept a (ledger s)) : Kept a (ledger (queuePop s d q)) := by
  unfold queuePop
  dsimp only
  (repeat' split)
  all_goals simp [h]

@[simp] theorem ledger_queuePush : ledger (queuePush s d q) = ledger s := by simp [queuePush]
@[simp] theorem ledger_portEvent : ledger (portEvent s d c code') = ledger s := by simp [portEvent]
@[simp] theorem ledger_seqHalt : ledger (seqHalt s d) = ledger s := by simp [seqHalt]

@[simp] theorem ledger_seqCtl : ledger (seqCtl s d sub m a₀) = ledger s := by
  unfold seqCtl
  split <;> simp

@[simp] theorem ledger_tbSet : ledger (tbSet s d a₀) = ledger s := by simp [tbSet]
@[simp] theorem kept_shwr (h : Kept a (ledger s)) : Kept a (ledger (shwr s d pareg sreg whdr k16 pmask)) := by simp [shwr, h]
@[simp] theorem ledger_portDisp : ledger (portDisp s d cont pareg nreg) = ledger s := by simp [portDisp]

@[simp] theorem kept_portPart (h : Kept a (ledger s)) : Kept a (ledger (portPart s d n a₀ ua).1) := by
  unfold portPart
  split <;> simp [h]

@[simp] theorem ledger_traceStep : ledger (traceStep s d ty ua x n v) = ledger s := by simp [traceStep]
@[simp] theorem ledger_countStep : ledger (countStep s d) = ledger s := by simp [countStep]
@[simp] theorem ledger_holdStep : ledger (holdStep s d x n y) = ledger s := by simp [holdStep]
@[simp] theorem kept_endCustom (h : Kept a (ledger s)) : Kept a (ledger (endCustom s d)) := by simp [endCustom, h]

@[simp] theorem kept_wordPart (h : Kept a (ledger s)) : Kept a (ledger (wordPart s d t x n a₀ b nx).1) := by
  unfold wordPart
  split <;> simp [h]

@[simp] theorem kept_runStep (h : Kept a (ledger s)) : Kept a (ledger (runStep s d x n)) := by simp [runStep, h]

@[simp] theorem kept_stepWord (h : Kept a (ledger s)) : Kept a (ledger (stepWord s d x)) := by
  unfold stepWord
  dsimp only
  (repeat' split)
  all_goals simp [h]

@[simp] theorem kept_fetchWord (h : Kept a (ledger s)) : Kept a (ledger (fetchWord s d mode)) := by
  unfold fetchWord
  dsimp only
  (repeat' split)
  all_goals simp [h]

@[simp] theorem kept_fetchVendor (h : Kept a (ledger s)) : Kept a (ledger (fetchVendor s up)) := by
  unfold fetchVendor
  split <;> simp [h]

@[simp] theorem kept_svcStep (h : Kept a (ledger s)) : Kept a (ledger (svcStep s mode)) := by simp [svcStep, h]

theorem keptO_microStep (h : Kept a (ledger s)) : KeptO a (microStep dt d up mode s) := by
  unfold microStep
  extract_lets s₁
  have h₁ : Kept a (ledger s₁) := by cases up <;> simp [s₁, h]
  cases d <;> simp [h₁]

theorem keptO_execUmodeSeq (h : Kept a (ledger s)) : KeptO a (execUmodeSeq dt d up s) := keptO_microStep h
theorem keptO_execUmodeJmp (h : Kept a (ledger s)) : KeptO a (execUmodeJmp dt d up s) := keptO_microStep h
theorem keptO_execUmodeCall (h : Kept a (ledger s)) : KeptO a (execUmodeCall dt d up s) := keptO_microStep h
theorem keptO_execUmodeRet (h : Kept a (ledger s)) : KeptO a (execUmodeRet dt d up s) := keptO_microStep h
theorem keptO_execUmodeBr (h : Kept a (ledger s)) : KeptO a (execUmodeBr dt d up s) := keptO_microStep h
theorem keptO_execUmodeMway (h : Kept a (ledger s)) : KeptO a (execUmodeMway dt d up s) := keptO_microStep h
theorem keptO_execUmodeLoop (h : Kept a (ledger s)) : KeptO a (execUmodeLoop dt d up s) := keptO_microStep h
theorem keptO_execUmodeWait (h : Kept a (ledger s)) : KeptO a (execUmodeWait dt d up s) := keptO_microStep h

theorem keptO_microPart (h : Kept a (ledger s)) (hact : ∀ s, Kept a (ledger s) → Kept a (ledger (act s))) :
    KeptO a (microPart dt d n s act) := by
  unfold microPart
  extract_lets s₁ k free
  have h₁ : Kept a (ledger s₁) := kept_advance h
  refine (keptO_ite _).2 ⟨fun _ => keptO_next.2 h₁, fun _ => ?_⟩
  split
  · simp [h₁]
  · split
    · simp [h₁]
    · exact keptO_next.2 (hact _ (by simp [h₁]))

theorem keptO_aluRow (h : Kept a (ledger s)) : KeptO a (aluRow dt d code' f s) := by
  refine keptO_microPart h fun s h => ?_
  simp [h]

theorem keptO_execAluNop (h : Kept a (ledger s)) : KeptO a (execAluNop dt d f s) := keptO_aluRow h
theorem keptO_execAluPass (h : Kept a (ledger s)) : KeptO a (execAluPass dt d f s) := keptO_aluRow h
theorem keptO_execAluAdd (h : Kept a (ledger s)) : KeptO a (execAluAdd dt d f s) := keptO_aluRow h
theorem keptO_execAluAdc (h : Kept a (ledger s)) : KeptO a (execAluAdc dt d f s) := keptO_aluRow h
theorem keptO_execAluSub (h : Kept a (ledger s)) : KeptO a (execAluSub dt d f s) := keptO_aluRow h
theorem keptO_execAluSbc (h : Kept a (ledger s)) : KeptO a (execAluSbc dt d f s) := keptO_aluRow h
theorem keptO_execAluAnd (h : Kept a (ledger s)) : KeptO a (execAluAnd dt d f s) := keptO_aluRow h
theorem keptO_execAluOr (h : Kept a (ledger s)) : KeptO a (execAluOr dt d f s) := keptO_aluRow h
theorem keptO_execAluXor (h : Kept a (ledger s)) : KeptO a (execAluXor dt d f s) := keptO_aluRow h
theorem keptO_execAluAndn (h : Kept a (ledger s)) : KeptO a (execAluAndn dt d f s) := keptO_aluRow h
theorem keptO_execAluShl (h : Kept a (ledger s)) : KeptO a (execAluShl dt d f s) := keptO_aluRow h
theorem keptO_execAluShr (h : Kept a (ledger s)) : KeptO a (execAluShr dt d f s) := keptO_aluRow h
theorem keptO_execAluAsr (h : Kept a (ledger s)) : KeptO a (execAluAsr dt d f s) := keptO_aluRow h
theorem keptO_execAluRor (h : Kept a (ledger s)) : KeptO a (execAluRor dt d f s) := keptO_aluRow h
theorem keptO_execAluCmp (h : Kept a (ledger s)) : KeptO a (execAluCmp dt d f s) := keptO_aluRow h
theorem keptO_execAluTst (h : Kept a (ledger s)) : KeptO a (execAluTst dt d f s) := keptO_aluRow h
theorem keptO_execAluMin (h : Kept a (ledger s)) : KeptO a (execAluMin dt d f s) := keptO_aluRow h
theorem keptO_execAluMax (h : Kept a (ledger s)) : KeptO a (execAluMax dt d f s) := keptO_aluRow h
theorem keptO_execAluClz (h : Kept a (ledger s)) : KeptO a (execAluClz dt d f s) := keptO_aluRow h
theorem keptO_execAluPopc (h : Kept a (ledger s)) : KeptO a (execAluPopc dt d f s) := keptO_aluRow h

theorem keptO_portRow (h : Kept a (ledger s)) : KeptO a (portRow dt d n a₀ s) :=
  keptO_microPart h fun _ h => kept_portPart h

theorem keptO_execPortMrd (h : Kept a (ledger s)) : KeptO a (execPortMrd dt d space bank s) := keptO_portRow h
theorem keptO_execPortMwr (h : Kept a (ledger s)) : KeptO a (execPortMwr dt d space bank s) := keptO_portRow h
theorem keptO_execPortDisp (h : Kept a (ledger s)) : KeptO a (execPortDisp dt d cont pareg nreg s) := keptO_portRow h
theorem keptO_execPortQpop (h : Kept a (ledger s)) : KeptO a (execPortQpop dt d qid s) := keptO_portRow h
theorem keptO_execPortQpush (h : Kept a (ledger s)) : KeptO a (execPortQpush dt d qid s) := keptO_portRow h
theorem keptO_execPortEvent (h : Kept a (ledger s)) : KeptO a (execPortEvent dt d cls code' s) := keptO_portRow h
theorem keptO_execSeqctlTsel (h : Kept a (ledger s)) : KeptO a (execSeqctlTsel dt d a₀ s) := keptO_portRow h
theorem keptO_execSeqctlMark (h : Kept a (ledger s)) : KeptO a (execSeqctlMark dt d m a₀ s) := keptO_portRow h
theorem keptO_execSeqctlHalt (h : Kept a (ledger s)) : KeptO a (execSeqctlHalt dt d s) := keptO_portRow h
theorem keptO_execPortTbset (h : Kept a (ledger s)) : KeptO a (execPortTbset dt d a₀ s) := keptO_portRow h
theorem keptO_execPortShwr (h : Kept a (ledger s)) : KeptO a (execPortShwr dt d pareg sreg whdr k16 pmask s) := keptO_portRow h
theorem keptO_execPortStew (h : Kept a (ledger s)) : KeptO a (execPortStew dt d parg s) := keptO_portRow h

theorem keptO_regRow (h : Kept a (ledger s)) (hact : ∀ s, Kept a (ledger s) → Kept a (ledger (act s))) :
    KeptO a (regRow dt d unit' reg s act) := keptO_microPart h hact

theorem keptO_execDpsTargetReg (h : Kept a (ledger s)) : KeptO a (execDpsTargetReg dt d n v s) := keptO_regRow h fun _ h => kept_writeReg h
theorem keptO_execDpsFfofsReg (h : Kept a (ledger s)) : KeptO a (execDpsFfofsReg dt d n v s) := keptO_regRow h fun _ h => kept_writeReg h
theorem keptO_execAuxPlayReg (h : Kept a (ledger s)) : KeptO a (execAuxPlayReg dt d n v s) := keptO_regRow h fun _ h => kept_writeReg h
theorem keptO_execAuxHaltReg (h : Kept a (ledger s)) : KeptO a (execAuxHaltReg dt d n v s) := keptO_regRow h fun _ h => kept_writeReg h
theorem keptO_execAdcStartReg (h : Kept a (ledger s)) : KeptO a (execAdcStartReg dt d n v s) := keptO_regRow h fun _ h => kept_writeReg h
theorem keptO_execTmuStartReg (h : Kept a (ledger s)) : KeptO a (execTmuStartReg dt d n v s) := keptO_regRow h fun _ h => kept_writeReg h
theorem keptO_execTmuHaltReg (h : Kept a (ledger s)) : KeptO a (execTmuHaltReg dt d n v s) := keptO_regRow h fun _ h => kept_writeReg h
theorem keptO_execInstrOtherReg (h : Kept a (ledger s)) : KeptO a (execInstrOtherReg dt d unit' reg s) := keptO_regRow h fun _ h => kept_writeReg h

end Sys2Proof.Machine
end

section
/-! The ledger under the operations of Machine/At.lean: actions of AT and the reload of the vendor region. -/

namespace Sys2Proof.Machine

@[simp] theorem keptR_runSched (h : Kept a (ledger s)) : KeptR a (runSched s d c t late) := by
  unfold runSched
  split <;> simp [h]

theorem keptO_execAtSchedule (h : Kept a (ledger s)) : KeptO a (execAtSchedule hd t late c s) := by
  unfold execAtSchedule
  refine kept_noram h fun s h => keptR_bind.2 fun n _ => keptR_bind.2 fun _ _ => keptR_bind.2 fun _ _ => ?_
  dsimp only
  split
  · simp [h]
  · refine keptR_bind.2 fun _ _ => ?_
    have hr := keptR_runSched (d := myDk s hd) (c := c) (t := n) (late := true) h
    split
    · simp
    · next e => simpa using hr _ _ e
    · next e => simpa using hr _ _ e
    · next e => simpa using hr _ _ e

@[simp] theorem kept_takeAction (h : Kept a (ledger s)) : Kept a (ledger (takeAction s d x)) := by
  unfold takeAction
  extract_lets s₁ extra tell
  have hr : KeptR a (runSched s₁ d x.act x.t x.late) := keptR_runSched (by simp [s₁, h])
  split
  · simp [tell, s₁, h]
  · next e => simp [tell, hr _ _ e]
  · next e => simpa using hr _ _ e
  · next e => exact hr _ _ e

theorem keptO_execAtActionDue (h : Kept a (ledger s)) : KeptO a (execAtActionDue dt d i s) := by
  unfold execAtActionDue
  extract_lets s₁ d m
  have h₁ : Kept a (ledger s₁) := kept_advance h
  split <;> simp [m, h₁]

@[simp] theorem kept_takeDeferred (h : Kept a (ledger s)) : Kept a (ledger (takeDeferred s)) :=
  kept_foldl (s := { s with md := { s.md with deferred := [] } }) h fun s e h => by split <;> simp [h]

theorem keptO_execAtCancel (h : Kept a (ledger s)) : KeptO a (execAtCancel hd n s) := by
  unfold execAtCancel
  refine kept_noram h fun s h => keptR_bind.2 fun _ _ => ?_
  dsimp only
  split <;> simp [h]

theorem keptO_execVendorReloadComplete (h : Kept a (ledger s)) : KeptO a (execVendorReloadComplete dt copyOk' readOk' s) := by
  unfold execVendorReloadComplete
  extract_lets s₁ m s₂ m₂ s₃ s₄
  have h₁ : Kept a (ledger s₁) := kept_advance h
  have h₂ : Kept a (ledger s₂) := h₁
  have h₃ : Kept a (ledger s₃) := kept_rewriteVendor h₂
  have h₄ : Kept a (ledger s₄) := by simp [s₄, h₃]
  simp [h₁, h₂, h₄]

theorem keptO_execSlotEraseComplete (h : Kept a (ledger s)) : KeptO a (execSlotEraseComplete dt n s) := by simp [execSlotEraseComplete, h]

end Sys2Proof.Machine
end

section
/-! The ledger under the operations of Machine/Deckles.lean: DECKLE commands, couches and zeroing. -/

namespace Sys2Proof.Machine

@[simp] theorem ledger_beginCouch : ledger (beginCouch s l o) = ledger s := by simp [beginCouch]

theorem keptO_execDeckleOpen (h : Kept a (ledger s)) : KeptO a (execDeckleOpen hd d g s) := by
  unfold execDeckleOpen
  refine kept_noram h fun s h => keptR_bind.2 fun _ _ => keptR_bind.2 fun _ _ => ?_
  split
  · simp
  · simp [h]

@[simp] theorem kept_couchDone (h : Kept a (ledger s)) : Kept a (ledger (couchDone s b)) := by
  unfold couchDone
  split <;> simp [h]

theorem keptO_execCouchComplete (h : Kept a (ledger s)) : KeptO a (execCouchComplete dt bank s) := by
  refine keptO_next.2 (kept_foldl (kept_couchDone (kept_advance h)) fun s d h => ?_)
  split
  · split
    · split <;> simp [h]
    · exact h
  · exact h

@[simp] theorem kept_zeroUnits (h : Kept a (ledger s)) : Kept a (ledger (zeroUnits s d k l)) := by
  unfold zeroUnits
  split
  · simp [h]
  · exact h
  · exact kept_forEach h fun s n h => by
      simp only [ledger_mk, setDps_pending, setDps_nv, setDps_wall, setDps_free, setDps_vat, setDps_tpad, setDps_mpad, setDps_ust, setDps_nst,
        setDps_upar, setDps_npar, setDps_md]
      exact kept_cep h (wf_mzero _ _ _)
  · simp [h]
  · simp [h]
  · exact kept_forEach h fun s n h => by simpa using kept_clearTmuPad h

theorem keptO_execDeckleGrant (h : Kept a (ledger s)) : KeptO a (execDeckleGrant hd d g s) := kept_noram h fun s h => by simp +contextual [h]
theorem keptO_execDeckleClose (h : Kept a (ledger s)) : KeptO a (execDeckleClose hd d s) := kept_noram h fun s h => by simp [h]

@[simp] theorem kept_reclaim (h : Kept a (ledger s)) : Kept a (ledger (reclaim s d)) := by
  unfold reclaim
  dsimp only
  (repeat' split)
  all_goals simp [h]

theorem keptO_execDeckleReclaim (h : Kept a (ledger s)) : KeptO a (execDeckleReclaim hd d s) := kept_noram h fun s h => by simp [h]
@[simp] theorem ledger_putFailOut : ledger (putFailOut s m) = ledger s := by simp [putFailOut]
@[simp] theorem ledger_unmapDeckle : ledger (unmapDeckle s d) = ledger s := by simp [unmapDeckle]

@[simp] theorem kept_zeroDeckle (h : Kept a (ledger s)) : Kept a (ledger (zeroDeckle s d)) := by
  unfold zeroDeckle
  extract_lets g s₁ s₂ s₃ s₄ nv s₅
  have h₁ : Kept a (ledger s₁) := kept_forEach h fun _ _ h => kept_zeroUnits h
  have h₂ : Kept a (ledger s₂) := kept_forEach h₁ fun _ _ h => by simp [h]
  have h₄ : Kept a (ledger s₄) := by simp [s₄, s₃, h₂]
  clear_value s₄
  have h₅ : Kept a (ledger s₅) := h₄.trans ⟨rfl, rfl, rfl, le_rfl, le_rfl, fun c =>
    { c with tpad := wf_mzero _ _ _ c.tpad, ust := wf_mzero _ _ _ c.ust, upar := wf_mzero _ _ _ c.upar, nst := wf_mzero _ _ _ c.nst,
             npar := wf_mzero _ _ _ c.npar }⟩
  simpa using h₅

@[simp] theorem ledger_tellReclaimed : ledger (tellReclaimed s d) = ledger s := by simp [tellReclaimed]
@[simp] theorem ledger_eraseOwner : ledger (eraseOwner s) = ledger s := by simp [eraseOwner]

@[simp] theorem ledger_finishRelease : ledger (finishRelease s) = ledger s := by
  unfold finishRelease
  split
  · split
    · split <;> simp
    · rfl
  · rfl

theorem keptO_execZeroingComplete (h : Kept a (ledger s)) : KeptO a (execZeroingComplete dt d s) := by
  unfold execZeroingComplete
  extract_lets s₁ s₂ s₃
  have h₁ : Kept a (ledger s₁) := kept_advance h
  have h₂ : Kept a (ledger s₂) := by simp [s₂, h₁]
  have h₃ : Kept a (ledger s₃) := kept_foldl h₂ fun s j h => by split <;> simp [h]
  simp [h₁, h₃]

theorem keptO_execDeckleRearm (h : Kept a (ledger s)) : KeptO a (execDeckleRearm hd s) := kept_noram h fun s h => by simp [h]

theorem keptO_execDeckleList (h : Kept a (ledger s)) : KeptO a (execDeckleList hd d s) := by
  unfold execDeckleList
  refine kept_noram h fun s h => ?_
  (repeat' split)
  all_goals simp [h]

end Sys2Proof.Machine
end

section
/-! The ledger under the operations of Machine/Pattern.lean: DATA and SEQ commands. -/

namespace Sys2Proof.Machine

theorem keptO_execBankStripe (h : Kept a (ledger s)) : KeptO a (execBankStripe hd l s) := by
  unfold execBankStripe
  refine kept_noram h fun s h => ?_
  simp
  intros
  exact keptR_edit h _ _ ‹_›

@[simp] theorem keptR_putSheets (h : Kept a (ledger s)) : KeptR a (putSheets s d item' first xs) := by
  simp +contextual [putSheets, h]

theorem keptO_execDataSheets (h : Kept a (ledger s)) : KeptO a (execDataSheets hd pa n blk s) := by
  unfold execDataSheets
  refine kept_noramBlk h fun p s h => keptR_bind.2 fun _ _ => keptR_bind.2 fun _ _ => keptR_bind.2 fun _ _ => ?_
  dsimp only
  split
  · simp
  · exact keptR_bind_state (keptR_putSheets h) fun _ _ h => keptR_answer_ok.2 h

theorem keptO_execDataSheet (h : Kept a (ledger s)) : KeptO a (execDataSheet hd pa sn ts flags codes s) := by
  unfold execDataSheet
  refine kept_noram h fun s h => ?_
  simp
  intros
  exact keptR_putSheets h _ _ ‹_›

theorem keptO_execDataRead (h : Kept a (ledger s)) : KeptO a (execDataRead hd pa n s) := kept_noram h fun s h => by simp +contextual [h]

theorem keptO_execSeqBank (h : Kept a (ledger s)) : KeptO a (execSeqBank hd v s) := by
  unfold execSeqBank
  refine kept_noram h fun s h => ?_
  simp
  intros
  exact keptR_edit h _ _ ‹_›

@[simp] theorem keptR_putOps (h : Kept a (ledger s)) : KeptR a (putOps s d item' a₀ ops) := by
  unfold putOps
  split
  · simp
  · refine keptR_bind.2 fun _ _ => keptR_bind_state (keptR_writeOrStage h fun s h => by simp [h]) fun _ _ h => ?_
    simpa using h

theorem keptO_execSeqLoad (h : Kept a (ledger s)) : KeptO a (execSeqLoad hd a₀ blk s) := by
  unfold execSeqLoad
  refine kept_noramBlk h fun p s h => ?_
  simp
  intros
  exact keptR_putOps h _ _ ‹_›

theorem keptO_execSeqOp (h : Kept a (ledger s)) : KeptO a (execSeqOp hd a₀ op s) := by
  unfold execSeqOp
  refine kept_noram h fun s h => ?_
  simp
  intros
  exact keptR_putOps h _ _ ‹_›

theorem keptO_execSeqEntry (h : Kept a (ledger s)) : KeptO a (execSeqEntry hd a₀ s) := by
  unfold execSeqEntry
  refine kept_noram h fun s h => ?_
  simp
  intros
  exact keptR_edit h _ _ ‹_›

theorem keptO_execSeqList (h : Kept a (ledger s)) : KeptO a (execSeqList hd r s) := by
  unfold execSeqList
  refine kept_noram h fun s h => ?_
  dsimp only
  split <;> simp only [keptR_bind] <;> intros <;> split <;> simp [h]

theorem keptO_execSeqCost (h : Kept a (ledger s)) : KeptO a (execSeqCost hd s) := by
  unfold execSeqCost
  refine kept_noram h fun s h => keptR_bind.2 fun _ _ => ?_
  split <;> simp [h]

end Sys2Proof.Machine
end

section
/-! The ledger under the operations of Machine/Banks.lean: BANK commands. -/

namespace Sys2Proof.Machine

@[simp] theorem kept_putPower (h : Kept a (ledger s)) : Kept a (ledger (putPower p s b)) := by
  unfold putPower
  split
  · exact h
  · split <;> simp [h]

theorem keptO_execBankPower (h : Kept a (ledger s)) : KeptO a (execBankPower hd l p s) := kept_noram h fun s h => by simp +contextual [h]
theorem keptO_execBankZero (h : Kept a (ledger s)) : KeptO a (execBankZero hd l s) := kept_noram h fun s h => by simp [h]

theorem keptO_execBankZeroComplete (h : Kept a (ledger s)) : KeptO a (execBankZeroComplete dt d s) := by
  unfold execBankZeroComplete
  dsimp only
  (repeat' split)
  all_goals simp +contextual [h]

theorem keptO_execBankShow (h : Kept a (ledger s)) : KeptO a (execBankShow hd l s) := by
  unfold execBankShow
  refine kept_noram h fun s h => ?_
  (repeat' split)
  all_goals simp [h]

theorem keptO_execBankPool (h : Kept a (ledger s)) : KeptO a (execBankPool hd s) := kept_noram h fun s h => by simp [h]

end Sys2Proof.Machine
end

section
/-! The ledger under the operations of Machine/Broke.lean: BROKE and CAPTURE commands. -/

namespace Sys2Proof.Machine

@[simp] theorem kept_complete (h : Kept a (ledger s)) : Kept a (ledger (complete s k).2) := by
  unfold complete
  dsimp only
  (repeat' split)
  all_goals simp [h]

theorem keptO_execBroke (h : Kept a (ledger s)) : KeptO a (execBroke hd s) := kept_noram h fun s h => by simp [h]
theorem keptO_execCapture (h : Kept a (ledger s)) : KeptO a (execCapture hd s) := kept_noram h fun s h => by simp [h]

@[simp] theorem keptR_showLog (h : Kept a (ledger s)) : KeptR a (showLog s b size n f c dec) := by
  unfold showLog
  split <;> simp [h]

@[simp] theorem keptR_readLog (h : Kept a (ledger s)) : KeptR a (readLog s b n f c) := by
  unfold readLog
  split <;> simp [h]

theorem keptO_execBrokeShow (h : Kept a (ledger s)) : KeptO a (execBrokeShow hd i n s) := by
  unfold execBrokeShow
  refine kept_noram h fun s h => ?_
  simp
  intros
  exact keptR_showLog h _ _ ‹_›

theorem keptO_execBrokeRead (h : Kept a (ledger s)) : KeptO a (execBrokeRead hd i n s) := by
  unfold execBrokeRead
  refine kept_noram h fun s h => ?_
  simp
  intros
  exact keptR_readLog h _ _ ‹_›

theorem keptO_execBrokeCount (h : Kept a (ledger s)) : KeptO a (execBrokeCount hd l s) := kept_noram h fun s h => by simp [h]

theorem keptO_execCaptureShow (h : Kept a (ledger s)) : KeptO a (execCaptureShow hd i n s) := by
  unfold execCaptureShow
  refine kept_noram h fun s h => ?_
  simp
  intros
  exact keptR_showLog h _ _ ‹_›

theorem keptO_execCaptureRead (h : Kept a (ledger s)) : KeptO a (execCaptureRead hd i n s) := by
  unfold execCaptureRead
  refine kept_noram h fun s h => ?_
  simp
  intros
  exact keptR_readLog h _ _ ‹_›

@[simp] theorem kept_zeroLog (h : Kept a (ledger s)) : Kept a (ledger (zeroLog s b)) := by
  unfold zeroLog
  split <;> simp [h]

theorem keptO_execBrokeClear (h : Kept a (ledger s)) : KeptO a (execBrokeClear hd s) := kept_noram h fun s h => by simp [h]
theorem keptO_execCaptureClear (h : Kept a (ledger s)) : KeptO a (execCaptureClear hd s) := kept_noram h fun s h => by simp [h]

end Sys2Proof.Machine
end

section
/-! The ledger under the operations of Machine/Reference.lean: pace and reference. -/

namespace Sys2Proof.Machine

theorem keptO_execPaceSet (h : Kept a (ledger s)) : KeptO a (execPaceSet hd p s) := kept_noram h fun s h => by simp [h]

theorem keptO_execPaceReached (h : Kept a (ledger s)) : KeptO a (execPaceReached dt s) := by
  unfold execPaceReached
  dsimp only
  split <;> simp [h]

theorem keptO_execPace (h : Kept a (ledger s)) : KeptO a (execPace hd s) := kept_noram h fun s h => by simp [h]
@[simp] theorem ledger_setDerate : ledger (setDerate s d20) = ledger s := by simp [setDerate]
@[simp] theorem ledger_derate : ledger (derate s m) = ledger s := by simp [derate]
@[simp] theorem ledger_reportRatio : ledger (reportRatio s m) = ledger s := by simp [reportRatio]

theorem keptO_execMonitorWindowEnd (h : Kept a (ledger s)) : KeptO a (execMonitorWindowEnd dt ratio s) := by
  unfold execMonitorWindowEnd
  extract_lets s₁ s₂ p s₃
  have h₁ : Kept a (ledger s₁) := kept_advance h
  have h₂ : Kept a (ledger s₂) := by simp [s₂, h₁]
  have h₃ : Kept a (ledger s₃) := by
    clear_value s₂
    simp [s₃, p, h₂]
  simp [h₁, h₃]

theorem keptO_execRef (h : Kept a (ledger s)) : KeptO a (execRef hd s) := kept_noram h fun s h => by simp [h]

@[simp] theorem kept_abandonTmus (h : Kept a (ledger s)) : Kept a (ledger (abandonTmus s)) := by
  simp +contextual [abandonTmus, h]

@[simp] theorem kept_switchStops (h : Kept a (ledger s)) : Kept a (ledger (switchStops s)) := by
  refine kept_forEach h fun s d h => ?_
  dsimp only
  split
  · simp [h]
  · split <;> simp [h]

@[simp] theorem kept_beginSwitch (h : Kept a (ledger s)) : Kept a (ledger (beginSwitch s src')) := by
  unfold beginSwitch
  extract_lets nv s₁
  have h₁ : Kept a (ledger s₁) := kept_abandonTmus (kept_switchStops h)
  simp [h₁]

theorem keptO_execRefSelect (h : Kept a (ledger s)) : KeptO a (execRefSelect hd src' force s) := kept_noram h fun s h => by simp [h]
@[simp] theorem ledger_answerSwitches : ledger (answerSwitches s) = ledger s := by simp [answerSwitches]

theorem keptO_execLoopLock (h : Kept a (ledger s)) : KeptO a (execLoopLock dt s) := by
  unfold execLoopLock
  dsimp only
  (repeat' split)
  all_goals simp [h]

@[simp] theorem ledger_extGone : ledger (extGone s cls) = ledger s := by
  unfold extGone
  dsimp only
  split <;> simp

@[simp] theorem kept_lossStops (h : Kept a (ledger s)) : Kept a (ledger (lossStops s)) := by
  simp +contextual [lossStops, h]

@[simp] theorem ledger_loseHeartbeat : ledger (loseHeartbeat s) = ledger s := by simp [loseHeartbeat]
@[simp] theorem kept_refLoss (h : Kept a (ledger s)) : Kept a (ledger (refLoss s cls)) := by simp [refLoss, h]

theorem keptO_execRefinUsable (h : Kept a (ledger s)) : KeptO a (execRefinUsable dt obs s) := by
  unfold execRefinUsable
  dsimp only
  split
  · simp [h]
  · split
    · split <;> simp [h]
    · simp [h]

theorem keptO_execRefLost (h : Kept a (ledger s)) : KeptO a (execRefLost dt s) := by simp [execRefLost, h]
@[simp] theorem kept_holdDeckleOutputs (h : Kept a (ledger s)) : Kept a (ledger (holdDeckleOutputs s d)) := by simp [holdDeckleOutputs, h]

theorem keptO_execTimebaseHold (h : Kept a (ledger s)) : KeptO a (execTimebaseHold dt s) := by
  unfold execTimebaseHold
  extract_lets s₁ r s₂
  have h₁ : Kept a (ledger s₁) := kept_advance h
  have h₂ : Kept a (ledger s₂) := h₁
  have h₃ : Kept a (ledger (forEach deckles s₂ holdDeckleOutputs)) := kept_forEach h₂ fun _ _ h => kept_holdDeckleOutputs h
  split
  · simp [h₁, h₃]
  · simp [h₁]

@[simp] theorem ledger_trigInStart : ledger (trigInStart s d t fine) = ledger s := by simp [trigInStart]

@[simp] theorem ledger_trigInDeckle : ledger (trigInDeckle src' t f s d) = ledger s := by
  unfold trigInDeckle
  dsimp only
  (repeat' split)
  all_goals simp

@[simp] theorem kept_trigInGroups (h : Kept a (ledger s)) : Kept a (ledger (trigInGroups src' t f s)) := by
  simp +contextual [trigInGroups, h]

theorem keptO_execTrigInEdge (h : Kept a (ledger s)) : KeptO a (execTrigInEdge dt rising fine s) := by
  unfold execTrigInEdge
  extract_lets s₁ src t f s₂
  have h₁ : Kept a (ledger s₁) := kept_advance h
  have h₂ : Kept a (ledger s₂) := kept_trigInGroups (by simp [h₁])
  exact (keptO_ite _).2 ⟨fun _ => keptO_next.2 h₁, fun _ => keptO_next.2 (kept_forEach h₂ fun _ _ h => kept_startUnits h)⟩

end Sys2Proof.Machine
end

section
/-! The ledger under the operations of Machine/ChainCmd.lean: the chain. -/

namespace Sys2Proof.Machine

theorem keptO_execChain (h : Kept a (ledger s)) : KeptO a (execChain hd s) := by
  unfold execChain
  refine kept_noram h fun s h => ?_
  (repeat' split)
  all_goals simp [h]

@[simp] theorem ledger_setRole : ledger (setRole s r) = ledger s := by simp [setRole]

theorem keptO_execChainRole (h : Kept a (ledger s)) : KeptO a (execChainRole hd r force s) := by
  unfold execChainRole
  refine kept_noram h fun s h => ?_
  (repeat' split)
  all_goals simp [h]

theorem keptO_execChainCal (h : Kept a (ledger s)) : KeptO a (execChainCal hd s) := kept_noram h fun s h => by simp [h]

theorem keptO_execChainGroup (h : Kept a (ledger s)) : KeptO a (execChainGroup hd g on src' s) := by
  unfold execChainGroup
  refine kept_noram h fun s h => ?_
  (repeat' split)
  all_goals simp [h]

@[simp] theorem ledger_sendFrame : ledger (sendFrame s f) = ledger s := by simp [sendFrame]

theorem keptO_execChainFrameSend (h : Kept a (ledger s)) : KeptO a (execChainFrameSend dt s) := by
  unfold execChainFrameSend
  dsimp only
  split
  · simp [h]
  · split <;> simp [h]

@[simp] theorem ledger_redrive : ledger (redrive s f) = ledger s := by simp [redrive]
@[simp] theorem ledger_loadTb : ledger (loadTb s t) = ledger s := by simp [loadTb]
@[simp] theorem ledger_takeHeartbeat : ledger (takeHeartbeat s t agree') = ledger s := by simp [takeHeartbeat]

theorem keptO_execHeartbeatFrame (h : Kept a (ledger s)) : KeptO a (execHeartbeatFrame dt f s) := by
  unfold execHeartbeatFrame
  extract_lets s₁ c s₂
  have h₁ : Kept a (ledger s₁) := kept_advance h
  have h₂ : ledger s₂ = ledger s₁ := ledger_redrive
  simp [h₁, h₂]

theorem keptO_execChainTbLoad (h : Kept a (ledger s)) : KeptO a (execChainTbLoad dt s) := by
  unfold execChainTbLoad
  dsimp only
  (repeat' split)
  all_goals simp [h]

theorem keptO_execGroupStartFrame (h : Kept a (ledger s)) : KeptO a (execGroupStartFrame dt f s) := by simp [execGroupStartFrame, h]

theorem keptO_execCalibrationFrame (h : Kept a (ledger s)) : KeptO a (execCalibrationFrame dt f s) := by
  unfold execCalibrationFrame
  extract_lets s₁ c s₂
  have h₁ : Kept a (ledger s₁) := kept_advance h
  have h₂ : Kept a (ledger s₂) := by simp [s₂, h₁]
  rcases hd : draw s₁ with ⟨n, t⟩
  have ht : Kept a (ledger t) := by simpa [hd] using kept_draw h₁
  simp [h₁, h₂, ht]

theorem keptO_execChainLost (h : Kept a (ledger s)) : KeptO a (execChainLost dt lane s) := by
  simp +contextual [execChainLost, h]

end Sys2Proof.Machine
end

section
/-! The ledger under the operations of Machine/Trace.lean: TRACE commands and slots. -/

namespace Sys2Proof.Machine

@[simp] theorem ledger_putSlot : ledger (putSlot s d b) = ledger s := by simp [putSlot]

@[simp] theorem ledger_drainSlot : ledger (drainSlot s d) = ledger s := by
  unfold drainSlot
  dsimp only
  split <;> simp

theorem keptO_execTraceSlot (h : Kept a (ledger s)) : KeptO a (execTraceSlot dt s) := by simp [execTraceSlot, h]
@[simp] theorem ledger_regrant : ledger (regrant s d n f) = ledger s := by simp [regrant]
theorem keptO_execTrace (h : Kept a (ledger s)) : KeptO a (execTrace hd d s) := kept_noram h fun s h => by simp [h]
theorem keptO_execTraceShow (h : Kept a (ledger s)) : KeptO a (execTraceShow hd d i n s) := kept_noram h fun s h => by simp [h]
theorem keptO_execTraceRead (h : Kept a (ledger s)) : KeptO a (execTraceRead hd d i n s) := kept_noram h fun s h => by simp [h]
theorem keptO_execTraceSelect (h : Kept a (ledger s)) : KeptO a (execTraceSelect hd f s) := kept_noram h fun s h => by simp [h]
theorem keptO_execTraceGrantPort (h : Kept a (ledger s)) : KeptO a (execTraceGrantPort hd s) := kept_noram h fun s h => by simp [h]
theorem keptO_execTraceRevokePort (h : Kept a (ledger s)) : KeptO a (execTraceRevokePort hd s) := kept_noram h fun s h => by simp [h]
theorem keptO_execTraceGrantObserver (h : Kept a (ledger s)) : KeptO a (execTraceGrantObserver hd n s) := kept_noram h fun s h => by simp [h]
theorem keptO_execTraceRevokeObserver (h : Kept a (ledger s)) : KeptO a (execTraceRevokeObserver hd n s) := kept_noram h fun s h => by simp [h]
theorem keptO_execTraceEnable (h : Kept a (ledger s)) : KeptO a (execTraceEnable hd d n s) := kept_noram h fun s h => by simp [h]
theorem keptO_execTraceDisable (h : Kept a (ledger s)) : KeptO a (execTraceDisable hd d n s) := kept_noram h fun s h => by simp [h]
theorem keptO_execTracePort (h : Kept a (ledger s)) : KeptO a (execTracePort hd d on s) := kept_noram h fun s h => by simp [h]

end Sys2Proof.Machine
end

section
/-! The ledger under the operations of Machine/Count.lean: COUNT commands and the counter update. -/

namespace Sys2Proof.Machine

theorem keptO_execCount (h : Kept a (ledger s)) : KeptO a (execCount hd d l s) := by
  unfold execCount
  refine kept_noram h fun s h => ?_
  have hd : ∀ (c : Prop) [Decidable c], Kept a (ledger (if c then draw s else (0, s)).2) := fun c _ => by split <;> simp [h]
  simp [hd]

theorem keptO_execCountClear (h : Kept a (ledger s)) : KeptO a (execCountClear hd l s) := kept_noram h fun s h => by simp [h]
@[simp] theorem kept_meter (h : Kept a (ledger s)) : Kept a (ledger (meter s d)) := by simp [meter, h]
@[simp] theorem ledger_cooled : ledger (cooled s m) = ledger s := by simp [cooled]

theorem keptO_execModuleCounterUpdate (h : Kept a (ledger s)) : KeptO a (execModuleCounterUpdate dt m s) := by
  unfold execModuleCounterUpdate
  dsimp only
  (repeat' split)
  all_goals simp +contextual [h]

theorem keptO_execCountModule (h : Kept a (ledger s)) : KeptO a (execCountModule hd l s) := by
  unfold execCountModule
  refine kept_noram h fun s h => ?_
  have hd : ∀ (c : Prop) [Decidable c], Kept a (ledger (if c then draw s else (0, s)).2) := fun c _ => by split <;> simp [h]
  simp [hd]

end Sys2Proof.Machine
end

section
/-! The ledger under the operations of Machine/Events.lean: EVENT commands. -/

namespace Sys2Proof.Machine

@[simp] theorem ledger_putEvt : ledger (putEvt s n m cls hold) = ledger s := by simp [putEvt]
theorem keptO_execEventMapEvt (h : Kept a (ledger s)) : KeptO a (execEventMapEvt hd n d cls hold s) := kept_noram h fun s h => by simp [h]
theorem keptO_execEventMapModule (h : Kept a (ledger s)) : KeptO a (execEventMapModule hd n cls hold s) := kept_noram h fun s h => by simp [h]
theorem keptO_execEventMapTrigOut (h : Kept a (ledger s)) : KeptO a (execEventMapTrigOut hd n d m s) := kept_noram h fun s h => by simp [h]
theorem keptO_execEventMapFailOut (h : Kept a (ledger s)) : KeptO a (execEventMapFailOut hd d s) := kept_noram h fun s h => by simp [h]
theorem keptO_execEventMapMk (h : Kept a (ledger s)) : KeptO a (execEventMapMk hd n d s) := kept_noram h fun s h => by simp [h]

@[simp] theorem ledger_unmapLine : ledger (unmapLine s rows) = ledger s := by
  unfold unmapLine
  split <;> simp

theorem keptO_execEventUnmap (h : Kept a (ledger s)) : KeptO a (execEventUnmap hd l s) := kept_noram h fun s h => by simp [h]

theorem keptO_execEventClear (h : Kept a (ledger s)) : KeptO a (execEventClear hd n s) := by
  unfold execEventClear
  refine kept_noram h fun s h => ?_
  (repeat' split)
  all_goals simp [h]

theorem keptO_execEventShow (h : Kept a (ledger s)) : KeptO a (execEventShow hd s) := kept_noram h fun s h => by simp [h]
theorem keptO_execEventGrantPort (h : Kept a (ledger s)) : KeptO a (execEventGrantPort hd s) := kept_noram h fun s h => by simp [h]
theorem keptO_execEventRevokePort (h : Kept a (ledger s)) : KeptO a (execEventRevokePort hd s) := kept_noram h fun s h => by simp [h]

theorem keptO_execEvtPulseEnd (h : Kept a (ledger s)) : KeptO a (execEvtPulseEnd dt n s) := by
  unfold execEvtPulseEnd
  dsimp only
  (repeat' split)
  all_goals simp [h]

end Sys2Proof.Machine
end

section
/-! The ledger under the operations of Machine/MicroCmd.lean: MICRO commands. -/

namespace Sys2Proof.Machine

@[simp] theorem ledger_beginStore : ledger (beginStore s kind' n x) = ledger s := by
  unfold beginStore
  dsimp only
  (repeat' split)
  all_goals simp

@[simp] theorem ledger_endStore : ledger (endStore s kind' n x) = ledger s := by
  unfold endStore
  dsimp only
  (repeat' split)
  all_goals simp

theorem keptO_execMicroImage (h : Kept a (ledger s)) : KeptO a (execMicroImage hd kind' n blk img s) := kept_noramBlk h fun p s h => by simp [h]

theorem keptO_execMicroImageStored (h : Kept a (ledger s)) : KeptO a (execMicroImageStored dt s) := by
  unfold execMicroImageStored
  dsimp only
  (repeat' split)
  all_goals simp [h]

theorem keptO_execMicroImageList (h : Kept a (ledger s)) : KeptO a (execMicroImageList hd s) := kept_noram h fun s h => by simp [h]
theorem keptO_execMicroImageDrop (h : Kept a (ledger s)) : KeptO a (execMicroImageDrop hd n s) := kept_noram h fun s h => by simp [h]

@[simp] theorem keptR_writeSlice (h : Kept a (ledger s)) : KeptR a (writeSlice s d nano o p) := by
  simp +contextual [writeSlice, h]

theorem keptO_execMicroLoad (h : Kept a (ledger s)) : KeptO a (execMicroLoad hd nano a₀ blk s) := by
  unfold execMicroLoad
  refine kept_noramBlk h fun p s h => ?_
  simp
  intros
  exact keptR_writeSlice h _ _ ‹_›

theorem keptO_execMicroWord (h : Kept a (ledger s)) : KeptO a (execMicroWord hd a₀ v lo s) := by
  unfold execMicroWord
  refine kept_noram h fun s h => ?_
  simp
  intros
  exact keptR_writeSlice h _ _ ‹_›

@[simp] theorem ledger_putCtab : ledger (putCtab s d g) = ledger s := by simp [putCtab]

theorem keptO_execMicroDispatchWrite (h : Kept a (ledger s)) : KeptO a (execMicroDispatchWrite hd e v s) := by
  unfold execMicroDispatchWrite
  refine kept_noram h fun s h => keptR_bind.2 fun _ _ => keptR_bind.2 fun _ _ => keptR_bind_state (keptR_writeOrStage h fun _ h => h) fun _ _ h => ?_
  simpa using h

theorem keptO_execMicroDispatchList (h : Kept a (ledger s)) : KeptO a (execMicroDispatchList hd s) := kept_noram h fun s h => by simp [h]
theorem keptO_execMicroRead (h : Kept a (ledger s)) : KeptO a (execMicroRead hd nano a₀ n s) := kept_noram h fun s h => by simp [h]

theorem keptO_execMicroClear (h : Kept a (ledger s)) : KeptO a (execMicroClear hd s) := by
  unfold execMicroClear
  refine kept_noram h fun s h => keptR_bind_state (keptR_writeOrStage h fun _ h => kept_applyStaged h) fun _ _ h => ?_
  simpa using h

theorem keptO_execMicroCheck (h : Kept a (ledger s)) : KeptO a (execMicroCheck hd s) := kept_noram h fun s h => by simp [h]

end Sys2Proof.Machine
end

section
/-! The ledger under the operations of Machine/Roles.lean: roles and keys. -/

namespace Sys2Proof.Machine

theorem keptO_execOwnerTake (h : Kept a (ledger s)) : KeptO a (execOwnerTake hd key s) := kept_noram h fun s h => by simp [h]
theorem keptO_execOwnerRekey (h : Kept a (ledger s)) : KeptO a (execOwnerRekey hd wr c s) := kept_noram h fun s h => by simp [h]
theorem keptO_execOwnerObserverKey (h : Kept a (ledger s)) : KeptO a (execOwnerObserverKey hd n wr c s) := kept_noram h fun s h => by simp [h]

@[simp] theorem keptR_release (h : Kept a (ledger s)) : KeptR a (release s t) := by
  simp +contextual [release, h]

theorem keptO_released {o : Out} (h : KeptO a o) : KeptO a (released o) := by
  obtain ⟨t, rfl, h⟩ := h
  simpa [released] using h

theorem keptO_execOwnerRelease (h : Kept a (ledger s)) : KeptO a (execOwnerRelease hd s) :=
  keptO_released (kept_noram h fun _ h => keptR_release h)

theorem keptO_execOwnerClear (h : Kept a (ledger s)) : KeptO a (execOwnerClear hd s) :=
  keptO_released (kept_noram h fun _ h => keptR_bind.2 fun _ _ => keptR_release h)

theorem keptO_execDeckleKey (h : Kept a (ledger s)) : KeptO a (execDeckleKey hd d wr c s) := kept_noram h fun s h => by simp [h]
theorem keptO_execLoginRekey (h : Kept a (ledger s)) : KeptO a (execLoginRekey hd wr c s) := kept_noram h fun s h => by simp [h]

end Sys2Proof.Machine
end

section
/-! Every command and every step keeps the ledger. -/

namespace Sys2Proof.Machine

/-- Every command answers a next state, which keeps the ledger of the state that it finds. -/
theorem keptO_exec (h : Kept a (ledger s)) (c : Instr) : KeptO a (exec c s) :=
  match c with
  | .powerInputRise _ => keptO_execPowerInputRise h
  | .railsInTolerance _ => keptO_execRailsInTolerance h
  | .firmwareSlotVerify _ => keptO_execFirmwareSlotVerify h
  | .fBootRepeat _ => keptO_execFBootRepeat h
  | .verifyComplete _ => keptO_execVerifyComplete h
  | .loadComplete _ _ => keptO_execLoadComplete h
  | .selfTestComplete _ _ => keptO_execSelfTestComplete h
  | .slotRestoreComplete _ _ => keptO_execSlotRestoreComplete h
  | .ownerClearWindowEnd _ => keptO_execOwnerClearWindowEnd h
  | .powerLoss _ => keptO_execPowerLoss h
  | .holdUpEnd _ => keptO_execHoldUpEnd h
  | .resetNLow _ => keptO_execResetNLow h
  | .resetNHigh _ => keptO_execResetNHigh h
  | .fPwr _ => keptO_execFPwr h
  | .fHot _ => keptO_execFHot h
  | .fSupply _ => keptO_execFSupply h
  | .coreWarm _ => keptO_execCoreWarm h
  | .supplyRailCore _ => keptO_execSupplyRailCore h
  | .supplyRailInput _ _ => keptO_execSupplyRailInput h
  | .inputCurrentLimit _ => keptO_execInputCurrentLimit h
  | .warmSet _ => keptO_execWarmSet h
  | .warmLost _ => keptO_execWarmLost h
  | .acceptDegraded _ _ => keptO_execAcceptDegraded h
  | .keeperLoad _ => keptO_execKeeperLoad h
  | .usbDtrSet _ _ => keptO_execUsbDtrSet h
  | .usbDtrClear _ _ => keptO_execUsbDtrClear h
  | .usbBusLoss _ => keptO_execUsbBusLoss h
  | .conBreak _ => keptO_execConBreak h
  | .idleTimeout _ _ => keptO_execIdleTimeout h
  | .sendBlockedTimeout _ _ => keptO_execSendBlockedTimeout h
  | .xoffReceived _ _ => keptO_execXoffReceived h
  | .xonReceived _ _ => keptO_execXonReceived h
  | .conOverrun _ => keptO_execConOverrun h
  | .unknownCommand _ => keptO_execUnknownCommand h
  | .dataBlockTimeout _ _ _ => keptO_execDataBlockTimeout h
  | .dataBlockAbort _ _ _ => keptO_execDataBlockAbort h
  | .tagEntryExpiry _ _ => keptO_execTagEntryExpiry h
  | .hello _ => keptO_execHello h
  | .helloEcho _ _ => keptO_execHelloEcho h
  | .help _ _ => keptO_execHelp h
  | .ident _ => keptO_execIdent h
  | .identCert _ => keptO_execIdentCert h
  | .identAttest _ _ => keptO_execIdentAttest h
  | .status _ => keptO_execStatus h
  | .statusMeter _ => keptO_execStatusMeter h
  | .selftest _ => keptO_execSelftest h
  | .time _ => keptO_execTime h
  | .mode _ => keptO_execMode h
  | .modeMachine _ => keptO_execModeMachine h
  | .modeTyped _ => keptO_execModeTyped h
  | .modeSeal _ => keptO_execModeSeal h
  | .modeEcho _ _ => keptO_execModeEcho h
  | .modeXon _ _ => keptO_execModeXon h
  | .modeIdle _ _ => keptO_execModeIdle h
  | .modeBaud _ _ => keptO_execModeBaud h
  | .baudChangeApply _ => keptO_execBaudChangeApply h
  | .ownerTake _ _ => keptO_execOwnerTake h
  | .ownerRekey _ _ _ => keptO_execOwnerRekey h
  | .ownerObserverKey _ _ _ _ => keptO_execOwnerObserverKey h
  | .ownerRelease _ => keptO_execOwnerRelease h
  | .ownerClear _ => keptO_execOwnerClear h
  | .deckleKey _ _ _ _ => keptO_execDeckleKey h
  | .login _ _ => keptO_execLogin h
  | .loginResp _ _ => keptO_execLoginResp h
  | .loginReply _ _ => keptO_execLoginReply h
  | .nonceExpiry _ _ => keptO_execNonceExpiry h
  | .lockoutExpiry _ _ => keptO_execLockoutExpiry h
  | .loginRekey _ _ _ => keptO_execLoginRekey h
  | .logout _ => keptO_execLogout h
  | .atSchedule _ _ _ _ => keptO_execAtSchedule h
  | .atActionDue _ _ _ => keptO_execAtActionDue h
  | .atCancel _ _ => keptO_execAtCancel h
  | .deckleOpen _ _ _ => keptO_execDeckleOpen h
  | .couchComplete _ _ => keptO_execCouchComplete h
  | .deckleGrant _ _ _ => keptO_execDeckleGrant h
  | .deckleClose _ _ => keptO_execDeckleClose h
  | .deckleReclaim _ _ => keptO_execDeckleReclaim h
  | .zeroingComplete _ _ => keptO_execZeroingComplete h
  | .deckleRearm _ => keptO_execDeckleRearm h
  | .deckleList _ _ => keptO_execDeckleList h
  | .furnishSeal _ => keptO_execFurnishSeal h
  | .furnishLoad _ _ => keptO_execFurnishLoad h
  | .furnishSave _ _ => keptO_execFurnishSave h
  | .furnishStart _ _ => keptO_execFurnishStart h
  | .furnishDrop _ _ => keptO_execFurnishDrop h
  | .slotEraseComplete _ _ => keptO_execSlotEraseComplete h
  | .furnishSlots _ => keptO_execFurnishSlots h
  | .furnishSet _ _ => keptO_execFurnishSet h
  | .furnishRevert _ => keptO_execFurnishRevert h
  | .furnishShow _ _ _ => keptO_execFurnishShow h
  | .arm _ => keptO_execArm h
  | .run _ => keptO_execRun h
  | .trig _ => keptO_execTrig h
  | .stop _ => keptO_execStop h
  | .quireBoundaryStop _ _ => keptO_execQuireBoundaryStop h
  | .stopOff _ => keptO_execStopOff h
  | .stopOffComplete _ _ => keptO_execStopOffComplete h
  | .press _ => keptO_execPress h
  | .pressBoundary _ _ => keptO_execPressBoundary h
  | .pressNoboundary _ _ => keptO_execPressNoboundary h
  | .paceSet _ _ => keptO_execPaceSet h
  | .paceReached _ => keptO_execPaceReached h
  | .pace _ => keptO_execPace h
  | .monitorWindowEnd _ _ => keptO_execMonitorWindowEnd h
  | .headboxQuireWrite _ _ => keptO_execHeadboxQuireWrite h
  | .quireDecision _ _ _ => keptO_execQuireDecision h
  | .failOutFall _ => keptO_execFailOutFall h
  | .failOutRemapApply _ => keptO_execFailOutRemapApply h
  | .trigOutFall _ _ => keptO_execTrigOutFall h
  | .brokeDrain _ _ _ => keptO_execBrokeDrain h
  | .opNop _ _ => keptO_execOpNop h
  | .opHalt _ _ => keptO_execOpHalt h
  | .opRun _ _ => keptO_execOpRun h
  | .opMatch _ _ => keptO_execOpMatch h
  | .opWaitt _ _ => keptO_execOpWaitt h
  | .opLoop _ _ => keptO_execOpLoop h
  | .opEndl _ _ => keptO_execOpEndl h
  | .opJump _ _ => keptO_execOpJump h
  | .opCall _ _ => keptO_execOpCall h
  | .opRet _ _ => keptO_execOpRet h
  | .opBrfail _ _ => keptO_execOpBrfail h
  | .opMark _ _ => keptO_execOpMark h
  | .opLearn _ _ => keptO_execOpLearn h
  | .opTsel _ _ => keptO_execOpTsel h
  | .opCustom _ _ => keptO_execOpCustom h
  | .resultWaitRelease _ _ => keptO_execResultWaitRelease h
  | .umodeSeq _ _ _ => keptO_execUmodeSeq h
  | .umodeJmp _ _ _ => keptO_execUmodeJmp h
  | .umodeCall _ _ _ => keptO_execUmodeCall h
  | .umodeRet _ _ _ => keptO_execUmodeRet h
  | .umodeBr _ _ _ => keptO_execUmodeBr h
  | .umodeMway _ _ _ => keptO_execUmodeMway h
  | .umodeLoop _ _ _ => keptO_execUmodeLoop h
  | .umodeWait _ _ _ => keptO_execUmodeWait h
  | .vendorReloadComplete _ _ _ => keptO_execVendorReloadComplete h
  | .aluNop _ _ _ => keptO_execAluNop h
  | .aluPass _ _ _ => keptO_execAluPass h
  | .aluAdd _ _ _ => keptO_execAluAdd h
  | .aluAdc _ _ _ => keptO_execAluAdc h
  | .aluSub _ _ _ => keptO_execAluSub h
  | .aluSbc _ _ _ => keptO_execAluSbc h
  | .aluAnd _ _ _ => keptO_execAluAnd h
  | .aluOr _ _ _ => keptO_execAluOr h
  | .aluXor _ _ _ => keptO_execAluXor h
  | .aluAndn _ _ _ => keptO_execAluAndn h
  | .aluShl _ _ _ => keptO_execAluShl h
  | .aluShr _ _ _ => keptO_execAluShr h
  | .aluAsr _ _ _ => keptO_execAluAsr h
  | .aluRor _ _ _ => keptO_execAluRor h
  | .aluCmp _ _ _ => keptO_execAluCmp h
  | .aluTst _ _ _ => keptO_execAluTst h
  | .aluMin _ _ _ => keptO_execAluMin h
  | .aluMax _ _ _ => keptO_execAluMax h
  | .aluClz _ _ _ => keptO_execAluClz h
  | .aluPopc _ _ _ => keptO_execAluPopc h
  | .portMrd _ _ _ _ => keptO_execPortMrd h
  | .portMwr _ _ _ _ => keptO_execPortMwr h
  | .portDisp _ _ _ _ _ => keptO_execPortDisp h
  | .portQpop _ _ _ => keptO_execPortQpop h
  | .portQpush _ _ _ => keptO_execPortQpush h
  | .portEvent _ _ _ _ => keptO_execPortEvent h
  | .seqctlTsel _ _ _ => keptO_execSeqctlTsel h
  | .seqctlMark _ _ _ _ => keptO_execSeqctlMark h
  | .seqctlHalt _ _ => keptO_execSeqctlHalt h
  | .portTbset _ _ _ => keptO_execPortTbset h
  | .portShwr _ _ _ _ _ _ _ => keptO_execPortShwr h
  | .portStew _ _ _ => keptO_execPortStew h
  | .dpsTargetReg _ _ _ _ => keptO_execDpsTargetReg h
  | .dpsFfofsReg _ _ _ _ => keptO_execDpsFfofsReg h
  | .auxPlayReg _ _ _ _ => keptO_execAuxPlayReg h
  | .auxHaltReg _ _ _ _ => keptO_execAuxHaltReg h
  | .adcStartReg _ _ _ _ => keptO_execAdcStartReg h
  | .tmuStartReg _ _ _ _ => keptO_execTmuStartReg h
  | .tmuHaltReg _ _ _ _ => keptO_execTmuHaltReg h
  | .instrOtherReg _ _ _ _ => keptO_execInstrOtherReg h
  | .microImage _ _ _ _ _ => keptO_execMicroImage h
  | .microImageList _ => keptO_execMicroImageList h
  | .microImageDrop _ _ => keptO_execMicroImageDrop h
  | .microLoad _ _ _ _ => keptO_execMicroLoad h
  | .microWord _ _ _ _ => keptO_execMicroWord h
  | .microDispatchWrite _ _ _ => keptO_execMicroDispatchWrite h
  | .microDispatchList _ => keptO_execMicroDispatchList h
  | .microRead _ _ _ _ => keptO_execMicroRead h
  | .microCheck _ => keptO_execMicroCheck h
  | .microClear _ => keptO_execMicroClear h
  | .bankStripe _ _ => keptO_execBankStripe h
  | .dataSheets _ _ _ _ => keptO_execDataSheets h
  | .dataSheet _ _ _ _ _ _ => keptO_execDataSheet h
  | .dataRead _ _ _ => keptO_execDataRead h
  | .seqBank _ _ => keptO_execSeqBank h
  | .seqLoad _ _ _ => keptO_execSeqLoad h
  | .seqOp _ _ _ => keptO_execSeqOp h
  | .seqEntry _ _ => keptO_execSeqEntry h
  | .seqList _ _ => keptO_execSeqList h
  | .seqCost _ => keptO_execSeqCost h
  | .ref _ => keptO_execRef h
  | .refSelect _ _ _ => keptO_execRefSelect h
  | .loopLock _ => keptO_execLoopLock h
  | .refinUsable _ _ => keptO_execRefinUsable h
  | .refLost _ => keptO_execRefLost h
  | .timebaseHold _ => keptO_execTimebaseHold h
  | .trigInEdge _ _ _ => keptO_execTrigInEdge h
  | .chain _ => keptO_execChain h
  | .chainRole _ _ _ => keptO_execChainRole h
  | .chainCal _ => keptO_execChainCal h
  | .chainGroup _ _ _ _ => keptO_execChainGroup h
  | .chainFrameSend _ => keptO_execChainFrameSend h
  | .heartbeatFrame _ _ => keptO_execHeartbeatFrame h
  | .groupStartFrame _ _ => keptO_execGroupStartFrame h
  | .calibrationFrame _ _ => keptO_execCalibrationFrame h
  | .chainLost _ _ => keptO_execChainLost h
  | .chainTbLoad _ => keptO_execChainTbLoad h
  | .tsetCount _ _ => keptO_execTsetCount h
  | .tsetPeriod _ _ _ => keptO_execTsetPeriod h
  | .tsetPinFields _ _ _ _ => keptO_execTsetPinFields h
  | .tsetCopy _ _ _ => keptO_execTsetCopy h
  | .tsetShow _ _ _ => keptO_execTsetShow h
  | .tsetDeskew _ _ _ => keptO_execTsetDeskew h
  | .tsetDeskewMeasure _ _ => keptO_execTsetDeskewMeasure h
  | .tsetDeskewShow _ => keptO_execTsetDeskewShow h
  | .fDll _ _ => keptO_execFDll h
  | .dllLocked _ _ => keptO_execDllLocked h
  | .pinName _ _ _ => keptO_execPinName h
  | .pinRest _ _ _ => keptO_execPinRest h
  | .pinShow _ _ => keptO_execPinShow h
  | .level _ _ _ => keptO_execLevel h
  | .levelPmu _ _ _ => keptO_execLevelPmu h
  | .levelShow _ _ => keptO_execLevelShow h
  | .levelTick _ => keptO_execLevelTick h
  | .rangeDwellEnd _ _ => keptO_execRangeDwellEnd h
  | .pmuReconnectEnd _ _ => keptO_execPmuReconnectEnd h
  | .fPinDrvi _ _ => keptO_execFPinDrvi h
  | .pmuClampLimit _ _ _ => keptO_execPmuClampLimit h
  | .feWarm _ _ => keptO_execFeWarm h
  | .fPinHot _ _ => keptO_execFPinHot h
  | .broke _ => keptO_execBroke h
  | .brokeShow _ _ _ => keptO_execBrokeShow h
  | .brokeRead _ _ _ => keptO_execBrokeRead h
  | .brokeCount _ _ => keptO_execBrokeCount h
  | .brokeClear _ => keptO_execBrokeClear h
  | .capture _ => keptO_execCapture h
  | .captureShow _ _ _ => keptO_execCaptureShow h
  | .captureRead _ _ _ => keptO_execCaptureRead h
  | .captureClear _ => keptO_execCaptureClear h
  | .bankPower _ _ _ => keptO_execBankPower h
  | .bankZero _ _ => keptO_execBankZero h
  | .bankShow _ _ => keptO_execBankShow h
  | .bankPool _ => keptO_execBankPool h
  | .dpsFields _ _ _ => keptO_execDpsFields h
  | .dpsMatrix _ _ _ _ => keptO_execDpsMatrix h
  | .dpsFftable _ _ _ _ => keptO_execDpsFftable h
  | .dpsShow _ _ => keptO_execDpsShow h
  | .dpsTarget _ _ _ => keptO_execDpsTarget h
  | .dpsFfofs _ _ _ => keptO_execDpsFfofs h
  | .dpsRead _ _ => keptO_execDpsRead h
  | .learnParams _ _ _ => keptO_execLearnParams h
  | .learnRead _ _ => keptO_execLearnRead h
  | .learnLoad _ _ _ => keptO_execLearnLoad h
  | .learnClear _ _ => keptO_execLearnClear h
  | .controlPeriod _ _ _ => keptO_execControlPeriod h
  | .fDpsOv _ _ => keptO_execFDpsOv h
  | .fDpsHot _ _ => keptO_execFDpsHot h
  | .dpsClampLimit _ _ _ => keptO_execDpsClampLimit h
  | .dpsRangeDwellEnd _ _ => keptO_execDpsRangeDwellEnd h
  | .auxFields _ _ _ => keptO_execAuxFields h
  | .auxEntry _ _ _ _ => keptO_execAuxEntry h
  | .auxListWrite _ _ _ _ => keptO_execAuxListWrite h
  | .auxListRead _ _ _ _ => keptO_execAuxListRead h
  | .auxShow _ _ => keptO_execAuxShow h
  | .auxPlay _ _ => keptO_execAuxPlay h
  | .auxHalt _ _ => keptO_execAuxHalt h
  | .auxRead _ _ => keptO_execAuxRead h
  | .auxStartTick _ _ => keptO_execAuxStartTick h
  | .auxEntryBoundary _ _ => keptO_execAuxEntryBoundary h
  | .auxListEnd _ _ => keptO_execAuxListEnd h
  | .mkFall _ _ => keptO_execMkFall h
  | .auxSpanDwellEnd _ _ => keptO_execAuxSpanDwellEnd h
  | .adcFields _ _ _ => keptO_execAdcFields h
  | .adcEntry _ _ _ _ => keptO_execAdcEntry h
  | .adcSources _ => keptO_execAdcSources h
  | .adcShow _ _ => keptO_execAdcShow h
  | .adcStart _ _ => keptO_execAdcStart h
  | .adcResults _ _ _ => keptO_execAdcResults h
  | .adcRead _ _ _ => keptO_execAdcRead h
  | .adcStatus _ _ => keptO_execAdcStatus h
  | .adcTimerTick _ _ => keptO_execAdcTimerTick h
  | .adcScanStart _ _ => keptO_execAdcScanStart h
  | .adcConversionDone _ _ _ => keptO_execAdcConversionDone h
  | .tmuFields _ _ _ => keptO_execTmuFields h
  | .tmuShow _ _ => keptO_execTmuShow h
  | .tmuStart _ _ => keptO_execTmuStart h
  | .tmuHalt _ _ => keptO_execTmuHalt h
  | .tmuClear _ _ => keptO_execTmuClear h
  | .tmuStat _ _ => keptO_execTmuStat h
  | .tmuResults _ _ _ => keptO_execTmuResults h
  | .tmuRead _ _ _ => keptO_execTmuRead h
  | .tmuStatus _ _ => keptO_execTmuStatus h
  | .tmuStartEdge _ _ _ _ => keptO_execTmuStartEdge h
  | .tmuStopEdge _ _ _ _ => keptO_execTmuStopEdge h
  | .tmuTimeout _ _ => keptO_execTmuTimeout h
  | .tmuFreqStamp _ _ _ _ _ => keptO_execTmuFreqStamp h
  | .tmuGateClose _ _ => keptO_execTmuGateClose h
  | .fTmuLock _ _ => keptO_execFTmuLock h
  | .tmuRelock _ _ => keptO_execTmuRelock h
  | .eventMapEvt _ _ _ _ _ => keptO_execEventMapEvt h
  | .eventMapModule _ _ _ _ => keptO_execEventMapModule h
  | .eventMapTrigOut _ _ _ _ => keptO_execEventMapTrigOut h
  | .eventMapFailOut _ _ => keptO_execEventMapFailOut h
  | .eventMapMk _ _ _ => keptO_execEventMapMk h
  | .eventUnmap _ _ => keptO_execEventUnmap h
  | .eventClear _ _ => keptO_execEventClear h
  | .eventShow _ => keptO_execEventShow h
  | .eventGrantPort _ => keptO_execEventGrantPort h
  | .eventRevokePort _ => keptO_execEventRevokePort h
  | .evtPulseEnd _ _ => keptO_execEvtPulseEnd h
  | .eventLineSend _ _ => keptO_execEventLineSend h
  | .trace _ _ => keptO_execTrace h
  | .traceShow _ _ _ _ => keptO_execTraceShow h
  | .traceRead _ _ _ _ => keptO_execTraceRead h
  | .traceSelect _ _ => keptO_execTraceSelect h
  | .traceGrantPort _ => keptO_execTraceGrantPort h
  | .traceRevokePort _ => keptO_execTraceRevokePort h
  | .traceGrantObserver _ _ => keptO_execTraceGrantObserver h
  | .traceRevokeObserver _ _ => keptO_execTraceRevokeObserver h
  | .traceEnable _ _ _ => keptO_execTraceEnable h
  | .traceDisable _ _ _ => keptO_execTraceDisable h
  | .tracePort _ _ _ => keptO_execTracePort h
  | .traceSlot _ => keptO_execTraceSlot h
  | .count _ _ _ => keptO_execCount h
  | .countModule _ _ => keptO_execCountModule h
  | .countClear _ _ => keptO_execCountClear h
  | .moduleCounterUpdate _ _ => keptO_execModuleCounterUpdate h
  | .lineEditing _ _ _ => keptO_execLineEditing h
  | .armComplete _ _ => keptO_execArmComplete h
  | .furnishSaveComplete _ _ => keptO_execFurnishSaveComplete h
  | .microImageStored _ => keptO_execMicroImageStored h
  | .deskewMeasureComplete _ _ _ => keptO_execDeskewMeasureComplete h
  | .bankZeroComplete _ _ => keptO_execBankZeroComplete h

theorem kept_heldNext (h : Kept a (ledger s)) (hn : heldNext s = some (c, t)) : Kept a (ledger t) := by
  unfold heldNext at hn
  split at hn
  · cases hn
  · cases hn
    simp [h]

theorem canonical_ledger : (ledger s).Canonical ↔ MemoriesCanonical s :=
  ⟨fun c => { c with }, fun c => { c with }⟩

/-- A step answers a next state, which keeps the ledger of the state without the command that the step takes from the queue. -/
theorem keptO_step (s : State) : KeptO (ledger { s with pending := s.pending.tail }) (step s) := by
  unfold step
  split
  · next c r hp => exact keptO_exec (by rw [hp]; exact Kept.refl _) c
  · next hp =>
    have h : Kept (ledger { s with pending := s.pending.tail }) (ledger s) := by
      rw [show s.pending.tail = s.pending by rw [hp]; rfl]; exact Kept.refl _
    split
    · next hn => exact keptO_exec (kept_heldNext h hn) _
    · exact keptO_next.2 h

/-- A command that answers a next state keeps its ledger. -/
theorem kept_of_exec (h : exec c s = .next t) : Kept (ledger s) (ledger t) := by
  obtain ⟨t', ht, hk⟩ := keptO_exec (Kept.refl (ledger s)) c
  rw [h] at ht
  cases ht
  exact hk

theorem kept_of_step (h : step s = .next t) : Kept (ledger { s with pending := s.pending.tail }) (ledger t) := by
  obtain ⟨t', ht, hk⟩ := keptO_step s
  rw [h] at ht
  cases ht
  exact hk

end Sys2Proof.Machine
end

section
/-! What the ledger settles: every command answers a next state (O32), the queue (O33), the memories (O34) and the identity of the module (O35). -/

namespace Sys2Proof

open Machine

/-- From every state a run of any length goes on. -/
theorem safe_run (n : Nat) (s : State) : Safe s n := by
  induction n generalizing s with
  | zero => exact ⟨s, rfl⟩
  | succ n ih =>
    obtain ⟨t, ht, _⟩ := keptO_step s
    obtain ⟨u, hu⟩ := ih t
    have hs : core.step s = .next t := ht
    refine ⟨u, ?_⟩
    simp only [Host.Core.run, hs]
    exact hu

/-- Settles O32: every arm of the dispatch answers a next state, and a run is such steps. -/
theorem everyCommandAnswersANextState : Obligations.EveryCommandAnswersANextState :=
  ⟨fun c s => let ⟨t, ht, _⟩ := keptO_exec (Kept.refl (ledger s)) c; ⟨t, ht⟩, safe_run⟩

/-- Settles O33: the queue stands in the ledger, which every command keeps. -/
theorem commandsLeaveTheQueue : Obligations.CommandsLeaveTheQueue := by
  refine ⟨fun c s t h => (kept_of_exec h).pending, fun s t c r hp h => ?_, fun s t hp h => ?_⟩
  · exact (kept_of_step h).pending.trans (by simp [ledger, hp])
  · exact (kept_of_step h).pending.trans (by simp [ledger, hp])

/-- Settles O34: the memories stand in the ledger, which every step keeps. -/
theorem everyStepKeepsTheMemoriesCanonical : Obligations.EveryStepKeepsTheMemoriesCanonical :=
  fun _ _ hs h => canonical_ledger.1 ((kept_of_step h).canonical { hs with })

/-- Settles O35: identity, wall time and the count of free values stand in the ledger, which every step keeps. -/
theorem everyStepKeepsTheModuleIdentity : Obligations.EveryStepKeepsTheModuleIdentity := fun _ _ h =>
  have k := kept_of_step h
  ⟨k.variant, k.serial, k.wall, k.free⟩

end Sys2Proof
end

section
/-! SUPPORT. What a memory reads after each of its operations (chapter 14). -/

namespace Sys2Proof.Machine

theorem mget_cons (c : Nat × BitVec 8) (m : Mem) (i : Nat) : mget (c :: m) i = if c.1 = i then c.2 else mget m i := by
  by_cases h : c.1 = i <;> simp [mget, h]

theorem mget_eq_zero {m : Mem} {i : Nat} (h : ∀ c ∈ m, c.1 ≠ i) : mget m i = 0 := by
  have hf : m.find? (fun c => c.1 == i) = none := by simpa using h
  simp [mget, hf]

/-- Of two lists in a row the first answers for the addresses that it lists. -/
theorem mget_append_right {x : Mem} {i : Nat} (y : Mem) (h : ∀ c ∈ x, c.1 ≠ i) : mget (x ++ y) i = mget y i := by
  have hf : x.find? (fun c => c.1 == i) = none := by simpa using h
  simp [mget, List.find?_append, hf]

theorem mget_append_left {y : Mem} {i : Nat} (x : Mem) (h : ∀ c ∈ y, c.1 ≠ i) : mget (x ++ y) i = mget x i := by
  have hf : y.find? (fun c => c.1 == i) = none := by simpa using h
  simp [mget, List.find?_append, hf]

/-- A filter by address keeps the bytes whose address passes and zeroes the others. -/
theorem mget_filter (m : Mem) (p : Nat → Bool) (i : Nat) : mget (m.filter (fun c => p c.1)) i = if p i then mget m i else 0 := by
  induction m with
  | nil => simp [mget]
  | cons c r ih =>
    by_cases hp : p c.1 = true <;> by_cases hi : c.1 = i <;> simp_all [mget_cons]

/-- The bytes below `a` of a memory, a piece from `a` to `b`, and the bytes from `b` on: each address reads from its own part. -/
theorem mget_patch (m y : Mem) (a b i : Nat) (hab : a ≤ b) (hy : ∀ c ∈ y, a ≤ c.1 ∧ c.1 < b) :
    mget (m.filter (fun c => c.1 < a) ++ y ++ m.filter (fun c => b ≤ c.1)) i = if a ≤ i ∧ i < b then mget y i else mget m i := by
  have hlow : ∀ c ∈ m.filter (fun c => decide (c.1 < a)), c.1 < a := fun c hc => by simpa using (List.mem_filter.1 hc).2
  have hhigh : ∀ c ∈ m.filter (fun c => decide (b ≤ c.1)), b ≤ c.1 := fun c hc => by simpa using (List.mem_filter.1 hc).2
  have hfl := mget_filter m (fun j => decide (j < a)) i
  have hfh := mget_filter m (fun j => decide (b ≤ j)) i
  by_cases hin : a ≤ i ∧ i < b
  · rw [if_pos hin, mget_append_left, mget_append_right]
    · intro c hc; have := hlow c hc; omega
    · intro c hc; have := hhigh c hc; omega
  · rw [if_neg hin]
    by_cases hi : i < a
    · rw [List.append_assoc, mget_append_left, hfl, if_pos (by simpa using hi)]
      intro c hc
      rcases List.mem_append.1 hc with hc | hc
      · have := hy c hc; omega
      · have := hhigh c hc; omega
    · have hlow' : ∀ c ∈ m.filter (fun c => decide (c.1 < a)) ++ y, c.1 ≠ i := by
        intro c hc
        rcases List.mem_append.1 hc with hc | hc
        · have := hlow c hc; omega
        · have := hy c hc; omega
      by_cases hb : b ≤ i
      · rw [mget_append_right _ hlow', hfh, if_pos (by simpa using hb)]
      · omega

/-- Listed bytes read from their address on. -/
theorem mget_cells (a : Nat) (bs : List (BitVec 8)) (i : Nat) : mget (cells a bs) i = if a ≤ i then bs.getD (i - a) 0 else 0 := by
  induction bs generalizing a with
  | nil => simp [cells, mget]
  | cons b r ih =>
    have hcells : mget (cells a (b :: r)) i = if a = i then b else mget (cells (a + 1) r) i := by
      by_cases hb : b = 0
      · by_cases ha : a = i
        · simp [cells, hb, ih, ha]
        · simp [cells, hb, ha]
      · rw [cells, if_neg hb, mget_cons]
    rw [hcells, ih]
    by_cases ha : a = i
    · simp [ha]
    · by_cases hle : a ≤ i
      · obtain ⟨j, rfl⟩ := Nat.exists_eq_add_of_lt (Nat.lt_of_le_of_ne hle ha)
        have : a + j + 1 - a = j + 1 := by omega
        have : a + j + 1 - (a + 1) = j := by omega
        simp_all
      · rw [if_neg ha, if_neg hle, if_neg (by omega)]

/-- Written bytes read back, and every other address keeps its byte. -/
theorem mget_mput (m : Mem) (a : Nat) (bs : List (BitVec 8)) (i : Nat) :
    mget (mput m a bs) i = if a ≤ i ∧ i < a + bs.length then bs.getD (i - a) 0 else mget m i := by
  rw [mput, mget_patch m _ a _ i (by omega) (cells_range a bs), mget_cells]
  by_cases hin : a ≤ i ∧ i < a + bs.length <;> simp [hin]

theorem mget_mput_of_outside (m : Mem) {a : Nat} {bs : List (BitVec 8)} {i : Nat} (h : i < a ∨ a + bs.length ≤ i) :
    mget (mput m a bs) i = mget m i := by
  rw [mget_mput, if_neg (by omega)]

/-- A zeroed range reads 0, and every other address keeps its byte. -/
theorem mget_mzero (m : Mem) (a n i : Nat) : mget (mzero m a n) i = if a ≤ i ∧ i < a + n then 0 else mget m i := by
  have h := mget_filter m (fun j => decide (j < a ∨ a + n ≤ j)) i
  rw [mzero, h]
  by_cases hin : a ≤ i ∧ i < a + n
  · rw [if_neg (by simpa using hin), if_pos hin]
  · rw [if_pos (by simp; omega), if_neg hin]

/-- The slice that a copy moves reads as its source does. -/
theorem mget_mslice (m : Mem) (a n b i : Nat) : mget (mslice m a n b) i = if b ≤ i ∧ i < b + n then mget m (a + (i - b)) else 0 := by
  induction m with
  | nil => simp [mslice, mget]
  | cons c r ih =>
    by_cases hc : a ≤ c.1 ∧ c.1 < a + n
    · have hs : mslice (c :: r) a n b = (c.1 - a + b, c.2) :: mslice r a n b := by simp [mslice, hc]
      rw [hs, mget_cons, mget_cons, ih]
      by_cases hi : b ≤ i ∧ i < b + n
      · by_cases he : c.1 = a + (i - b)
        · rw [if_pos (by simp; omega), if_pos hi, if_pos he]
        · rw [if_neg (by simp; omega), if_pos hi, if_pos hi, if_neg he]
      · rw [if_neg (by simp; omega), if_neg hi, if_neg hi]
    · have hs : mslice (c :: r) a n b = mslice r a n b := by simp [mslice, hc]
      rw [hs, ih, mget_cons]
      by_cases hi : b ≤ i ∧ i < b + n
      · rw [if_pos hi, if_pos hi, if_neg (by omega)]
      · rw [if_neg hi, if_neg hi]

/-- A copy from a canonical memory makes the destination's bytes those of the source, and changes no other byte. -/
theorem mget_mcopy (m : Mem) {src : Mem} (hsrc : Memory.wf src) (a n b i : Nat) :
    mget (mcopy m src a n b) i = if b ≤ i ∧ i < b + n then mget src (a + (i - b)) else mget m i := by
  rw [mcopy, if_pos ((mok_iff src).2 hsrc), mget_patch m _ b (b + n) i (by omega), mget_mslice]
  · by_cases hi : b ≤ i ∧ i < b + n <;> simp [hi]
  · intro c hc
    obtain ⟨e, he, rfl⟩ := List.mem_map.1 hc
    have hr : a ≤ e.1 ∧ e.1 < a + n := by simpa using (List.mem_filter.1 he).2
    dsimp only
    omega

@[simp] theorem length_leBytes (n v : Nat) : (leBytes n v).length = n := by simp [leBytes]

theorem leBytes_getD {n v j : Nat} (h : j < n) : (leBytes n v).getD j 0 = BitVec.ofNat 8 (v / 256 ^ j) := by
  simp [leBytes, List.getD_eq_getElem?_getD, h]

theorem mget_mputNum_of_outside (m : Mem) {a n i : Nat} (v : Nat) (h : i < a ∨ a + n ≤ i) : mget (mputNum m a n v) i = mget m i :=
  mget_mput_of_outside m (by simpa using h)

theorem mget_mputNum (m : Mem) {a n j : Nat} (v : Nat) (h : j < n) : mget (mputNum m a n v) (a + j) = BitVec.ofNat 8 (v / 256 ^ j) := by
  rw [mputNum, mget_mput, if_pos (by simp; omega), Nat.add_sub_cancel_left, leBytes_getD h]

@[simp] theorem mnum_zero (m : Mem) (a : Nat) : mnum m a 0 = 0 := rfl

/-- The lowest byte of a number is at its address. -/
theorem mnum_succ (m : Mem) (a n : Nat) : mnum m a (n + 1) = (mget m a).toNat + 256 * mnum m (a + 1) n := by
  simp [mnum, mgets, List.range_succ_eq_map, Nat.add_assoc, Nat.add_comm 1, Function.comp_def]

/-- A number depends on its own bytes only. -/
theorem mnum_congr {m m' : Mem} {a n : Nat} (h : ∀ j < n, mget m (a + j) = mget m' (a + j)) : mnum m a n = mnum m' a n := by
  have hl : mgets m a n = mgets m' a n := List.map_congr_left fun j hj => h j (List.mem_range.1 hj)
  rw [mnum, mnum, hl]

theorem mnum_of_bytes {m : Mem} {a n v : Nat} (h : ∀ j < n, mget m (a + j) = BitVec.ofNat 8 (v / 256 ^ j)) : mnum m a n = v % 256 ^ n := by
  induction n generalizing a v with
  | zero => simp [Nat.mod_one]
  | succ n ih =>
    have hlow : mget m a = BitVec.ofNat 8 v := by simpa using h 0 (by omega)
    have hrest : ∀ j < n, mget m (a + 1 + j) = BitVec.ofNat 8 (v / 256 / 256 ^ j) := by
      intro j hj
      rw [Nat.div_div_eq_div_mul, ← Nat.pow_succ', ← h (j + 1) (by omega)]
      congr 1; omega
    rw [mnum_succ, ih hrest, hlow, Nat.pow_succ', Nat.mod_mul]
    simp

/-- A number written to a memory reads back, cut to its bytes. -/
theorem mnum_mputNum (m : Mem) (a n v : Nat) : mnum (mputNum m a n v) a n = v % 256 ^ n :=
  mnum_of_bytes fun _ hj => mget_mputNum m v hj

theorem mnum_mputNum_of_apart (m : Mem) {a n b k : Nat} (v : Nat) (h : b + k ≤ a ∨ a + n ≤ b) :
    mnum (mputNum m a n v) b k = mnum m b k :=
  mnum_congr fun _ _ => mget_mputNum_of_outside m v (by omega)

/-- Settles O49: each clause is the law of one memory operation. -/
theorem memoryReadsBackWhatWasWritten : Obligations.MemoryReadsBackWhatWasWritten :=
  ⟨mnum_mputNum, fun m _ _ v _ h => mget_mputNum_of_outside m v h, fun m bs a i => mget_mput m a bs i, mget_mzero, fun m _ a n b i h => mget_mcopy m h a n b i⟩

end Sys2Proof.Machine
end

section
/-! SUPPORT. Where the sheets of a pattern lie: two different sheets never share a byte (chapters 8 and 14). -/

namespace Sys2Proof.Machine

theorem widthOf_cases (n : Nat) : widthOf n = 32 ∨ widthOf n = 64 ∨ widthOf n = 128 ∨ widthOf n = 256 := by
  unfold widthOf
  split
  · exact .inl rfl
  · split
    · exact .inr (.inl rfl)
    · split
      · exact .inr (.inr (.inl rfl))
      · exact .inr (.inr (.inr rfl))

/-- The place of a sheet in its bank, counted in sheets. -/
def sheetSlot (f : Furnish) (pa i : Nat) : Nat := pa / f.stripe.length * 32 + i

theorem sheetAddr_eq (f : Furnish) (n pa i : Nat) :
    sheetAddr f (widthOf n) pa i = quireBank f pa * 2 ^ 20 + sheetSlot f pa i * (widthOf n / 8) := by
  have h : 4 * widthOf n = 32 * (widthOf n / 8) := by
    rcases widthOf_cases n with hw | hw | hw | hw <;> rw [hw]
  rw [sheetAddr, quireAddr, bankBase, sheetSlot, h, Nat.add_mul, ← Nat.mul_assoc, Nat.add_assoc]

/-- A sheet lies whole in the bank of its quire. -/
theorem sheetSlot_lt {f : Furnish} {n pa i : Nat} (hpa : pa < patternSize f (widthOf n)) (hi : i < 32) :
    (sheetSlot f pa i + 1) * (widthOf n / 8) ≤ 2 ^ 20 := by
  have hq : pa / f.stripe.length < bankQuires (widthOf n) := Nat.div_lt_of_lt_mul hpa
  unfold bankQuires at hq
  unfold sheetSlot
  rcases widthOf_cases n with hw | hw | hw | hw <;> rw [hw] at hq ⊢ <;> omega

/-- Two quires in one bank are at the same place of the stripe. -/
theorem stripe_mod_eq {f : Furnish} {pa pa' : Nat} (hnd : f.stripe.Nodup) (hL : 0 < f.stripe.length) (h : quireBank f pa' = quireBank f pa) :
    pa' % f.stripe.length = pa % f.stripe.length := by
  have hr := Nat.mod_lt pa hL
  have hr' := Nat.mod_lt pa' hL
  rw [quireBank, quireBank, List.getElem?_eq_getElem hr, List.getElem?_eq_getElem hr'] at h
  exact (List.Nodup.getElem_inj_iff hnd).1 (by simpa using h)

/-- Two different sheets of a pattern lie apart in the vat. -/
theorem sheets_apart {f : Furnish} {n pa pa' i i' : Nat} (hnd : f.stripe.Nodup) (hpa : pa < patternSize f (widthOf n))
    (hpa' : pa' < patternSize f (widthOf n)) (hi : i < 32) (hi' : i' < 32) (hne : ¬ (pa' = pa ∧ i' = i)) :
    sheetAddr f (widthOf n) pa' i' + widthOf n / 8 ≤ sheetAddr f (widthOf n) pa i ∨
      sheetAddr f (widthOf n) pa i + widthOf n / 8 ≤ sheetAddr f (widthOf n) pa' i' := by
  have hin := sheetSlot_lt hpa hi
  have hin' := sheetSlot_lt hpa' hi'
  rw [sheetAddr_eq, sheetAddr_eq]
  rw [Nat.succ_mul] at hin hin'
  rcases Nat.lt_trichotomy (quireBank f pa') (quireBank f pa) with hb | hb | hb
  · omega
  · have hL : 0 < f.stripe.length := Nat.pos_of_mul_pos_right (Nat.zero_lt_of_lt hpa)
    have hslot : sheetSlot f pa' i' ≠ sheetSlot f pa i := by
      unfold sheetSlot
      intro h
      have hq : pa' / f.stripe.length = pa / f.stripe.length := by omega
      refine hne ⟨?_, by omega⟩
      rw [← Nat.div_add_mod pa' f.stripe.length, hq, stripe_mod_eq hnd hL hb, Nat.div_add_mod]
    rw [hb]
    rcases Nat.lt_or_gt_of_ne hslot with hlt | hlt
    · have := Nat.mul_le_mul_right (widthOf n / 8) hlt
      rw [Nat.succ_mul] at this
      omega
    · have := Nat.mul_le_mul_right (widthOf n / 8) hlt
      rw [Nat.succ_mul] at this
      omega
  · omega

theorem writeSheet_vat (s : State) (d : Nat) (f : Furnish) (pa i x : Nat) :
    (writeSheet s d f pa i x).vat = mputNum s.vat (sheetAddr f (getDk s d).width pa i) ((getDk s d).width / 8) x := rfl

/-- Settles O45: a written number reads back, and two sheets lie apart. -/
theorem sheetsOfAPatternAreStoredApart : Obligations.SheetsOfAPatternAreStoredApart := by
  unfold Obligations.SheetsOfAPatternAreStoredApart
  intro s d f pa i x pa' i' hnd hpa hpa' hi hi' hx
  rw [writeSheet_vat]
  unfold Deckle.width at *
  by_cases hsame : pa' = pa ∧ i' = i
  · obtain ⟨rfl, rfl⟩ := hsame
    have hfit : 256 ^ (widthOf (getDk s d).grant.ch.length / 8) = 2 ^ widthOf (getDk s d).grant.ch.length := by
      rcases widthOf_cases (getDk s d).grant.ch.length with hw | hw | hw | hw <;> norm_num [hw]
    rw [if_pos ⟨rfl, rfl⟩, mnum_mputNum, hfit, Nat.mod_eq_of_lt hx]
  · rw [if_neg hsame, mnum_mputNum_of_apart _ _ (sheets_apart hnd hpa hpa' hi hi' hsame)]

end Sys2Proof.Machine
end

section
/-! SUPPORT. What an event of a deckle and the clearing of a seal leave as they were; where an edit goes (chapter 5). -/

namespace Sys2Proof.Machine

section
variable {g : Deckle → β} (hg : ∀ k q l c, g { k with evq := q, evlost := l, cnt := c } = g k)
include hg

/-- An event of a deckle changes its queue, its lost count and its counters alone. -/
theorem queueEv_keeps (s : State) (e d : Nat) (own : Bool) (c : EvClass) (t : Line) :
    g (getDk (queueEv s e own c t) d) = g (getDk s d) := by
  rw [queueEv]
  refine getDk_modDk_keeps (fun k => ?_) s d
  dsimp only
  split <;> split <;> exact hg k _ _ _

theorem event_keeps (s : State) (e d : Nat) (c : EvClass) (t : Line) : g (getDk (event s e c t) d) = g (getDk s d) := by
  rw [event, queueEv_keeps hg, getDk_evtRaise]

end

section
variable {g : Deckle → β} (hg : ∀ k q l c z x, g { k with evq := q, evlost := l, cnt := c, sealN := z, waitWarm := x } = g k)
include hg

/-- The end of a wait for WARM changes that mark and, by its event, the queue of the deckle. -/
theorem cancelWarm_keeps (s : State) (e d : Nat) (y : String) : g (getDk (cancelWarm s e y) d) = g (getDk s d) := by
  rw [cancelWarm]
  split
  · rw [event_keeps (fun k q l c => hg k q l c k.sealN k.waitWarm)]
    exact getDk_modDk_keeps (fun k => hg k k.evq k.evlost k.cnt k.sealN false) s d
  · rfl

theorem clearSeal_keeps (s : State) (e d : Nat) (y : String) : g (getDk (clearSeal s e y) d) = g (getDk s d) := by
  rw [clearSeal, cancelWarm_keeps hg]
  exact getDk_modDk_keeps (fun k => hg k k.evq k.evlost k.cnt none k.waitWarm) s d

end

/-- The queue of one deckle is not that of another. -/
theorem getDk_queueEv_other (s : State) {e d : Nat} (h : d ≠ e) (own : Bool) (c : EvClass) (t : Line) :
    getDk (queueEv s e own c t) d = getDk s d := getDk_modDk_other _ _ _ _ h

theorem getDk_event_other (s : State) {e d : Nat} (h : d ≠ e) (c : EvClass) (t : Line) : getDk (event s e c t) d = getDk s d := by
  rw [event, getDk_queueEv_other _ h, getDk_evtRaise]

theorem getDk_cancelWarm_other (s : State) {e d : Nat} (h : d ≠ e) (y : String) : getDk (cancelWarm s e y) d = getDk s d := by
  rw [cancelWarm]
  split
  · rw [getDk_event_other _ h, getDk_modDk_other _ _ _ _ h]
  · rfl

theorem getDk_clearSeal_other (s : State) {e d : Nat} (h : d ≠ e) (y : String) : getDk (clearSeal s e y) d = getDk s d := by
  rw [clearSeal, getDk_cancelWarm_other _ h, getDk_modDk_other _ _ _ _ h]

@[simp] theorem evtRaise_bk (s : State) (x : MapSrc) (c : EvClass) : (evtRaise s x c).bk = s.bk :=
  foldl_keeps (g := State.bk) (fun s n => by dsimp only; split <;> rfl) _ _

@[simp] theorem event_bk (s : State) (d : Nat) (c : EvClass) (t : Line) : (event s d c t).bk = s.bk := by simp [event, queueEv]

@[simp] theorem cancelWarm_vat (s : State) (d : Nat) (y : String) : (cancelWarm s d y).vat = s.vat := by
  rw [cancelWarm]; split <;> simp

@[simp] theorem cancelWarm_bk (s : State) (d : Nat) (y : String) : (cancelWarm s d y).bk = s.bk := by
  rw [cancelWarm]; split <;> simp

@[simp] theorem clearSeal_vat (s : State) (d : Nat) (y : String) : (clearSeal s d y).vat = s.vat := by simp [clearSeal]
@[simp] theorem clearSeal_bk (s : State) (d : Nat) (y : String) : (clearSeal s d y).bk = s.bk := by simp [clearSeal]

/-- After the seal of a deckle is cleared it has none. -/
@[simp] theorem clearSeal_sealN (s : State) (d : Nat) (y : String) : (getDk (clearSeal s d y) d).sealN = none := by
  rw [clearSeal, cancelWarm]
  split
  · rw [event_keeps (g := Deckle.sealN) (fun _ _ _ _ => rfl), getDk_modDk_same, getDk_modDk_same]
  · rw [getDk_modDk_same]

/-- In OPEN and HELD an edit changes the working furnish and clears the seal. -/
theorem edit_of_working (h : (getDk s d).st = .opened ∨ (getDk s d).st = .held) (item : Option String) (f : Furnish → Furnish) :
    edit s d item f = .ok (clearSeal (modDk s d (fun k => { k with work := f k.work })) d "EDIT", []) := by
  unfold edit; exact if_pos h

/-- In the other open states an edit changes the shadow. -/
theorem edit_of_shadowed (h : (getDk s d).st.shadowed = true) (item : Option String) (f : Furnish → Furnish) :
    edit s d item f = .ok (modDk s d (fun k => { k with shad := f k.shad, dirty := true, need := k.need ++ item.toList }),
      if item.isSome then [w "SHADOW", w "NEEDSTOP"] else [w "SHADOW"]) := by
  have hw : ¬ ((getDk s d).st = .opened ∨ (getDk s d).st = .held) := by
    rintro (hst | hst) <;> simp [hst, DkState.shadowed] at h
  unfold edit
  dsimp only
  rw [if_neg hw, if_pos h]
  cases item <;> rfl

theorem edit_refused (h : (getDk s d).st = .closed ∨ (getDk s d).st = .zeroing) (item : Option String) (f : Furnish → Furnish) :
    edit s d item f = .error (e420 (getDk s d)) := by
  rcases h with h | h <;> simp [edit, h, DkState.shadowed]

theorem shadowed_iff (x : DkState) : x.shadowed = true ↔ x = .armed ∨ x = .running ∨ x = .stopped ∨ x = .faulted := by
  cases x <;> simp [DkState.shadowed]

/-- A deckle takes edits to its working furnish, or to its shadow, or takes none. -/
theorem edit_states (x : DkState) : (x = .opened ∨ x = .held) ∨ x.shadowed = true ∨ x = .closed ∨ x = .zeroing := by
  cases x <;> simp [DkState.shadowed]

/-- Settles O51: an accepted edit is one of two, by the state of the deckle. -/
theorem editsGoToTheWorkingFurnishOrTheShadow : Obligations.EditsGoToTheWorkingFurnishOrTheShadow := by
  refine ⟨fun s d item f r t h => ?_, fun s d item f h => edit_refused h item f⟩
  rcases edit_states (getDk s d).st with hst | hst | hst
  · rw [edit_of_working hst] at h
    simp only [Except.ok.injEq, Prod.mk.injEq] at h
    obtain ⟨rfl, rfl⟩ := h
    have hopen : ¬ ((getDk s d).st = .armed ∨ (getDk s d).st = .running ∨ (getDk s d).st = .stopped ∨ (getDk s d).st = .faulted) := by
      rcases hst with hst | hst <;> simp [hst]
    refine ⟨?_, ?_, by simp, by simp, fun e he => ?_, fun _ => ⟨?_, ?_, by simp, rfl⟩, fun h => absurd h hopen⟩
    · rw [clearSeal_keeps (g := Deckle.act) (fun _ _ _ _ _ _ => rfl), getDk_modDk_same]
    · rw [clearSeal_keeps (g := Deckle.grant) (fun _ _ _ _ _ _ => rfl), getDk_modDk_same]
    · rw [getDk_clearSeal_other _ he, getDk_modDk_other _ _ _ _ he]
    · rw [clearSeal_keeps (g := Deckle.work) (fun _ _ _ _ _ _ => rfl), getDk_modDk_same]
    · rw [clearSeal_keeps (g := Deckle.shad) (fun _ _ _ _ _ _ => rfl), getDk_modDk_same]
  · rw [edit_of_shadowed hst] at h
    simp only [Except.ok.injEq, Prod.mk.injEq] at h
    obtain ⟨rfl, rfl⟩ := h
    refine ⟨by simp, by simp, rfl, rfl, fun e he => getDk_modDk_other _ _ _ _ he, fun h => ?_, fun _ => ⟨by simp, by simp, by simp, rfl⟩⟩
    rcases h with h | h <;> simp [h, DkState.shadowed] at hst
  · rw [edit_refused hst] at h
    cases h

end Sys2Proof.Machine
end

section
/-! SUPPORT. A line whose tag its memory holds: it is answered without its command (chapter 4). -/

namespace Sys2Proof

open Machine

theorem macTake_role (x : LineSt) : (macTake x).role = x.role := by unfold macTake; split <;> rfl

theorem begun_role (h : Hdr) (s : State) : (getLn (begun h s) h.line).role = (getLn s h.line).role := by
  simp [begun_getLn, macTake_role]

/-- What a line with a known tag does instead of its command. -/
def knownTag (s : State) (h : Hdr) (text : List Nat) (m : TagMem) (t : List Nat) (e : TagEntry) (slot : Nat) : State :=
  if e.text != text then answer s h.line slot [] e409
  else if e.reply.isNone then { s with jobs := s.jobs ++ [{ kind := .dup m t, line := h.line, slot := slot }] }
  else answer s h.line slot (replayOf e).1 (replayOf e).2

theorem start_known (pre : State → Res Unit) (h : Hdr) (x : List Nat) (n : Nat) (body : Body) (ht : lineTag h.text = some t)
    (he : findTag s (tagMemOf h.line (getLn s h.line).role) t = some e) :
    start s pre h x n body = knownTag s h (normText h.text ++ x) (tagMemOf h.line (getLn s h.line).role) t e n := by
  simp only [start, ht, he, knownTag]

/-- A line that arrives with a known tag, whatever its command. -/
theorem noram_known (c : Instr) (f : Form) (body : Body) (hA : Arrives h s) (ht : lineTag (seen h s).text = some t)
    (he : findTag (begun h s) (tagMemOf h.line (getLn s h.line).role) t = some e) :
    noram s c f h body =
      .next (knownTag (begun h s) h (normText (seen h s).text) (tagMemOf h.line (getLn s h.line).role) t e
        ((getLn (begun h s) h.line).nslot - 1)) := by
  have hm : (tagMemOf (seen h s).line (getLn (begun h s) (seen h s).line).role) = tagMemOf h.line (getLn s h.line).role := by
    rw [seen_line, begun_role]
  rw [noram, arrive_begun hA _ [] _ _ rfl]
  dsimp only [blkMacs]
  rw [start_known _ _ _ _ _ ht (by rw [hm]; exact he), hm, List.append_nil, knownTag, knownTag, seen_line]

/-- Settles O52: a line with a known tag is answered by what the tag memory holds. -/
theorem aKnownTagIsReplayedOrRefused : Obligations.AKnownTagIsReplayedOrRefused := by
  rintro c f h body s _ t e hA rfl ht he
  rw [noram_known c f body hA ht he, knownTag]
  refine ⟨fun htext hrep => ?_, fun htext hrep => ?_, fun htext => ?_, fun b g hrep => ?_⟩
  · simp [htext, Option.isSome_iff_ne_none.1 hrep]
  · simp [htext, hrep]
  · simp [htext]
  · simp only [replayOf, hrep]
    split <;> exact ⟨_, rfl⟩

end Sys2Proof
end

section
/-! SUPPORT. The ALU in terms of integers: the adder, and the counts of bits (chapter 9). -/

namespace Sys2Proof.Machine

theorem addWith_val (a b : BitVec 32) (ci : Bool) : (addWith a b ci).val = a + b + BitVec.ofNat 32 ci.toNat := by
  apply BitVec.eq_of_toNat_eq
  cases ci <;> simp [addWith]

theorem addWith_c (a b : BitVec 32) (ci : Bool) : (addWith a b ci).c = some (decide (2 ^ 32 ≤ a.toNat + b.toNat + ci.toNat)) := by
  cases ci <;> rfl

/-- The adder overflows exactly where the signed sum does not fit in 32 bits. -/
theorem addWith_v (a b : BitVec 32) (ci : Bool) : (addWith a b ci).v =
    decide (a.toInt + b.toInt + ci.toNat < -2 ^ 31 ∨ 2 ^ 31 ≤ a.toInt + b.toInt + ci.toNat) := by
  have ha := a.isLt
  have hb := b.isLt
  have hc : (if ci then 1 else 0) = ci.toNat := by cases ci <;> rfl
  have hci : ci.toNat ≤ 1 := Bool.toNat_le ci
  rw [Bool.eq_iff_iff]
  simp only [addWith, hc, BitVec.msb_eq_decide, BitVec.toInt_eq_toNat_cond, BitVec.toNat_ofNat, Bool.and_eq_true, beq_iff_eq,
    bne_iff_ne, decide_eq_true_eq, ne_eq, decide_eq_decide]
  split <;> split <;> omega

theorem toInt_complement (b : BitVec 32) : (~~~b).toInt = -b.toInt - 1 := by
  have hb := b.isLt
  simp only [BitVec.toInt_eq_toNat_cond, BitVec.toNat_not]
  split <;> split <;> omega

theorem toNat_shiftOut (r : BitVec 32) (n : Nat) (last : Bool) : (shiftOut r n last).val.toNat = r.toNat := rfl

/-- The position that CLZ finds: no bit above it, and a bit there where the operand has one. -/
theorem clz_spec (a : BitVec 32) : clz a ≤ 32 ∧ (∀ j < clz a, a.getLsbD (31 - j) = false) ∧ (clz a < 32 → a.getLsbD (31 - clz a) = true) := by
  unfold clz
  cases h : (List.range 32).find? (fun i => a.getLsbD (31 - i)) with
  | none => simpa using h
  | some i =>
    obtain ⟨hi, hm, hall⟩ := List.find?_range_eq_some.1 h
    rw [List.mem_range] at hm
    exact ⟨by simpa using hm.le, fun j hj => by simpa using hall j hj, fun _ => hi⟩

theorem toNat_lt_of_clz (a : BitVec 32) : a.toNat < 2 ^ (32 - clz a) := by
  obtain ⟨_, hzero, _⟩ := clz_spec a
  refine Nat.lt_pow_two_of_testBit _ fun i hi => ?_
  by_cases h32 : i < 32
  · have := hzero (31 - i) (by omega)
    rwa [show 31 - (31 - i) = i by omega] at this
  · exact Nat.testBit_lt_two_pow (lt_of_lt_of_le a.isLt (Nat.pow_le_pow_right (by omega) (by omega)))

theorem le_toNat_of_clz {a : BitVec 32} (ha : a ≠ 0) : 2 ^ (31 - clz a) ≤ a.toNat := by
  obtain ⟨hle, hzero, hone⟩ := clz_spec a
  refine Nat.ge_two_pow_of_testBit (hone (lt_of_le_of_ne hle fun h32 => ha ?_))
  have := toNat_lt_of_clz a
  exact BitVec.eq_of_toNat_eq (by simp [h32] at this; simp [this])

theorem popc_eq_zero_iff (a : BitVec 32) : popc a = 0 ↔ a = 0 := by
  rw [popc, List.length_eq_zero_iff, List.filter_eq_nil_iff]
  constructor
  · intro h
    refine BitVec.eq_of_getLsbD_eq fun i hi => ?_
    simpa using h i (List.mem_range.2 hi)
  · rintro rfl i _
    simp

/-- Settles O54: the adder's sum, carry and overflow serve ADD to CMP; the other rows are facts about words. -/
theorem aluAgreesWithIntegerArithmetic : Obligations.AluAgreesWithIntegerArithmetic := by
  refine ⟨fun a b c => ?add, fun a b c => ?adc, fun a b c => ?sub, fun a b c => ?sbc, fun a b c => ?shift, fun a b c => ?minmax,
    fun a => ⟨(clz_spec a).1, toNat_lt_of_clz a, le_toNat_of_clz⟩, fun a => ⟨?popc, popc_eq_zero_iff a⟩⟩
  case add =>
    simp [alu, addWith_val, addWith_c, addWith_v]
  case adc =>
    simp [alu, addWith_val, addWith_c]
  case sub =>
    have hb := b.isLt
    refine ⟨?_, ?_, ?_, rfl⟩
    · simp [alu, addWith_val, BitVec.sub_eq_add_neg, BitVec.neg_eq_not_add, BitVec.add_assoc]
    · simp only [alu, addWith_c, BitVec.toNat_not, Bool.toNat_true, Option.some.injEq, decide_eq_decide]
      omega
    · simp only [alu, addWith_v, toInt_complement, Bool.toNat_true, decide_eq_decide]
      omega
  case sbc =>
    apply BitVec.eq_of_toNat_eq
    have ha := a.isLt
    have hb := b.isLt
    cases c <;> simp [alu, addWith_val] <;> omega
  case shift =>
    simp [alu, toNat_shiftOut, Nat.shiftLeft_eq, Nat.shiftRight_eq_div_pow]
  case minmax =>
    simp only [alu]
    constructor <;> split <;> simp <;> omega
  case popc =>
    exact (List.length_filter_le _ _).trans (by simp)

end Sys2Proof.Machine
end

section
/-! SUPPORT. The parity of the control stores: what a word's parity bits depend on, and what one upset bit does to them (chapter 9). -/

namespace Sys2Proof.Machine

/-- A canonical memory lists exactly the bytes that it reads. -/
theorem mem_iff_of_wf {m : Mem} (h : Memory.wf m) (a : Nat) (v : BitVec 8) : (a, v) ∈ m ↔ mget m a = v ∧ v ≠ 0 := by
  induction m with
  | nil => exact ⟨fun h => absurd h (by simp), fun ⟨h, hv⟩ => absurd h.symm hv⟩
  | cons c r ih =>
    have hr : Memory.wf r := ⟨(List.pairwise_cons.1 h.1).2, fun e he => h.2 e (List.mem_cons_of_mem _ he)⟩
    have hlt := (List.pairwise_cons.1 h.1).1
    rw [List.mem_cons, ih hr, mget_cons]
    by_cases ha : c.1 = a
    · have hnot : mget r a = 0 := mget_eq_zero fun e he => by have := hlt e he; omega
      have hc := h.2 c (List.mem_cons_self ..)
      obtain ⟨b, u⟩ := c
      simp only at ha hc
      subst ha
      simp only [Prod.mk.injEq, true_and, hnot, if_true]
      constructor
      · rintro (rfl | ⟨rfl, hv⟩)
        · exact ⟨rfl, hc⟩
        · exact absurd rfl hv
      · rintro ⟨rfl, _⟩
        exact .inl rfl
    · rw [if_neg ha]
      constructor
      · rintro (rfl | hv)
        · exact absurd rfl ha
        · exact hv
      · exact .inr

/-- The canonical form of a memory is unique. -/
theorem mem_ext {m m' : Mem} (h : Memory.wf m) (h' : Memory.wf m') (heq : ∀ i, mget m i = mget m' i) : m = m' := by
  refine List.Perm.eq_of_pairwise (le := fun a b => a.1 < b.1) (fun a b _ _ hab hba => by omega) h.1 h'.1 ?_
  refine (List.perm_ext_iff_of_nodup (h.1.imp fun hab => ?_) (h'.1.imp fun hab => ?_)).2 fun c => ?_
  · rintro rfl; omega
  · rintro rfl; omega
  · rw [mem_iff_of_wf h, mem_iff_of_wf h', heq]

/-! ### The parity bits of a word -/

/-- What one byte adds to the parity bits of word `i`. -/
def parTerm (sz part i : Nat) (c : Nat × BitVec 8) : BitVec 8 :=
  if c.1 / sz = i ∧ bytePar c.2 then BitVec.ofNat 8 (2 ^ (c.1 % sz / part)) else 0#8

/-- The parity bits of word `i` of a memory. -/
def wordPar (sz part i : Nat) (m : Mem) : BitVec 8 := m.foldr (fun c q => parTerm sz part i c ^^^ q) 0#8

@[simp] theorem wordPar_nil (sz part i : Nat) : wordPar sz part i [] = 0#8 := rfl
@[simp] theorem wordPar_cons (sz part i : Nat) (c : Nat × BitVec 8) (m : Mem) :
    wordPar sz part i (c :: m) = parTerm sz part i c ^^^ wordPar sz part i m := rfl

theorem wordPar_append (sz part i : Nat) (x y : Mem) : wordPar sz part i (x ++ y) = wordPar sz part i x ^^^ wordPar sz part i y := by
  induction x with
  | nil => simp
  | cons c x ih => simp [ih, BitVec.xor_assoc]

/-- Bytes of other words add nothing. -/
theorem wordPar_filter {p : Nat × BitVec 8 → Bool} (hp : ∀ c, c.1 / sz = i → p c = true) (part : Nat) (m : Mem) :
    wordPar sz part i (m.filter p) = wordPar sz part i m := by
  induction m with
  | nil => rfl
  | cons c m ih =>
    by_cases hc : p c = true
    · simp [hc, ih]
    · have hi : c.1 / sz ≠ i := fun h => hc (hp c h)
      simp [hc, ih, parTerm, hi]

theorem wordPar_eq_zero {m : Mem} (h : ∀ c ∈ m, c.1 / sz ≠ i) (part : Nat) : wordPar sz part i m = 0#8 := by
  induction m with
  | nil => rfl
  | cons c m ih =>
    have hc := h c (List.mem_cons_self ..)
    simp [ih fun e he => h e (List.mem_cons_of_mem _ he), parTerm, hc]

/-- The parity bits that a write of words computes are those of the words written. -/
theorem mget_parOf (part : Nat) (hsz : 0 < sz) (m : Mem) (a n i : Nat) :
    mget (parOf sz part m a n) i = if a ≤ i ∧ i < a + n then wordPar sz part i m else 0 := by
  have hfold : ∀ (l p : Mem), mget (l.foldl (fun p c =>
      if bytePar c.2 then mput p (c.1 / sz) [mget p (c.1 / sz) ^^^ BitVec.ofNat 8 (2 ^ (c.1 % sz / part))] else p) p) i =
        mget p i ^^^ wordPar sz part i l := by
    intro l
    induction l with
    | nil => simp
    | cons c l ih =>
      intro p
      rw [List.foldl_cons, ih, wordPar_cons, ← BitVec.xor_assoc]
      congr 1
      by_cases hb : bytePar c.2 = true
      · by_cases hi : c.1 / sz = i
        · simp [hb, hi, mget_mput, parTerm]
        · rw [if_pos hb, mget_mput_of_outside _ (by simp; omega), parTerm, if_neg (by simp [hi]), BitVec.xor_zero]
      · simp [hb, parTerm]
  rw [parOf, hfold, show mget [] i = 0#8 from rfl, BitVec.zero_xor]
  by_cases hin : a ≤ i ∧ i < a + n
  · rw [if_pos hin]
    refine wordPar_filter (fun c hc => ?_) part m
    have hlow : sz * a ≤ c.1 := by rw [Nat.mul_comm, ← Nat.le_div_iff_mul_le hsz]; omega
    have hhigh : c.1 < sz * (a + n) := by rw [Nat.mul_comm, ← Nat.div_lt_iff_lt_mul hsz]; omega
    simpa using ⟨hlow, hhigh⟩
  · rw [if_neg hin]
    refine wordPar_eq_zero (fun c hc => ?_) part
    obtain ⟨hlow, hhigh⟩ : sz * a ≤ c.1 ∧ c.1 < sz * (a + n) := by simpa using (List.mem_filter.1 hc).2
    rw [Nat.mul_comm, ← Nat.le_div_iff_mul_le hsz] at hlow
    rw [Nat.mul_comm, ← Nat.div_lt_iff_lt_mul hsz] at hhigh
    omega

/-- The parity bits of a word depend on its own bytes alone. -/
theorem wordPar_congr {m m' : Mem} (hsz : 0 < sz) (h : Memory.wf m) (h' : Memory.wf m')
    (heq : ∀ j < sz, mget m (sz * i + j) = mget m' (sz * i + j)) (part : Nat) : wordPar sz part i m = wordPar sz part i m' := by
  rw [← wordPar_filter (p := fun c => decide (c.1 / sz = i)) (by simp), ← wordPar_filter (m := m') (p := fun c => decide (c.1 / sz = i)) (by simp)]
  congr 1
  refine mem_ext (wf_filter _ _ h) (wf_filter _ _ h') fun b => ?_
  rw [mget_filter m (fun j => decide (j / sz = i)), mget_filter m' (fun j => decide (j / sz = i))]
  by_cases hb : b / sz = i
  · have hd := Nat.div_add_mod b sz
    rw [hb] at hd
    rw [← hd, heq _ (Nat.mod_lt _ hsz)]
  · simp [hb]

theorem wordPar_mput_one (sz part i : Nat) (m : Mem) (a : Nat) (x : BitVec 8) :
    wordPar sz part i (mput m a [x]) = wordPar sz part i (mput m a [0]) ^^^ parTerm sz part i (a, x) := by
  have hcell : wordPar sz part i (cells a [x]) = parTerm sz part i (a, x) := by
    by_cases hx : x = 0
    · have hz : bytePar 0 = false := by decide
      rw [cells, if_pos hx, hx, parTerm, hz]
      simp [cells]
    · rw [cells, if_neg hx]
      simp [cells]
  have hzero : wordPar sz part i (cells a [0]) = 0#8 := rfl
  simp only [mput, wordPar_append, hcell, hzero, List.length_singleton, BitVec.xor_zero, BitVec.xor_assoc]
  rw [BitVec.xor_comm (parTerm _ _ _ _)]

/-- A turned bit turns the parity of its byte. -/
theorem bytePar_xor_pow : ∀ (x : BitVec 8) (k : Fin 8), bytePar (x ^^^ BitVec.ofNat 8 (2 ^ (k : Nat))) = !bytePar x := by decide

/-- A turned bit of a word turns one of its parity bits. -/
theorem wordPar_turnBit {m : Mem} (h : Memory.wf m) (sz part : Nat) (a : Nat) (k : Nat) (hk : k < 8) :
    wordPar sz part (a / sz) (turnBit m a k) = wordPar sz part (a / sz) m ^^^ BitVec.ofNat 8 (2 ^ (a % sz / part)) := by
  have hself : mput m a [mget m a] = m := mem_ext (wf_mput _ _ _ h) h fun i => by
    rw [mget_mput]
    split
    · rename_i hi
      have : a = i := by simp at hi; omega
      simp [this]
    · rfl
  have hpar := bytePar_xor_pow (mget m a) ⟨k, hk⟩
  rw [turnBit, wordPar_mput_one]
  conv_rhs => rw [← hself, wordPar_mput_one]
  rw [BitVec.xor_assoc]
  congr 1
  cases hb : bytePar (mget m a) <;> simp_all [parTerm]

theorem mget_turnBit_other (m : Mem) {a i : Nat} (k : Nat) (h : i ≠ a) : mget (turnBit m a k) i = mget m i :=
  mget_mput_of_outside m (by simp; omega)

theorem mget_turnBit_same (m : Mem) (a k : Nat) : mget (turnBit m a k) a = mget m a ^^^ BitVec.ofNat 8 (2 ^ k) := by
  simp [turnBit, mget_mput]

/-! ### The two stores -/

theorem goodU_iff (s : State) (i : Nat) : goodU s i = true ↔ wordPar 4 4 i s.ust = mget s.upar i := by
  rw [goodU, parU, mget_parOf _ (by omega), if_pos (by omega), decide_eq_true_eq]

theorem goodN_iff (s : State) (i : Nat) : goodN s i = true ↔ wordPar 16 8 i s.nst = mget s.npar i := by
  rw [goodN, parN, mget_parOf _ (by omega), if_pos (by omega), decide_eq_true_eq]

/-- A write of words stores each word with its own parity bits, and leaves the bits of every other word. -/
theorem wordPar_mcopy {st m : Mem} (part : Nat) (hsz : 0 < sz) (hst : Memory.wf st) (hm : Memory.wf m) (a n i : Nat) :
    wordPar sz part i (mcopy st m (sz * a) (sz * n) (sz * a)) = if a ≤ i ∧ i < a + n then wordPar sz part i m else wordPar sz part i st := by
  have hat : ∀ j < sz, (sz * a ≤ sz * i + j ∧ sz * i + j < sz * a + sz * n) ↔ (a ≤ i ∧ i < a + n) := by
    intro j hj
    have hdiv : (sz * i + j) / sz = i := by rw [Nat.mul_add_div hsz, Nat.div_eq_of_lt hj, Nat.add_zero]
    rw [← Nat.mul_add, Nat.mul_comm sz a, Nat.mul_comm sz (a + n), ← Nat.le_div_iff_mul_le hsz, ← Nat.div_lt_iff_lt_mul hsz, hdiv]
  have hwf := wf_mcopy st m (sz * a) (sz * n) (sz * a) hst
  split
  · rename_i hin
    refine wordPar_congr hsz hwf hm (fun j hj => ?_) part
    rw [mget_mcopy _ hm, if_pos ((hat j hj).2 hin)]
    congr 1
    have := ((hat j hj).2 hin).1
    omega
  · rename_i hout
    refine wordPar_congr hsz hwf hst (fun j hj => ?_) part
    rw [mget_mcopy _ hm, if_neg (mt (hat j hj).1 hout)]

/-- The parity bits that a write of words stores. -/
theorem mget_mcopy_parOf (part : Nat) (hsz : 0 < sz) (par m : Mem) (a n i : Nat) :
    mget (mcopy par (parOf sz part m a n) a n a) i = if a ≤ i ∧ i < a + n then wordPar sz part i m else mget par i := by
  rw [mget_mcopy _ (wf_parOf ..)]
  split
  · rename_i hin
    rw [show a + (i - a) = i by omega, mget_parOf _ hsz, if_pos hin]
  · rfl

theorem goodU_storeU (m : Mem) (a n i : Nat) (hs : Memory.wf s.ust) (hm : Memory.wf m) :
    goodU (storeU s m a n) i = if a ≤ i ∧ i < a + n then true else goodU s i := by
  rw [Bool.eq_iff_iff, goodU_iff, storeU]
  dsimp only
  rw [wordPar_mcopy 4 (by omega) hs hm, parU, mget_mcopy_parOf _ (by omega)]
  split
  · simp
  · rw [goodU_iff]

theorem goodN_storeN (m : Mem) (a n i : Nat) (hs : Memory.wf s.nst) (hm : Memory.wf m) :
    goodN (storeN s m a n) i = if a ≤ i ∧ i < a + n then true else goodN s i := by
  rw [Bool.eq_iff_iff, goodN_iff, storeN]
  dsimp only
  rw [wordPar_mcopy 8 (by omega) hs hm, parN, mget_mcopy_parOf _ (by omega)]
  split
  · simp
  · rw [goodN_iff]

theorem xor_ne_of_ne_zero {x p : BitVec 8} (h : p ≠ 0#8) : x ^^^ p ≠ x := fun he =>
  h (by have := congrArg (x ^^^ ·) he; simpa [← BitVec.xor_assoc] using this)

/-- A power of two below the eighth is no zero byte. -/
theorem pow_ne_zero_byte : ∀ k : Fin 8, BitVec.ofNat 8 (2 ^ (k : Nat)) ≠ 0#8 := by decide

/-- An upset bit of a microword leaves its parity bad. -/
theorem goodU_upset_same {x : Upset} (hs : Memory.wf s.ust) (hu : x.nano = false) (hb : x.bit < 33) (hg : goodU s x.addr = true) :
    goodU (upset s x) x.addr = false := by
  rw [goodU_iff] at hg
  rw [Bool.eq_false_iff, ne_eq, goodU_iff, upset, if_neg (by simp [hu])]
  split
  · have hw : (4 * x.addr + x.bit / 8) / 4 = x.addr := by omega
    have hp := wordPar_turnBit hs 4 4 (4 * x.addr + x.bit / 8) (x.bit % 8) (Nat.mod_lt _ (by omega))
    rw [hw] at hp
    dsimp only
    rw [hp, ← hg]
    exact xor_ne_of_ne_zero (pow_ne_zero_byte ⟨_, by omega⟩)
  · dsimp only
    rw [mget_turnBit_same, hg]
    exact (xor_ne_of_ne_zero (pow_ne_zero_byte ⟨_, by omega⟩)).symm

/-- An upset bit of a nanoword leaves its parity bad. -/
theorem goodN_upset_same {x : Upset} (hs : Memory.wf s.nst) (hn : x.nano = true) (hb : x.bit < 130) (hg : goodN s x.addr = true) :
    goodN (upset s x) x.addr = false := by
  rw [goodN_iff] at hg
  rw [Bool.eq_false_iff, ne_eq, goodN_iff, upset, if_pos hn]
  split
  · have hw : (16 * x.addr + x.bit / 8) / 16 = x.addr := by omega
    have hp := wordPar_turnBit hs 16 8 (16 * x.addr + x.bit / 8) (x.bit % 8) (Nat.mod_lt _ (by omega))
    rw [hw] at hp
    dsimp only
    rw [hp, ← hg]
    exact xor_ne_of_ne_zero (pow_ne_zero_byte ⟨_, by omega⟩)
  · dsimp only
    rw [mget_turnBit_same, hg]
    exact (xor_ne_of_ne_zero (pow_ne_zero_byte ⟨_, by omega⟩)).symm

/-- A turned bit of one word leaves the parity bits of every other word. -/
theorem wordPar_turnBit_other {m : Mem} (h : Memory.wf m) (hsz : 0 < sz) (part : Nat) {a i : Nat} (k : Nat) (hi : a / sz ≠ i) :
    wordPar sz part i (turnBit m a k) = wordPar sz part i m :=
  wordPar_congr hsz (wf_mput _ _ _ h) h (fun j hj => mget_turnBit_other _ _ fun he => hi (by
    rw [← he, Nat.mul_add_div hsz, Nat.div_eq_of_lt hj, Nat.add_zero])) part

theorem goodU_upset_other {x : Upset} (hs : Memory.wf s.ust) (hi : x.nano = false → i ≠ x.addr) : goodU (upset s x) i = goodU s i := by
  rw [Bool.eq_iff_iff, goodU_iff, goodU_iff, upset]
  split
  · split <;> rfl
  · rename_i hu
    have hne := hi (by simpa using hu)
    split
    · dsimp only
      rw [wordPar_turnBit_other hs (by omega) _ _ (by omega)]
    · dsimp only
      rw [mget_turnBit_other _ _ hne]

theorem goodN_upset_other {x : Upset} (hs : Memory.wf s.nst) (hi : x.nano = true → i ≠ x.addr) : goodN (upset s x) i = goodN s i := by
  rw [Bool.eq_iff_iff, goodN_iff, goodN_iff, upset]
  split
  · rename_i hn
    have hne := hi hn
    split
    · dsimp only
      rw [wordPar_turnBit_other hs (by omega) _ _ (by omega)]
    · dsimp only
      rw [mget_turnBit_other _ _ hne]
  · split <;> rfl

/-- Settles O60: parity bits are those of a word's own bytes, and one turned bit turns exactly one of them. -/
theorem parityFindsOneUpsetBit : Obligations.ParityFindsOneUpsetBit :=
  ⟨fun _ m a n i hs hm => goodU_storeU m a n i hs hm, fun _ m a n i hs hm => goodN_storeN m a n i hs hm,
    fun _ _ hs hu hb hg => goodU_upset_same hs hu hb hg, fun _ _ hs hn hb hg => goodN_upset_same hs hn hb hg,
    fun _ _ _ hs hi => goodU_upset_other hs hi, fun _ _ _ hs hi => goodN_upset_other hs hi⟩

end Sys2Proof.Machine
end

section
/-! SUPPORT. The step of a run: the front command, or the first line held back; and what holds at reset. -/

namespace Sys2Proof.Machine

/-- Settles O30: a step on a queue is exec of its front by definition. -/
theorem stepTakesTheFrontCommand : Obligations.StepTakesTheFrontCommand := by
  unfold Obligations.StepTakesTheFrontCommand
  intro s c r h
  simp only [step, h]

/-- Settles O31: on an empty queue the first held line decides. -/
theorem stepOnAnEmptyQueue : Obligations.StepOnAnEmptyQueue :=
  ⟨fun s h hn => by simp only [step, h, hn], fun s t c h hn => by simp only [step, h, hn]⟩

/-- Settles O36: every memory of the reset state is the empty list, and every table holds its default. -/
theorem resetHoldsTheInvariants : Obligations.ResetHoldsTheInvariants :=
  ⟨⟨wf_nil, wf_nil, wf_nil, wf_nil, wf_nil, wf_nil, wf_nil, wf_nil, wf_nil, wf_nil⟩, rfl, rfl, rfl, rfl, fun _ => rfl, fun _ => rfl⟩

end Sys2Proof.Machine
end

section
/-! SUPPORT. Counters of a deckle, and banks that are zeroed. -/

namespace Sys2Proof.Machine

theorem tget_cntAdd_same (k : Deckle) (i n : Nat) :
    tget (cntAdd k i n).cnt i 0 = min (tget k.cnt i 0 + n) (2 ^ ((cntWidth[i]?).getD 64) - 1) := tget_tset_same _ _ _ _

theorem tget_cntAdd_other (k : Deckle) {i m : Nat} (n : Nat) (h : m ≠ i) : tget (cntAdd k i n).cnt m 0 = tget k.cnt m 0 :=
  tget_tset_other _ _ _ _ _ h

/-- Settles O48: the counter is the least of the sum and its greatest value. -/
theorem countersRiseAndStopAtTheirLargestValue : Obligations.CountersRiseAndStopAtTheirLargestValue := by
  rintro k i n m _ rfl _
  refine ⟨?_, tget_cntAdd_other k n, rfl⟩
  rw [tget_cntAdd_same]
  split <;> omega

@[simp] theorem unload_vat (s : State) (b : Nat) : (unload s b).vat = s.vat := by unfold unload; split <;> simp
@[simp] theorem unload_bk (s : State) (b : Nat) : (unload s b).bk = s.bk := by unfold unload; split <;> simp

theorem zeroBank_vat (s : State) (b : Nat) : (zeroBank s b).vat = mzero s.vat (bankBase b) (2 ^ 20) := by simp [zeroBank]

theorem getBk_zeroBank_same (s : State) (b : Nat) :
    getBk (zeroBank s b) b = { getBk s b with pow := .on, tsm := 1, tm := 0, dbe := [] } := by
  rw [zeroBank, getBk_modBk_same]
  simp [getBk]

theorem getBk_zeroBank_other (s : State) {b c : Nat} (h : c ≠ b) : getBk (zeroBank s b) c = getBk s c := by
  rw [zeroBank, getBk_modBk_other _ _ _ _ h]
  simp [getBk]

/-- Settles O57: the window of a bank is the range that its zeroing clears. -/
theorem aZeroedBankReadsZeroAndNoOtherChanges : Obligations.AZeroedBankReadsZeroAndNoOtherChanges := by
  intro s b
  refine ⟨fun a => ?_, ?_, ?_, ?_, ?_, fun c h => getBk_zeroBank_other s h⟩
  · rw [zeroBank_vat, mget_mzero, bankBase, Nat.succ_mul]
  all_goals rw [getBk_zeroBank_same]

end Sys2Proof.Machine
end

section
/-! SUPPORT. The connectors (chapter 2). -/

namespace Sys2Proof.Machine

theorem isUp_iff (s : State) : isUp s = true ↔ s.md.st = .warming ∨ s.md.st = .ready := by simp [isUp]

theorem driven_of_power (h : s.md.power = true) (b : Bool) : driven s b = if b then .high else .low := by simp [driven, h]

theorem driven_of_no_power (h : s.md.power = false) (b : Bool) : driven s b = .hiz := by simp [driven, h]

theorem driven_high_iff (h : s.md.power = true) (b : Bool) : driven s b = .high ↔ b = true := by
  rw [driven_of_power h]; cases b <;> simp

theorem driven_low_iff (h : s.md.power = true) (b : Bool) : driven s b = .low ↔ ¬ b = true := by
  rw [driven_of_power h]; cases b <;> simp

/-- Settles O59: each output is driven by its own condition. -/
theorem connectorsShowTheState : Obligations.ConnectorsShowTheState := by
  refine ⟨fun s h => ⟨?_, ?_⟩, fun s h => ⟨driven_of_no_power h _, by simp [refOutRuns, h], driven_of_no_power h _⟩, fun s => ?_,
    fun s t hp hk ht hm => ⟨?_, ?_⟩, fun s hp hk ht => ?_, fun s t h => by simp [keeperRises, keeperFalls, h]⟩
  · rw [readyOut, driven_high_iff h, isUp_iff]
  · rw [readyOut, driven_low_iff h, isUp_iff, not_or]
  · simp [refOutRuns, isUp, and_assoc]
  · simp [keeperRises, hp, hk, ht, hm]
  · have hlater : s.md.keeperT ≤ t + 625 := by omega
    have hhalf : (t + 625) % 1250 = 625 := by omega
    simp [keeperFalls, hp, hk, hlater, hhalf]
  · rw [keeperOut, driven_high_iff hp]
    simp [hk, ht]

end Sys2Proof.Machine
end

section
/-! SUPPORT. How a microword steps, and the ends of the micro-stack (chapter 9). -/

namespace Sys2Proof.Machine

/-- A thread in customer code that may step fetches its word. -/
theorem microStep_customer {d : Fin 8} (hrun : threadOk (advance s dt) (getDk s d) = true) (hcust : (getDk s d).thr.cust = true) (mode : Nat) :
    microStep dt (some d) none mode s = .next (fetchWord (advance s dt) d mode) := by
  simp [microStep, hrun, hcust]

/-- A good word of the mode asked for is stepped. -/
theorem fetchWord_good {d : Nat} (hgood : fetchBad s (getDk s d).thr.upc = (false, false)) (hmode : (readU s (getDk s d).thr.upc).mode = mode) :
    fetchWord s d mode = stepWord s d (readU s (getDk s d).thr.upc) := by
  simp [fetchWord, hgood, hmode]

/-- The checks of a word come before its stack. -/
theorem stepWord_stackFails {d : Nat}
    (hinside : (if vendorWord (getDk s d).thr.upc then none
      else fence (runCtx (getDk s d) d (x.targets (getDk s d).thr.upc)) x (readN s x.nano)) = none)
    (hstack : stackFails (getDk s d).thr x = true) :
    stepWord s d x = if vendorWord (getDk s d).thr.upc then vendorCause s d "MSTACK" 0x200
      else customerCheck s d "MSTACK" (getDk s d).thr.upc x.nano := by
  simp [stepWord, hinside, hstack]

/-- A word that passes every check and waits for nothing runs. -/
theorem stepWord_runs {d : Nat}
    (hinside : (if vendorWord (getDk s d).thr.upc then none
      else fence (runCtx (getDk s d) d (x.targets (getDk s d).thr.upc)) x (readN s x.nano)) = none)
    (hstack : stackFails (getDk s d).thr x = false) (hready : stepWait s (getDk s d) x (readN s x.nano) = none) :
    stepWord s d x = runStep s d x (readN s x.nano) := by
  simp [stepWord, hinside, hstack, hready]

theorem stackFails_call (t : Thread) {x : UWord} (hm : x.mode = 2) (hfull : 8 ≤ t.ms.length) : stackFails t x = true := by
  simp [stackFails, hm, hfull]

theorem stackFails_ret (t : Thread) {x : UWord} (hm : x.mode = 3) (hempty : t.ms = []) : stackFails t x = true := by
  simp [stackFails, hm, hempty]

theorem stackFails_eq_false (t : Thread) {x : UWord} (hcall : x.mode = 2 → t.ms.length < 8) (hret : x.mode = 3 → t.ms.isEmpty = false) :
    stackFails t x = false := by
  simp only [stackFails, Bool.or_eq_false_iff, Bool.and_eq_false_imp, decide_eq_true_eq, decide_eq_false_iff_not, not_le]
  exact ⟨hcall, hret⟩

/-- The step of a customer microword of a thread that stands at it. -/
theorem microStep_atWord (h : AtWord dt d s x n) (hm : x.mode = mode) :
    microStep dt (some d) none mode s = .next (runStep (advance s dt) d x n) := by
  obtain ⟨hrun, hcust, hparity, hword, hnano, hinside, hcall, hret, hready⟩ := h
  rw [microStep_customer hrun hcust, fetchWord_good (by exact hparity) (by rw [getDk_advance, hword, hm]), getDk_advance, hword,
    stepWord_runs (s := advance s dt) (by rw [hnano]; exact hinside) (stackFails_eq_false _ hcall hret) (by rw [hnano]; exact hready), hnano]

/-- Settles O20: each sequencing mode is a step of its own number. -/
theorem microwordsExecute : Obligations.MicrowordsExecute :=
  ⟨fun _ _ _ _ _ h hm => microStep_atWord h hm, fun _ _ _ _ _ h hm => microStep_atWord h hm,
    fun _ _ _ _ _ h hm => microStep_atWord h hm, fun _ _ _ _ _ h hm => microStep_atWord h hm,
    fun _ _ _ _ _ h hm => microStep_atWord h hm, fun _ _ _ _ _ h hm => microStep_atWord h hm,
    fun _ _ _ _ _ h hm => microStep_atWord h hm, fun _ _ _ _ _ h hm => microStep_atWord h hm⟩

section
variable {d : Fin 8} (hrun : threadOk (advance s dt) (getDk s d) = true) (hcust : (getDk s d).thr.cust = true)
  (hgood : fetchBad (advance s dt) (getDk s d).thr.upc = (false, false))
include hrun hcust hgood

/-- A word of the slice at an end of the micro-stack. -/
theorem microStep_slice_stackFails (hslice : vendorWord (getDk s d).thr.upc = false)
    (hx : readU (advance s dt) (getDk s d).thr.upc = x)
    (hinside : fence (runCtx (getDk s d) d (x.targets (getDk s d).thr.upc)) x (readN (advance s dt) x.nano) = none)
    (hm : x.mode = mode) (hstack : stackFails (getDk s d).thr x = true) :
    microStep dt (some d) none mode s = .next (customerCheck (advance s dt) d "MSTACK" (getDk s d).thr.upc x.nano) := by
  rw [microStep_customer hrun hcust, fetchWord_good (by exact hgood) (by rw [getDk_advance, hx, hm]), getDk_advance, hx,
    stepWord_stackFails (s := advance s dt) (by rw [getDk_advance, hslice]; exact hinside) hstack, getDk_advance, hslice]
  rfl

/-- A word of the vendor region at an end of the micro-stack. -/
theorem microStep_vendor_stackFails (hvendor : vendorWord (getDk s d).thr.upc = true)
    (hx : readU (advance s dt) (getDk s d).thr.upc = x) (hm : x.mode = mode) (hstack : stackFails (getDk s d).thr x = true) :
    microStep dt (some d) none mode s = .next (vendorCause (advance s dt) d "MSTACK" 0x200) := by
  rw [microStep_customer hrun hcust, fetchWord_good (by exact hgood) (by rw [getDk_advance, hx, hm]), getDk_advance, hx,
    stepWord_stackFails (s := advance s dt) (by rw [getDk_advance, hvendor]; rfl) hstack, getDk_advance, hvendor]
  rfl

end

/-- The service thread at an end of the micro-stack. -/
theorem microStep_service_stackFails (hruns : svcRuns (advance s dt) = true) (hgood : (fetchBad (advance s dt) s.md.svc.upc).1 = false)
    (hx : readU (advance s dt) s.md.svc.upc = x) (hm : x.mode = mode) (hstack : stackFails s.md.svc x = true) :
    microStep dt none none mode s = .next (moduleFault (advance s dt) "F-MCHK" false) := by
  simp [microStep, hruns, svcStep, hgood, hx, hm, hstack]

/-- Settles O55: a full stack at CALL and an empty one at RET fail the same check, which each kind of word answers in its own way. -/
theorem microStackIsNeverPassed : Obligations.MicroStackIsNeverPassed := by
  refine ⟨?slice, ?vendor, ?service⟩
  case slice =>
    rintro dt d s _ _ x n rfl hrun hcust rfl hgood hx rfl hslice hinside
    exact ⟨fun hm hfull => microStep_slice_stackFails hrun hcust hgood hslice hx hinside hm (stackFails_call _ hm hfull),
      fun hm hempty => microStep_slice_stackFails hrun hcust hgood hslice hx hinside hm (stackFails_ret _ hm hempty)⟩
  case vendor =>
    rintro dt d s _ _ x rfl hrun hcust rfl hgood hx hvendor
    exact ⟨fun hm hfull => microStep_vendor_stackFails hrun hcust hgood hvendor hx hm (stackFails_call _ hm hfull),
      fun hm hempty => microStep_vendor_stackFails hrun hcust hgood hvendor hx hm (stackFails_ret _ hm hempty)⟩
  case service =>
    rintro dt s _ x rfl hruns hgood hx
    exact ⟨fun hm hfull => microStep_service_stackFails hruns hgood hx hm (stackFails_call _ hm hfull),
      fun hm hempty => microStep_service_stackFails hruns hgood hx hm (stackFails_ret _ hm hempty)⟩

end Sys2Proof.Machine
end

section
/-! SUPPORT. From what a command's body answers to what its line does: a reply, a start, a refusal. -/

namespace Sys2Proof

open Machine

section
variable {body : Body}

theorem replies_of_noram (he : exec c s = noram s c f h body) (hb : body (begun h s) = .ok (r, .now b fin)) : Replies c f h s r b fin :=
  fun hA => he.trans (noram_now hA hb)

theorem awaits_of_noram (he : exec c s = noram s c f h body) (hb : body (begun h s) = .ok (r, .later k none)) : Awaits c f h s r k :=
  fun hA => he.trans (noram_later hA hb)

theorem refuses_of_noram (he : exec c s = noram s c f h body) (hb : body (begun h s) = .error e)
    (h37 : e.head? ≠ some (w "E437") := by decide) : Refuses c f h s e :=
  fun hA => he.trans (noram_refused hA hb h37)

theorem replies_of_noramFirst (he : exec c s = noramFirst s c f h body) (hb : body (begun h s) = .ok (r, .now b fin)) :
    Replies c f h s r b fin :=
  fun hA => he.trans (noramFirst_now hA hb)

theorem awaits_of_noramFirst (he : exec c s = noramFirst s c f h body) (hb : body (begun h s) = .ok (r, .later k none)) :
    Awaits c f h s r k :=
  fun hA => he.trans (noramFirst_later hA hb)

end

theorem repliesBlk_of_noramBlk {body : List Nat → Body} (he : exec c s = noramBlk s c f h b pre body) (hB : BlkIs h b s p)
    (hpre : pre (begunBlk h b s) = .ok ⟨⟩) (hb : body p (begunBlk h b s) = .ok (r, .now l fin)) : RepliesBlk c f h b s r l fin :=
  fun hA => he.trans (noramBlk_now hA hB hpre hb)

/-- A deckle in no state that a command allows fails its check. -/
theorem inSt_error {k : Deckle} {l : List DkState} (hst : k.st ∉ l) : inSt k l = .error (e420 k) :=
  need_error _ _ (by simpa using hst)

theorem e420_head? (k : Deckle) : (e420 k).head? ≠ some (w "E437") := by
  change some (w "E420") ≠ some (w "E437")
  decide

/-- A command that checks the state of its deckle first is refused in every state that it does not allow. -/
theorem refuses_of_inSt {rest : State → Res (State × Ans)} (he : exec c s = noram s c f h (fun s => inSt (getDk s (myDk s h)) l >>= fun _ => rest s))
    (hst : (getDk (begun h s) (myDk (begun h s) h)).st ∉ l) : Refuses c f h s (e420 (getDk (begun h s) (myDk (begun h s) h))) :=
  refuses_of_noram he (by rw [inSt_error hst, res_bind_error]) (e420_head? _)

/-- Settles O58: the state of the deckle is the first check of all four. -/
theorem runningCommandsAreRefusedInTheWrongState : Obligations.RunningCommandsAreRefusedInTheWrongState := by
  refine ⟨?armed, ?rest, ?plain, ?held⟩
  case armed =>
    rintro h s _ rfl hst
    exact ⟨refuses_of_inSt (l := [.armed]) rfl (by simpa using hst), refuses_of_inSt (l := [.armed]) rfl (by simpa using hst)⟩
  case rest =>
    rintro h s _ rfl hstopped hopen hheld
    have hst : (getDk (begun h s) (myDk (begun h s) h)).st ∉ clearStates := by simp [clearStates, hstopped, hopen, hheld]
    exact ⟨refuses_of_inSt rfl hst, refuses_of_inSt rfl hst⟩
  case plain =>
    intro k hst
    simp [e420, hst]
  case held =>
    intro k y hst hwhy
    simp [e420, hst, hwhy]
    rfl

end Sys2Proof
end

section
/-! The events of a start (chapter 3). -/

namespace Sys2Proof.Machine

@[simp] theorem restart_resetLow (s : State) : (restart s).md.resetLow = s.md.resetLow := rfl

@[simp] theorem startRef_md (s : State) : (startRef s).md = s.md := rfl

@[simp] theorem endRef_md (s : State) : (endRef s).md = s.md := by unfold endRef; split <;> rfl

@[simp] theorem banksUp_md (s : State) : (banksUp s).md = s.md := forEach_md (by simp) _ _

@[simp] theorem openLines_latch (s : State) : (openLines s).md.latch = s.md.latch := by simp [openLines]

@[simp] theorem openLines_report (s : State) : (openLines s).md.report = s.md.report := by simp [openLines]

/-- A report without a failure latches nothing. -/
theorem takeReport_latch_of_pass {rep : List StItem} (hpass : rep.all (fun r => r.v = .pass) = true) (s : State) :
    (takeReport s rep).md.latch = s.md.latch := by
  have hbad : rep.filter (fun r => r.v = .fail) = [] := by
    refine List.filter_eq_nil_iff.2 fun r hr => ?_
    have hv : r.v = .pass := by simpa using List.all_eq_true.1 hpass r hr
    simp [hv]
  simp [takeReport, hbad]

theorem takeReport_report (s : State) (rep : List StItem) : (takeReport s rep).md.report = rep := rfl

/-- Settles O1: each event acts under the conditions that its clause names. -/
theorem startCompletes : Obligations.StartCompletes := by
  refine ⟨?powerInputRise, ?railsInTolerance, ?slotAccepted, ?noSlot, ?repeated, ?verified, ?loaded, ?tested, ?restored, ?windowEnd⟩
  case powerInputRise =>
    intro dt s hoff
    change execPowerInputRise dt s = _
    simp [execPowerInputRise, hoff]
  case railsInTolerance =>
    intro dt s hst
    change execRailsInTolerance dt s = _
    simp [execRailsInTolerance, hst]
  case slotAccepted =>
    intro dt s b fw hst hboot hslot hearly
    change execFirmwareSlotVerify dt s = _
    have hslot' : bootSlot (advance s dt) = some (b, fw) := hslot
    simp [execFirmwareSlotVerify, hst, hboot, hslot', hearly]
  case noSlot =>
    intro dt s hst hboot hslot
    change execFirmwareSlotVerify dt s = _
    have hslot' : bootSlot (advance s dt) = none := hslot
    simp [execFirmwareSlotVerify, hst, hboot, hslot']
  case repeated =>
    intro dt s hst hboot
    change execFBootRepeat dt s = _
    simp [execFBootRepeat, hst, hboot]
  case verified =>
    intro dt s hst himages
    change execVerifyComplete dt s = _
    have himages' : imagesOk (advance s dt) = true := himages
    simp [execVerifyComplete, hst, himages']
  case loaded =>
    intro dt s hst
    change execLoadComplete dt true s = _
    simp [execLoadComplete, hst]
    rfl
  case tested =>
    intro dt obs s hst hlatch hpass
    change execSelfTestComplete dt obs s = _
    simp only [execSelfTestComplete, advance_md, hst, if_true, openLines_latch, endRef_md, takeReport_latch_of_pass hpass, hlatch,
      openLines_report, takeReport_report, hpass, Bool.false_eq_true, if_false]
  case restored =>
    intro dt d s hup
    change execSlotRestoreComplete dt d s = _
    rcases hup with hst | hst <;> simp [execSlotRestoreComplete, hst]
  case windowEnd =>
    intro dt s t hend hlate
    change execOwnerClearWindowEnd dt s = _
    simp [execOwnerClearWindowEnd, hend, hlate]

end Sys2Proof.Machine
end

section
/-! The events of the module (chapters 2, 3, 7 and 19). -/

namespace Sys2Proof.Machine

theorem ownerNote_of_open (h : linesOpen s = true) (t : Line) : ownerNote s t = ownerEvent s .note t := by simp [ownerNote, h]

@[simp] theorem linesOpen_advance (s : State) (dt : Nat) : linesOpen (advance s dt) = linesOpen s := rfl

/-- Whether the loop is locked, and to what, does not change with time. -/
@[simp] theorem advance_lock (s : State) (dt : Nat) : (advance s dt).rf.lock = s.rf.lock := by simp only [advance]; split <;> rfl
@[simp] theorem advance_active (s : State) (dt : Nat) : (advance s dt).rf.active = s.rf.active := by simp only [advance]; split <;> rfl

/-- The line of ACCEPT DEGRADED that names exactly the failed units withdraws them. -/
theorem acceptDegraded_line {units : List String} (hA : Accepts { word := "ACCEPT", roles := [.o] } h s) (hst : (begun h s).md.st = .degraded)
    (hnames : namesExactly units (failedUnits (begun h s)) = true) :
    noram s (.acceptDegraded h units) { word := "ACCEPT", roles := [.o] } h (fun s => do
      need (s.md.st = .degraded) e421
      need (namesExactly units (failedUnits s)) (e422 (nameList (failedUnits s)))
      let s := units.foldl withdraw s
      ok { s with md := { s.md with withdrawn := units } } ([w "OK", w "ACCEPT", w "DEGRADED"] ++ units.map w)) =
    .next (replied h [] (begun h s) (let u := units.foldl withdraw (begun h s); { u with md := { u.md with withdrawn := units } })
      [] ([w "OK", w "ACCEPT", w "DEGRADED"] ++ units.map w)) :=
  noram_now hA (by rw [need_ok _ _ (by simp [hst]), res_bind_ok, need_ok _ _ hnames]; rfl)

/-- Settles O2: each event acts under the conditions that its clause names. -/
theorem moduleEventsComplete : Obligations.ModuleEventsComplete := by
  refine ⟨?powerLoss, ?holdUpEnd, ?resetLow, ?resetHigh, ?faults, ?notes, ?railInput, ?warmSet, ?warmLost, ?keeperLoad, ?accept⟩
  case powerLoss =>
    intro dt s hon
    change execPowerLoss dt s = _
    simp only [execPowerLoss, advance_md, hon, if_true]
  case holdUpEnd =>
    intro dt s t hhold hoff hlate
    change execHoldUpEnd dt s = _
    simp [execHoldUpEnd, hhold, hoff, hlate]
  case resetLow =>
    intro dt s hon hst
    change execResetNLow dt s = _
    simp only [execResetNLow, advance_md, hon, hst, ne_eq, not_false_eq_true, and_self, if_true]
  case resetHigh =>
    intro dt s hst
    change execResetNHigh dt s = _
    simp only [execResetNHigh, advance_md, hst, if_true]
  case faults =>
    intro dt s hst
    have hfault : ∀ c l, moduleFault (advance s dt) c l = enterSafe (advance s dt) c l [] := fun c l =>
      moduleFault_in_operation c l (by simpa using hst)
    refine ⟨?_, ?_, ?_, ?_⟩
    · change execFPwr dt s = _
      rw [execFPwr, hfault]
    · change execFHot dt s = _
      rw [execFHot, hfault]
    · change execFSupply dt s = _
      rw [execFSupply, hfault]
    · change execInputCurrentLimit dt s = _
      rw [execInputCurrentLimit, hfault]
  case notes =>
    intro dt s hopen
    have hnote := ownerNote_of_open (s := advance s dt) (by simpa using hopen)
    constructor
    · change execCoreWarm dt s = _
      simp only [execCoreWarm, hnote]
    · change execSupplyRailCore dt s = _
      simp only [execSupplyRailCore, hnote]
  case railInput =>
    intro dt mv s hopen hout
    change execSupplyRailInput dt mv s = _
    have hnot : ¬ (19800 ≤ mv ∧ mv ≤ 28200) := by omega
    simp only [execSupplyRailInput, hnot, if_false, ownerNote_of_open (s := advance s dt) (by simpa using hopen)]
  case warmSet =>
    intro dt s hvar hon hlock hact
    change execWarmSet dt s = _
    simp [execWarmSet, hvar, hon, hlock, hact]
  case warmLost =>
    intro dt s hvar hlock hact
    change execWarmLost dt s = _
    simp [execWarmLost, hvar, hlock, hact]
  case keeperLoad =>
    intro dt s hkeeper
    change execKeeperLoad dt s = _
    simp only [execKeeperLoad, advance_md, hkeeper, if_true]
  case accept =>
    intro h units s r hA hst hne hnames hr hrst hrw
    have hline := acceptDegraded_line hA hst hnames
    change execAcceptDegraded h units s = _
    rw [execAcceptDegraded, hline, ← hr]
    simp [hrst, hrw, hne]

end Sys2Proof.Machine
end

section
/-! The events of the lines (chapters 1 and 4). -/

namespace Sys2Proof.Machine

/-- A lockout whose end has come has no time left. -/
theorem lockLeft_of_past (hlock : tget? s.nv.lock b = some (n, t)) (hpast : t ≤ s.wall) : lockLeft s b = 0 := by
  simp [lockLeft, tget, hlock, hpast, show 0 < Config.sec by decide]

/-- Settles O3: each event acts under the conditions that its clause names. -/
theorem lineEventsComplete : Obligations.LineEventsComplete := by
  refine ⟨?dtrSet, fun _ _ _ => rfl, fun _ _ => rfl, fun _ _ => rfl, ?idle, fun _ _ _ => rfl, ?xoff, ?xon, ?overrun, ?typed, ?baud, ?nonce,
    ?lockout, ?tags⟩
  case dtrSet =>
    rintro dt n s _ rfl hopen husb hdown
    change execUsbDtrSet dt n s = _
    simp only [execUsbDtrSet, linesOpen_advance, hopen, advance_md, husb, getLn_advance, hdown, Bool.not_false, Bool.and_self, if_true,
      advance_wall]
  case idle =>
    intro dt l s hup hlate
    change execIdleTimeout dt l s = _
    simp only [execIdleTimeout, getLn_advance, advance_wall, hup, hlate, and_self, if_true]
  case xoff =>
    intro dt l s hup hxon htyped
    change execXoffReceived dt l s = _
    simp [execXoffReceived, modLn, hup, hxon, htyped]
  case xon =>
    intro dt l s hpaused
    change execXonReceived dt l s = _
    simp only [execXonReceived, getLn_advance, hpaused, if_true, advance_wall]
  case overrun =>
    intro dt s hup hfull
    change execConOverrun dt s = _
    simp only [execConOverrun, getLn_advance, hup, hfull, and_self, if_true, modLn, advance_wall]
  case typed =>
    intro dt l b s hup htyped hecho hxon h3 h8 h10 h13 h18 h21 h127
    change execLineEditing dt l b s = _
    simp [execLineEditing, modLn, hup, htyped, hecho, hxon, h3, h8, h10, h13, h18, h21, h127]
  case baud =>
    intro dt s b t hnext hgoing hlate
    change execBaudChangeApply dt s = _
    simp [execBaudChangeApply, modLn, hnext, hgoing, hlate]
  case nonce =>
    intro dt l s n b t hchal hlate
    change execNonceExpiry dt l s = _
    simp [execNonceExpiry, modLn, hchal, hlate]
  case lockout =>
    intro dt g s n t hlock hpast
    change execLockoutExpiry dt g s = _
    have hleft : lockLeft (advance s dt) g.byte = 0 := lockLeft_of_past (s := advance s dt) hlock hpast
    simp only [execLockoutExpiry, hleft, Nat.lt_irrefl, if_false, advance_nv, hlock]
  case tags =>
    intro dt m s
    change execTagEntryExpiry dt m s = _
    cases m <;> rfl

end Sys2Proof.Machine
end

section
/-! HELLO to TIME, and lines that are no command (chapters 1, 3, 4, 7 and 22). -/

namespace Sys2Proof

open Machine

/-- A block that did not end is at fault with another code than E437. -/
theorem blkFault_head? (lost : Bool) (hd : BlkHdr) (rows : List BlkRow) {e : Line} (he : e.head? ≠ some (w "E437")) :
    (blkFault lost hd rows e).head? ≠ some (w "E437") := by
  rcases blkFault_cases lost hd rows e with h | h <;> rw [h]
  · decide
  · exact he

/-- The start of a line whose block has come as far as it will, and that is refused. -/
theorem start_refused_after {rows : List BlkRow} (hm : blkMacs (begun h s) h.line rows = (s0, false)) (hf : Fresh h s0)
    (pre : State → Res Unit) (body : Body) (x : List Nat) {e : Line} (he : (do pre s0; body s0) = .error e) (h37 : e.head? ≠ some (w "E437")) :
    start s0 pre (seen h s) x ((getLn (begun h s) h.line).nslot - 1) body = replied h x s0 s0 [] e := by
  obtain ⟨_, hn, hseal⟩ := blkMacs_good (begun h s) h.line rows (by rw [hm])
  rw [hm] at hn hseal
  have hseen : seen h s0 = seen h s := by rw [seen, seen, hseal, begun_seal]
  rw [← hn, ← hseen, start_refused pre h x _ body s0 e hf rfl he, errNote_other _ e h37]

/-- The place of a line in its order after the lines of its block. -/
theorem placeAt_after {rows : List BlkRow} (hA : Arrives h s) (hm : blkMacs (begun h s) h.line rows = (s0, false)) :
    placeAt s0 h.line ((getLn (begun h s) h.line).nslot - 1) =
      { id := (getLn s h.line).nslot, tb := now (begun h s), rx := (begun h s).wall, seq := s.arrN, bytes := h.text.length + 1,
        sealed := (getLn s h.line).sm.isSome } := by
  have := placeAt_begun h s rows hA.idle (by rw [hm])
  rwa [hm] at this

/-- Settles O4: a line that asks answers from the state, and a line that is no command answers its error. -/
theorem identityLinesReply : Obligations.IdentityLinesReply := by
  refine ⟨?hello, ?echo, ?help, ?helpWord, fun _ _ => replies_of_noram rfl rfl, fun _ _ => replies_of_noram rfl rfl, ?attest,
    fun _ _ => replies_of_noram rfl rfl, fun _ _ => replies_of_noram rfl rfl, fun _ _ => replies_of_noram rfl rfl,
    fun _ _ => replies_of_noram rfl rfl, ?unknown, ?timeout, ?abort⟩
  case hello =>
    rintro h s _ rfl
    exact replies_of_noram rfl rfl
  case echo =>
    intro h b s p hB
    exact repliesBlk_of_noramBlk rfl hB rfl rfl
  case help =>
    rintro h s _ rfl
    exact replies_of_noram rfl (by simp [okBody])
  case helpWord =>
    rintro h c s _ _ rfl hc rfl
    exact replies_of_noram rfl (by simp [okBody, hc])
  case attest =>
    intro h n s h4 hlow hhigh hval
    exact replies_of_noram rfl (by rw [need_ok _ _ (by simp [h4, hlow, hhigh, hval])]; rfl)
  case unknown =>
    intro h s hA hf
    change execUnknownCommand h s = _
    rw [execUnknownCommand, arrive_begun hA _ [] _ _ rfl]
    dsimp only [blkMacs]
    rw [start_refused_after (rows := []) rfl hf _ _ _ (e := e404) rfl (by decide)]
  case timeout =>
    intro h hd rows s s0 hA hm hf hlate
    change execDataBlockTimeout h hd rows s = _
    have hnot : ¬ (h.dt ≤ 10 * Config.sec ∧ s.wall + h.dt ≤ (getLn s h.line).rxT + 10 * Config.sec ∧ s.resume.isNone) := by omega
    rw [execDataBlockTimeout, if_neg hnot, arrive_begun hA _ _ _ _ (by rw [hm]), hm]
    dsimp only
    rw [placeAt_after hA hm, start_refused_after hm hf _ _ _ rfl (blkFault_head? _ _ _ (by decide))]
  case abort =>
    intro h hd rows stop s s0 hA hm hf
    change execDataBlockAbort h hd (rows ++ [stop]) s = _
    rw [execDataBlockAbort, arrive_begun hA _ _ _ _ (by rw [hm]), hm]
    dsimp only
    rw [placeAt_after hA hm, List.dropLast_concat, start_refused_after hm hf _ _ _ rfl (blkFault_head? _ _ _ (by decide))]

end Sys2Proof
end

section
/-! MODE: the settings of a session (chapter 4). -/

namespace Sys2Proof

open Machine

/-- Settles O5: a form that names a setting changes it in the session of its own line. -/
theorem modeReplies : Obligations.ModeReplies := by
  refine ⟨?shown, fun _ _ => replies_of_noram rfl rfl, ?typed, ?sealed, fun _ _ _ => replies_of_noram rfl rfl,
    fun _ _ _ => replies_of_noram rfl rfl, ?idle, ?baud⟩
  case shown =>
    rintro h s _ _ rfl rfl
    exact replies_of_noram rfl rfl
  case typed =>
    intro h s hplain
    exact replies_of_noram rfl (by rw [need_ok _ _ (by simp [hplain])]; rfl)
  case sealed =>
    rintro h s _ n k rfl hmachine hplain hnonce hkey
    exact replies_of_noram rfl (by simp [need, hmachine, hplain, hnonce, hkey, ok, modSession, res_bind_ok])
  case idle =>
    intro h v s n hread
    exact replies_of_noram rfl (by simp [hread, need, res_bind_ok, ok, modSession])
  case baud =>
    intro h v s n hread hrate
    exact replies_of_noram rfl (by
      dsimp only
      rw [hread, res_bind_ok, need_ok _ _ (by simpa using hrate), res_bind_ok, ok]
      split
      · rename_i hcon
        rw [modSession, hcon]
        rfl
      · rfl)

end Sys2Proof
end

section
/-! The keys and the roles (chapter 1). -/

namespace Sys2Proof

open Machine

/-- The reclaim that RELEASE and CLEAR begin. -/
theorem release_eq (s : State) (t : Line) :
    release s t = .ok (if deckles.all (fun d => (getDk s d).st = .closed) then s else deckles.foldl reclaim s, .later (.release t) none) := by
  unfold release; split <;> rfl

@[simp] theorem targetKey_modLn (s : State) (l : Nat) (f : LineSt → LineSt) (g : Target) : targetKey (modLn s l f) g = targetKey s g := by
  cases g <;> rfl

/-- The line that a session runs is the one it took last, where it had none. -/
theorem running_begun (h : Hdr) (s : State) (hidle : (getLn s h.line).slots = []) : (running (begun h s) h.line).rx = s.wall + h.dt := by
  simp [running, begun_slots h s hidle, begun_wall]

section
variable {s : State} {l : Fin 10} (hlate : t + 49 * Config.ms ≤ s.wall + dt)
include hlate

/-- A wrong response is answered E401. -/
theorem loginReply_wrong (hresp : (getLn s l).resp = some (false, b, n, t)) :
    execLoginReply dt l s =
      .next (finishJob (modLn (advance s dt) l (fun x => { x with resp := none })) (fun k => k == .login l) [] e401) := by
  simp [execLoginReply, hresp, hlate]

/-- A right response for an observer takes the role. -/
theorem loginReply_observer (hresp : (getLn s l).resp = some (true, b, n, t)) (htarget : targetOf b = .observer i)
    (hkey : tget? s.nv.obs i = some k) (hanon : (getLn s l).role = .anon) :
    execLoginReply dt l s =
      .next (finishJob (modLn (clearFail (modLn (advance s dt) l (fun x => { x with resp := none })) b) l
        (fun x => { x with role := .observer i, nonce := some n, prov := false })) (fun k => k == .login l) []
          [w "OK", { val := [.s "OB", .d i] }]) := by
  simp [execLoginReply, hresp, hlate, htarget, targetKey, hkey, Target.role, takeOver, hanon, tenantGone, loginReply]

end

/-- Settles O6: the key or the session field that each form names is the one that it sets. -/
theorem rolesAndKeysReply : Obligations.RolesAndKeysReply := by
  refine ⟨?take, ?rekey, ?observerKey, ?release, ?clear, ?deckleKey, ?login, ?response, ?wrong, ?observer, ?loginRekey, fun _ _ => replies_of_noram rfl rfl⟩
  case take =>
    intro h k s hdigits hcon hnone
    have hfree : decide ((h.line : Nat) = 0 ∧ (begun h s).nv.owner.isNone) = true := by simp [hcon, begun_nv, hnone]
    exact replies_of_noram rfl (by rw [need_ok _ _ (by simp [hdigits]), res_bind_ok, need_ok _ _ hfree]; rfl)
  case rekey =>
    intro h wr c s k hkey
    exact replies_of_noram rfl (by dsimp only; rw [hkey]; rfl)
  case observerKey =>
    intro h n wr c s k hn hkey
    exact replies_of_noram rfl (by dsimp only; rw [need_ok _ _ (by simp [hn]), res_bind_ok, hkey]; rfl)
  case release =>
    rintro h s _ hA rfl
    change execOwnerRelease h s = _
    rw [execOwnerRelease, noram_later hA (release_eq _ _), released]
  case clear =>
    rintro h s _ t hA hcon hwin hend htime rfl
    change execOwnerClear h s = _
    refine congrArg released (noram_later hA ?_)
    dsimp only
    rw [begun_md, hend]
    dsimp only
    rw [need_ok _ _ (by simp [hcon, hwin, begun_wall, htime]), res_bind_ok, release_eq]
  case deckleKey =>
    intro h d wr c s k hd hwr hc hst hkey
    exact replies_of_noram rfl (by
      dsimp only
      rw [deckleArg, need_ok _ _ (by simp [hd]), res_bind_ok, need_ok _ _ (by simp [hwr]), res_bind_ok, need_ok _ _ (by simp [hc]), res_bind_ok,
        need_ok _ _ (by simp [begun_getDk, hst]), res_bind_ok, hkey]
      rfl)
  case login =>
    intro h g s hrange hline hleft
    have hcon : (g != .owner || decide ((h.line : Nat) ≤ 1)) = true := by simpa using hline
    exact replies_of_noram rfl (by
      dsimp only
      rw [need_ok _ _ hrange, res_bind_ok, need_ok _ _ hcon, res_bind_ok, need_ok _ _ (by simp [hleft])]
      rfl)
  case response =>
    intro h a s n b t k hdigits hchal hyoung hkey hright hA
    have hrx := running_begun h s hA.idle
    exact awaits_of_noram rfl (by
      dsimp only
      rw [need_ok _ _ (by simp [hdigits]), res_bind_ok, hchal, hrx]
      dsimp only
      rw [if_neg (by rw [Bool.not_eq_true]; exact hyoung)]
      simp [modSession, hkey, hright, begun_nv]) hA
  case wrong =>
    intro dt l s b n t hresp hlate
    exact loginReply_wrong hlate hresp
  case observer =>
    rintro dt l s b n t i _ k hresp hlate htarget hkey hanon rfl
    exact loginReply_observer hlate hresp htarget hkey hanon
  case loginRekey =>
    rintro h wr c s k _ rfl hkey
    exact replies_of_noram rfl (by dsimp only; rw [hkey]; rfl)

end Sys2Proof
end

section
/-! The commands of the owner for deckles, couches and zeroing (chapters 1, 5 and 14). -/

namespace Sys2Proof

open Machine

theorem deckleArg_ok (pos : Nat) (hd : d < 8) : deckleArg pos d = .ok ⟨⟩ := need_ok _ _ (by simp [hd])

/-- A couch of a module in which no command waits. -/
theorem couchComplete_quiet {b : Fin 64} (hjobs : (couchDone (advance s dt) b).jobs = []) :
    execCouchComplete dt b s = .next (couchDone (advance s dt) b) := by
  refine congrArg Host.Outcome.next (List.foldl_fixed' (fun d => ?_) _)
  simp [hjobs]

/-- A zeroing of a module in which no command waits. -/
theorem zeroingComplete_quiet {d : Fin 8} (hst : (getDk s d).st = .zeroing) (hjobs : (zeroDeckle (tellReclaimed (advance s dt) d) d).jobs = []) :
    execZeroingComplete dt d s = .next (finishRelease (zeroDeckle (tellReclaimed (advance s dt) d) d)) := by
  simp [execZeroingComplete, hst, hjobs]

/-- A deckle in OPEN or HELD that does not arm may be closed, or its grant changed. -/
theorem atRest_ok (hst : (getDk s d).st = .opened ∨ (getDk s d).st = .held) (harm : (getDk s d).arming = none) :
    need (((getDk s d).st = .opened ∨ (getDk s d).st = .held) ∧ (getDk s d).arming.isNone) e423 = .ok ⟨⟩ :=
  need_ok _ _ (by simp [hst, harm])

/-- Settles O7: each command passes its checks in turn, and each event finds no command that waits for it. -/
theorem deckleCommandsComplete : Obligations.DeckleCommandsComplete := by
  refine ⟨?opened, ?couch, ?grant, ?close, ?reclaim, ?zeroed, fun _ _ => replies_of_noram rfl rfl, fun _ _ => replies_of_noram rfl rfl, ?list⟩
  case opened =>
    rintro h d g s _ l n rfl hd hread hfields hst hkey hn hchecks r rfl
    subst hn
    exact awaits_of_noram rfl (by
      dsimp only
      rw [deckleArg_ok _ hd, res_bind_ok, hread, res_bind_ok, hfields]
      dsimp only
      rw [need_ok _ _ (by simp [hst]), need_ok _ _ hkey, hchecks]
      rfl)
  case couch =>
    rintro dt b s _ rfl hjobs
    exact couchComplete_quiet hjobs
  case grant =>
    rintro h d g s _ l _ n r rfl hd hread rfl hst harm hn hch hbanks hchecks hslots hr hcouches
    subst hn
    exact replies_of_noram rfl (by
      dsimp only
      rw [deckleArg_ok _ hd, res_bind_ok, hread, res_bind_ok, need_ok _ _ (by rcases hst with h | h <;> simp [h, DkState.isOpen]), res_bind_ok,
        atRest_ok hst harm, res_bind_ok, need_ok _ _ (by simp [hch, hbanks]), res_bind_ok, hchecks, res_bind_ok, need_ok _ _ (by simp [hslots]),
        res_bind_ok, ← hr, if_pos (by simp [hcouches])]
      rfl)
  case close =>
    intro h d s hd hst harm
    exact awaits_of_noram rfl (by
      dsimp only
      rw [deckleArg_ok _ hd, res_bind_ok, atRest_ok hst harm, res_bind_ok])
  case reclaim =>
    intro h d s hd hopen
    exact awaits_of_noram rfl (by
      dsimp only
      rw [deckleArg_ok _ hd, res_bind_ok, need_ok _ _ hopen, res_bind_ok])
  case zeroed =>
    rintro dt d s _ hst rfl hjobs
    exact zeroingComplete_quiet hst hjobs
  case list =>
    intro h d s hd
    exact replies_of_noram rfl (by
      dsimp only
      rw [deckleArg_ok _ hd]
      rfl)

end Sys2Proof
end

section
/-! AT and the reload of the vendor region (chapters 4, 7 and 10). -/

namespace Sys2Proof

open Machine

/-- Settles O8: an action is kept, cancelled, taken when due, or put off while the vendor region is reloaded. -/
theorem atCommandsComplete : Obligations.AtCommandsComplete := by
  refine ⟨?schedule, ?due, ?putOff, ?cancel, ?reloaded⟩
  case schedule =>
    rintro h t late c s _ _ _ n id rfl rfl rfl htick hcheck hroom hahead hid
    subst hid
    exact replies_of_noram rfl (by
      dsimp only
      rw [htick, res_bind_ok, hcheck, res_bind_ok, need_ok _ _ (by simp [hroom]), res_bind_ok, if_pos hahead]
      rfl)
  case due =>
    intro dt d id s a hfind hdue hgood
    change execAtActionDue dt d id s = _
    simp [execAtActionDue, hfind, hdue, hgood]
  case putOff =>
    intro dt d id s a hfind hdue hreload
    change execAtActionDue dt d id s = _
    simp only [execAtActionDue, getDk_advance, hfind, hdue, advance_md, hreload]
    rfl
  case cancel =>
    rintro h n s _ _ _ a rfl rfl rfl hlow hhigh hfind hahead
    exact atCancelTakesUntilTwoMicrosecondsBefore.1 h n a s _ _ rfl rfl hlow hhigh hfind hahead
  case reloaded =>
    rintro dt s _ _ hreload rfl rfl
    change execVendorReloadComplete dt true true s = _
    simp [execVendorReloadComplete, hreload]

end Sys2Proof
end

section
/-! The FURNISH commands (chapters 5 and 22). -/

namespace Sys2Proof

open Machine

/-- A deckle in OPEN or HELD is in a state in which its furnish may be sealed. -/
theorem inSt_working {k : Deckle} (hst : k.st = .opened ∨ k.st = .held) : inSt k [.opened, .held] = .ok ⟨⟩ :=
  inSt_ok (by simpa using hst)

theorem inSt_opened {k : Deckle} (hst : k.st = .opened) : inSt k [.opened] = .ok ⟨⟩ := inSt_ok (by simp [hst])

theorem inSt_shadowed {k : Deckle} (hst : k.st.shadowed = true) : inSt k [.armed, .running, .stopped, .faulted] = .ok ⟨⟩ :=
  inSt_ok (by simpa using (shadowed_iff _).1 hst)

/-- A SAVE whose CRC is taken ends with its reply. -/
theorem furnishSaveComplete_first {d : Fin 8} (hjobs : s.jobs = j :: l) (hkind : j.kind = .save d n) :
    execFurnishSaveComplete dt d s =
      .next (completeJob (slotDone (advance s dt) n) j [] ([w "OK", w "FURNISH", w "SAVE", dTok d, kn "SLOT" n] ++
        sealToks (tget (slotDone (advance s dt) n).nv.slots n {}).sealN (tget (slotDone (advance s dt) n).nv.slots n {}).crc)) := by
  simp [execFurnishSaveComplete, hjobs, hkind]

/-- Settles O9: each command passes its checks in turn, and each event ends what it names. -/
theorem furnishCommandsComplete : Obligations.FurnishCommandsComplete := by
  refine ⟨?sealed, ?load, ?save, ?saved, ?start, ?noStart, ?drop, fun _ _ _ => rfl, ?slots, ?edited, ?revert, ?shown, ?pattern⟩
  case sealed =>
    rintro h s _ _ r rfl rfl hst harm hvalid rfl
    exact replies_of_noram rfl (by
      dsimp only
      rw [inSt_working hst, res_bind_ok, need_ok _ _ (by simp [harm]), res_bind_ok, hvalid]
      rfl)
  case load =>
    rintro h n s _ _ x r rfl rfl hslot hst harm hok hvalid rfl
    exact replies_of_noram rfl (by
      dsimp only
      rw [hslot, res_bind_ok, inSt_working hst, res_bind_ok, need_ok _ _ (by simp [harm]), res_bind_ok, need_ok _ _ hok, res_bind_ok, hvalid]
      rfl)
  case save =>
    rintro h n s _ _ _ rfl rfl rfl hn herase hmine hst hsealed harm
    exact awaits_of_noram rfl (by
      dsimp only
      rw [need_ok _ _ (by simp [hn]), res_bind_ok, need_ok _ _ (by simp [herase, hmine]), res_bind_ok, inSt_opened hst, res_bind_ok,
        need_ok _ _ (by simp [hsealed, harm]), res_bind_ok, need_ok _ _ (by simp [hmine]), res_bind_ok])
  case saved =>
    rintro dt d s j l n _ hjobs hkind rfl
    exact furnishSaveComplete_first hjobs hkind
  case start =>
    rintro h n s _ _ x rfl rfl hslot hst
    exact replies_of_noram rfl (by
      dsimp only
      rw [hslot, inSt_opened hst]
      rfl)
  case noStart =>
    rintro h s _ _ rfl rfl hst
    exact replies_of_noram rfl (by
      dsimp only
      rw [inSt_opened hst]
      rfl)
  case drop =>
    rintro h n s _ _ x rfl rfl hslot hst
    exact replies_of_noram rfl (by
      dsimp only
      rw [hslot, res_bind_ok, inSt_opened hst]
      rfl)
  case slots =>
    rintro h s _ _ _ _ rfl rfl rfl rfl
    exact replies_of_noram rfl rfl
  case edited =>
    rintro h x f s _ _ _ g r t rfl rfl rfl hhead hheads hfold hbanks hedit
    exact replies_of_noram rfl (by
      dsimp only
      rw [hhead, if_pos rfl, need_ok _ _ (by simp), res_bind_ok, hheads]
      dsimp only
      rw [hfold, res_bind_ok, hbanks, res_bind_ok, hedit]
      rfl)
  case revert =>
    rintro h s _ _ rfl rfl hst
    exact replies_of_noram rfl (by
      dsimp only
      rw [inSt_shadowed hst]
      rfl)
  case shown =>
    rintro h x s _ _ _ _ rfl rfl rfl hx hnot rfl
    exact replies_of_noram rfl (by
      dsimp only
      rw [need_ok _ _ (by simpa using hx), res_bind_ok]
      simp [Ne.symm hnot, okBody])
  case pattern =>
    rintro h s _ _ _ _ _ rfl rfl rfl rfl himage rfl
    exact replies_of_noram rfl (by
      dsimp only
      rw [need_ok (sections.contains "PATTERN") _ (by decide), res_bind_ok]
      have hpat : ["PATTERN"].contains "PATTERN" = true := by decide
      simp only [hpat, if_true, himage, res_bind_ok, okBody, List.flatMap_cons, List.flatMap_nil, List.append_nil])

end Sys2Proof
end

section
/-! ARM, RUN, TRIG, STOP and PRESS (chapters 5, 6 and 7). -/

namespace Sys2Proof

open Machine

theorem stopArming_of_none (harm : (getDk s d).arming = none) : stopArming s d = s := by simp [stopArming, harm]

theorem mergeShadow_of_clean (hclean : (getDk s d).dirty = false) : mergeShadow s d = s := by simp [mergeShadow, hclean]

/-- STOP OFF once nothing of the deckle moves any more, its shadow clean and no machine check latched. -/
theorem stopOffComplete_quiet {d : Fin 8} {s : State} (hjob : hasJob (advance s dt) (fun j => j == .stopOff d) = true)
    (hst : (getDk (advance s dt) d).st ≠ .running) (htdr : tdrBusy (advance s dt) d = false) (hramp : ramping (advance s dt) d = false)
    (hmchk : (getDk (advance s dt) d).mchk = false) (hdirty : (getDk (advance s dt) d).dirty = false)
    (hclean : (getDk (outputsOff (advance s dt) d) d).dirty = false) :
    execStopOffComplete dt d s =
      .next (finishJobs (setSt (modDk (modDk (outputsOff (advance s dt) d) d (fun k => { k with cause := none, mchk := false })) d
        (fun k => { k with why := none })) d .opened) (fun j => j == .stopOff d) [] (stopLine (getDk (advance s dt) d) d)) := by
  rw [execStopOffComplete]
  dsimp only
  rw [if_neg (by rw [getDk_advance] at hst; simp [hjob, hst, htdr, hramp]), mergeShadow_of_clean hclean, hmchk, hdirty]
  simp

/-- The press of an ARMED or STOPPED deckle has its boundary at once. -/
theorem pressBoundary_at_rest {d : Fin 8} (hst : (getDk s d).st = .armed ∨ (getDk s d).st = .stopped) :
    execPressBoundary dt d s = .next (applyPress (advance s dt) d (now (advance s dt))) := by
  rcases hst with hst | hst <;> simp [execPressBoundary, hst]

theorem applyPress_eq (hpress : (getDk s d).press = some (t, f)) (b : Nat) :
    applyPress s d b = endPlays (finishJobs (commitPress s d b f).1 (fun j => j == .press d) []
      [w "OK", w "PRESS", dTok d, kt "BOUNDARY" b, kt "SETTLED" (commitPress s d b f).2]) d := by
  simp [applyPress, hpress]

/-- A press that no quire has reached is not due. -/
theorem pressDue_of_not_reached (h : pressReached (getDk s d) = none) : pressDue s d = s := by simp [pressDue, h]

/-- Settles O10: each command passes its checks in turn, and each event completes what it names. -/
theorem runCommandsComplete : Obligations.RunCommandsComplete := by
  refine ⟨?arm, ?waitWarm, ?armed, ?run, ?trig, ?stopWait, ?stopArmed, ?stopRunning, ?offRunning, ?offArmed, ?offComplete, ?press, ?boundary,
    ?noBoundary⟩
  case arm =>
    rintro h s _ _ rfl rfl hst hlock hwait hchecks
    exact awaits_of_noram rfl (by
      rw [armNow, hst, res_bind_ok, hlock, res_bind_ok, if_neg (by simp [hwait]), hchecks]
      rfl)
  case waitWarm =>
    rintro h s _ _ rfl rfl hst hlock hwait
    exact replies_of_noram rfl (by
      rw [armNow, hst, res_bind_ok, hlock, res_bind_ok, if_pos hwait]
      rfl)
  case armed =>
    rintro dt d s t _ harm rfl hjob
    change Host.Outcome.next (armEnd (advance s dt) d) = _
    rw [armEnd, getDk_advance, harm]
    dsimp only
    rw [if_pos hjob]
  case run =>
    rintro h s _ _ rfl rfl hst
    exact replies_of_noram rfl (runNow_armed hst _)
  case trig =>
    rintro h s _ _ _ rfl rfl hst hown rfl
    exact replies_of_noram rfl (trigNow_armed hst hown _)
  case stopWait =>
    rintro h s _ _ rfl rfl hwait
    exact replies_of_noramFirst rfl (by
      rw [stopNow, if_pos hwait]
      rfl)
  case stopArmed =>
    rintro h s _ _ rfl rfl hwait hst
    exact replies_of_noramFirst rfl (by
      rw [stopNow, if_neg (by simp [hwait]), inSt_ok (by simp [hst]), res_bind_ok, if_pos hst]
      rfl)
  case stopRunning =>
    rintro h s _ _ rfl rfl hwait hst
    exact awaits_of_noramFirst rfl (by
      rw [stopNow, if_neg (by simp [hwait]), inSt_ok (by simp [hst]), res_bind_ok, if_neg (by simp [hst])])
  case offRunning =>
    rintro h s _ _ rfl rfl hst harm
    exact awaits_of_noramFirst rfl (by
      rw [stopOffNow, inSt_ok (by simp [hst]), res_bind_ok, stopArming_of_none harm, hst])
  case offArmed =>
    rintro h s _ _ rfl rfl hst harm
    exact awaits_of_noramFirst rfl (by
      rw [stopOffNow, inSt_ok (by simp [hst]), res_bind_ok, stopArming_of_none harm, hst])
  case offComplete =>
    rintro dt d s _ _ _ rfl rfl hjob hst htdr hramp hmchk hdirty rfl hclean
    exact stopOffComplete_quiet hjob hst htdr hramp hmchk hdirty hclean
  case press =>
    rintro h s _ _ rfl rfl hlive harm hpress hneed hvalid
    have hst : (getDk (begun h s) (myDk (begun h s) h)).st ∈ [DkState.armed, .running, .stopped] := by
      revert hlive
      cases (getDk (begun h s) (myDk (begun h s) h)).st <;> simp [DkState.live]
    exact awaits_of_noram rfl (by
      rw [pressNow, inSt_ok hst, res_bind_ok, need_ok _ _ (by simp [harm, hpress]), res_bind_ok, hneed]
      dsimp only
      rw [hvalid])
  case boundary =>
    intro dt d s t f hst hpress
    change execPressBoundary dt d s = _
    rw [pressBoundary_at_rest hst, applyPress_eq (s := advance s dt) hpress]
  case noBoundary =>
    intro dt d s t f hst hpress hlate hreached
    change execPressNoboundary dt d s = _
    rw [execPressNoboundary, pressDue_of_not_reached (s := advance s dt) hreached]
    simp [hst, hpress, hlate, hreached, modDk]

end Sys2Proof
end

section
/-! The TSET commands and the delay lines (chapters 11 and 22). -/

namespace Sys2Proof

open Machine

theorem setArg_ok {f : Furnish} (pos : Nat) (hi : i < f.tcount) : setArg pos i f = .ok ⟨⟩ := need_ok _ _ (by simp [hi])

/-- No list names every channel of the grant. -/
theorem chansOf_nil (k : Deckle) (pos : Nat) : chansOf k pos [] = .ok k.grant.ch := rfl

@[simp] theorem ownerEvent_dk (s : State) (c : EvClass) (t : Line) : (ownerEvent s c t).dk = s.dk := by simp [ownerEvent]

/-- Who holds a unit is a matter of the deckles alone. -/
theorem holder_congr (hdk : t.dk = s.dk) (k : UKind) (u : Nat) : holder t k u = holder s k u := by simp [holder, getDk, hdk]

/-- Settles O11: an accepted edit or a reading is the command's last check, and each event changes the line that it names. -/
theorem tsetCommandsComplete : Obligations.TsetCommandsComplete := by
  refine ⟨?count, ?period, ?pins, ?copy, ?shown, ?deskew, ?measure, ?measured, ?deskewShown, ?unlocked, ?locked⟩
  case count =>
    rintro h n s _ _ r t rfl rfl hlow hhigh hedit
    have hedit' : edit (begun h s) (myDk (begun h s) h) (some "TSET-COUNT") (putCount n) = .ok (r, t) := hedit
    exact replies_of_noram rfl (by
      dsimp only
      rw [need_ok _ _ (by simp [hlow, hhigh]), res_bind_ok, hedit']
      rfl)
  case period =>
    rintro h i v s _ _ p r t rfl rfl hi hread hedit
    exact replies_of_noram rfl (by
      dsimp only
      rw [setArg_ok _ hi, res_bind_ok, hread, res_bind_ok]
      exact congrArg (· >>= _) hedit)
  case pins =>
    rintro h i l f s _ _ g cs r t rfl rfl hi hf hfold hcs hedit
    exact replies_of_noram rfl (by
      dsimp only
      rw [setArg_ok _ hi, res_bind_ok, hfold, res_bind_ok, need_ok _ _ (by simp [hf]), res_bind_ok, hcs, res_bind_ok]
      exact congrArg (· >>= _) hedit)
  case copy =>
    rintro h i j s _ _ r t rfl rfl hi hj hedit
    exact replies_of_noram rfl (by
      dsimp only
      rw [setArg_ok _ hi, res_bind_ok, setArg_ok _ hj, res_bind_ok]
      exact congrArg (· >>= _) hedit)
  case shown =>
    rintro h i s _ _ _ _ rfl rfl rfl hi rfl
    exact replies_of_noram rfl (by
      dsimp only
      rw [setArg_ok _ hi, res_bind_ok, Option.getD_none, chansOf_nil]
      rfl)
  case deskew =>
    rintro h l f s _ _ g cs r t rfl rfl hf hfold hcs hedit
    exact replies_of_noram rfl (by
      dsimp only
      rw [hfold, res_bind_ok, need_ok _ _ (by simp [hf]), res_bind_ok, hcs, res_bind_ok, hedit]
      rfl)
  case measure =>
    rintro h l s _ _ cs rfl rfl hcs hst
    exact awaits_of_noram rfl (by
      dsimp only
      rw [hcs, res_bind_ok, inSt_ok (by simp [hst])]
      rfl)
  case measured =>
    rintro dt d res s j l cs _ _ hjobs hkind hst rfl rfl
    change execDeskewMeasureComplete dt d res s = _
    simp only [execDeskewMeasureComplete, advance_jobs, hjobs, hkind, List.find?_cons, beq_self_eq_true, getDk_advance, hst, if_true]
    rfl
  case deskewShown =>
    rintro h s _ _ _ rfl rfl rfl
    exact replies_of_noram rfl rfl
  case unlocked =>
    rintro dt c s d _ hdll hlock hholder rfl
    change execFDll dt c s = _
    have hholder' : holder (setPin (advance s dt) c { getPin s c with dll := false }) .ch c = some d :=
      (holder_congr (s := s) rfl _ _).trans hholder
    have hheld : (!(getPin s c).dll || decide ((advance s dt).rf.lock = .holdover)) = false := by simpa [hdll] using hlock
    simp only [execFDll, modPin, getPin_advance, hheld, Bool.false_eq_true, if_false, hholder']
  case locked =>
    rintro dt c s _ hdll hholder hopen rfl
    change execDllLocked dt c s = _
    have hholder' : holder (ownerEvent (setPin (advance s dt) c { getPin s c with dll := true }) .note
        [w "DLL-LOCKED", kv "CH" (unitName .ch c)]) .ch c = none := (holder_congr (s := s) (by simp) _ _).trans hholder
    have hopen' : linesOpen (setPin (advance s dt) c { getPin s c with dll := true }) = true := hopen
    simp only [execDllLocked, modPin, getPin_advance, hdll, Bool.false_eq_true, if_false, hopen', if_true, hholder']

end Sys2Proof
end

section
/-! The PIN and LEVEL commands and the pins' own events (chapters 12 and 22). -/

namespace Sys2Proof

open Machine

theorem readUnit_ch_ok {c : Nat} (pos : Nat) (hc : c < 48) : readUnit pos .ch c = .ok ⟨⟩ := need_ok _ _ (decide_eq_true (Nat.le_of_lt_succ hc))

/-- A deckle may name a unit that it holds. -/
theorem holds_one {k : Deckle} {u : UKind} (hc : c ∈ k.grant.of u) : holds k u [c] = .ok ⟨⟩ := need_ok _ _ (by simpa using hc)

@[simp] theorem advance_run (s : State) (dt : Nat) : (advance s dt).rf.run = s.rf.run := by simp only [advance]; split <;> rfl

@[simp] theorem holder_advance (s : State) (dt : Nat) (k : UKind) (u : Nat) : holder (advance s dt) k u = holder s k u := rfl
@[simp] theorem holder_setPin (s : State) (c : Nat) (p : Pin) (k : UKind) (u : Nat) : holder (setPin s c p) k u = holder s k u := rfl

theorem modPin_eq (s : State) (c : Nat) (f : Pin → Pin) : modPin s c f = setPin s c (f (getPin s c)) := rfl

/-- Settles O12: an accepted edit or a reading is the command's last check, and each event changes the pins that it names. -/
theorem pinCommandsComplete : Obligations.PinCommandsComplete := by
  refine ⟨?name, ?rest, ?shown, ?level, ?pmu, ?levelShown, ?tick, ?dwell, ?reconnect, ?drvi, ?clamp, ?warm, ?hot⟩
  case name =>
    rintro h c n s _ _ r t rfl rfl hname hc hheld hedit
    exact replies_of_noram rfl (by
      dsimp only
      rw [need_ok _ _ hname, res_bind_ok, readUnit_ch_ok _ hc, res_bind_ok, holds_one (by exact hheld), res_bind_ok, hedit]
      rfl)
  case rest =>
    rintro h l v x s _ _ cs r t rfl rfl hpick hcs hedit
    exact replies_of_noram rfl (by
      dsimp only
      rw [hpick, res_bind_ok, hcs, res_bind_ok, hedit]
      rfl)
  case shown =>
    rintro h s _ _ _ rfl rfl rfl
    exact replies_of_noram rfl rfl
  case level =>
    rintro h l f s _ _ g cs r t rfl rfl hf hfold hcs hedit
    exact replies_of_noram rfl (by
      dsimp only
      rw [hfold, res_bind_ok, need_ok _ _ (by simp [hf]), res_bind_ok, hcs, res_bind_ok]
      exact congrArg (· >>= _) hedit)
  case pmu =>
    rintro h l f s _ _ g cs r t rfl rfl hf hfold hcs hedit
    exact replies_of_noram rfl (by
      dsimp only
      rw [hfold, res_bind_ok, need_ok _ _ (by simp [hf]), res_bind_ok, hcs, res_bind_ok]
      exact congrArg (· >>= _) hedit)
  case levelShown =>
    rintro h s _ _ _ rfl rfl rfl
    exact replies_of_noram rfl rfl
  case tick =>
    rintro dt s _ rfl hgood hrun
    change execLevelTick dt s = _
    have hrun' : (advance s dt).rf.run = true := by simpa using hrun
    simp only [execLevelTick, advance_md, hgood, Bool.false_eq_true, if_false, levelUpdate, hrun', if_true, gridTick]
  case dwell =>
    intro dt c s hdwell
    change execRangeDwellEnd dt c s = _
    simp only [execRangeDwellEnd, getPin_advance, Bool.or_eq_true, hdwell, if_true, modPin_eq, gridTick]
  case reconnect =>
    intro dt c s t hrecon hlate
    change execPmuReconnectEnd dt c s = _
    simp only [execPmuReconnectEnd, modPin_eq, getPin_advance, hrecon, hlate, if_true]
  case drvi =>
    rintro dt c s d _ hon hholder rfl
    change execFPinDrvi dt c s = _
    simp only [execFPinDrvi, modPin_eq, getPin_advance, hon, if_true, holder_setPin, holder_advance, hholder]
  case clamp =>
    rintro dt c s d _ hlim hmode hholder rfl
    change execPmuClampLimit dt c false s = _
    simp [execPmuClampLimit, modPin_eq, hlim, hmode, hholder]
  case warm =>
    rintro dt n s _ hcold hopen rfl
    change execFeWarm dt n s = _
    rw [execFeWarm]
    dsimp only
    rw [if_neg (by simpa [getFe, linesOpen_advance, hopen] using hcold)]
    rfl
  case hot =>
    rintro dt n s _ _ rfl rfl
    rfl

end Sys2Proof
end

section
/-! The BANK, BROKE and CAPTURE commands (chapters 13, 14 and 22). -/

namespace Sys2Proof

open Machine

theorem slotFrom_ok (hi : i < n) : slotFrom n (some i) = .ok i := by
  simp [slotFrom, need, hi, bind, Except.bind]
  rfl

theorem slotCount_ok (i : Option Nat) (hlow : 1 ≤ n) (hhigh : n ≤ m) : slotCount m i (some n) = .ok n := by
  simp [slotCount, need, hlow, hhigh, bind, Except.bind]
  rfl

/-- Settles O13: each command passes its checks in turn, and answers from the banks and the logs as they are. -/
theorem bankAndLogCommandsComplete : Obligations.BankAndLogCommandsComplete := by
  refine ⟨?power, ?zero, ?zeroed, ?shown, fun _ _ _ hfree => ?pool, ?broke, ?capture, ?brokeShown, ?brokeRead, ?brokeCount, ?captureShown, ?captureRead,
    ?brokeClear, ?captureClear⟩
  case power =>
    rintro h l p s _ _ b rfl rfl hb hst harm
    exact replies_of_noram rfl (by
      dsimp only
      rw [hb, res_bind_ok, need_ok _ _ (by simp [hst, harm])]
      rfl)
  case zero =>
    rintro h l s _ _ b rfl rfl hb hst harm
    exact awaits_of_noram rfl (by
      dsimp only
      rw [hb, res_bind_ok, need_ok _ _ (by simp [hst, harm]), res_bind_ok])
  case zeroed =>
    rintro dt d s l _ hzeroing rfl
    change execBankZeroComplete dt d s = _
    simp only [execBankZeroComplete, hzeroing] <;> rfl
  case shown =>
    rintro h s _ _ _ _ rfl rfl rfl rfl
    exact replies_of_noram rfl rfl
  case pool =>
    subst hfree
    exact replies_of_noram rfl rfl
  case broke =>
    rintro h s _ _ _ c r rfl rfl rfl hst hcomplete
    exact replies_of_noram rfl (by
      dsimp only
      rw [inSt_ok hst, res_bind_ok, hcomplete]
      rfl)
  case capture =>
    rintro h s _ _ _ c r rfl rfl rfl hst hcomplete
    exact replies_of_noram rfl (by
      dsimp only
      rw [inSt_ok hst, res_bind_ok, hcomplete]
      rfl)
  case brokeShown =>
    rintro h i n s _ _ _ r l rfl rfl rfl hst hi hlow hhigh hlog
    exact replies_of_noram rfl (by
      dsimp only
      rw [slotFrom_ok hi, res_bind_ok, slotCount_ok _ hlow hhigh, res_bind_ok, inSt_ok hst, res_bind_ok, hlog]
      rfl)
  case brokeRead =>
    rintro h i n s _ _ _ r l m rfl rfl rfl hst hi hlow hhigh hlog
    exact replies_of_noram rfl (by
      dsimp only
      rw [slotFrom_ok hi, res_bind_ok, slotCount_ok _ hlow hhigh, res_bind_ok, inSt_ok hst, res_bind_ok, hlog]
      rfl)
  case brokeCount =>
    rintro h s _ _ _ rfl rfl rfl hst
    exact replies_of_noram rfl (by
      dsimp only
      rw [Option.getD_none, chansOf_nil, res_bind_ok, inSt_ok hst]
      rfl)
  case captureShown =>
    rintro h i n s _ _ _ r l rfl rfl rfl hst hi hlow hhigh hlog
    exact replies_of_noram rfl (by
      dsimp only
      rw [slotFrom_ok hi, res_bind_ok, slotCount_ok _ hlow hhigh, res_bind_ok, inSt_ok hst, res_bind_ok, hlog]
      rfl)
  case captureRead =>
    rintro h i n s _ _ _ r l m rfl rfl rfl hst hi hlow hhigh hlog
    exact replies_of_noram rfl (by
      dsimp only
      rw [slotFrom_ok hi, res_bind_ok, slotCount_ok _ hlow hhigh, res_bind_ok, inSt_ok hst, res_bind_ok, hlog]
      rfl)
  case brokeClear =>
    rintro h s _ _ _ rfl rfl rfl hst
    exact brokeClear_replies hst
  case captureClear =>
    rintro h s _ _ _ rfl rfl rfl hst
    exact captureClear_replies hst

end Sys2Proof
end

section
/-! BANK STRIPE, DATA and SEQ (chapters 6, 8 and 14). -/

namespace Sys2Proof

open Machine

theorem holds_all {k : Deckle} {u : UKind} (hl : ∀ x ∈ l, x ∈ k.grant.of u) : holds k u l = .ok ⟨⟩ := need_ok _ _ (by simpa using hl)

theorem readUnit_ok {k : UKind} (pos : Nat) (hn : n ≤ k.max) : readUnit pos k n = .ok ⟨⟩ := need_ok _ _ (decide_eq_true hn)

/-- Settles O14: a write is staged or made by `putSheets` and `putOps` after its last check; a reading reports from the banks as woken. -/
theorem patternCommandsComplete : Obligations.PatternCommandsComplete := by
  refine ⟨?stripe, ?sheets, ?sheet, ?read, ?bank, ?load, ?op, ?entry, ?list, ?cost⟩
  case stripe =>
    rintro h l s _ _ b r t rfl rfl hb hdistinct hheld hedit
    exact replies_of_noram rfl (by
      dsimp only
      rw [hb, res_bind_ok, need_ok _ _ (by simp [hdistinct]), res_bind_ok, holds_all (by exact hheld), res_bind_ok, hedit]
      rfl)
  case sheets =>
    rintro h pa n blk s _ _ p r t hB rfl rfl hrange hheld hlen hprog hfault hput
    exact repliesBlk_of_noramBlk rfl hB hrange (by
      dsimp only
      rw [hheld, res_bind_ok, need_ok _ _ (by simp [hlen]), res_bind_ok, hprog, res_bind_ok, hfault]
      dsimp only
      exact congrArg (· >>= _) hput)
  case sheet =>
    rintro h pa i ts codes _ s _ _ _ r t rfl rfl rfl hpa hi hts rfl hcodes hlen hheld hprog hput
    exact replies_of_noram rfl (by
      dsimp only
      rw [need_ok _ _ (by simp [hpa]), res_bind_ok, need_ok _ _ (by simp [hi]), res_bind_ok, need_ok _ _ (by simp [hts]), res_bind_ok,
        need_ok (List.all [] _) _ rfl, res_bind_ok, need_ok _ _ (decide_eq_true ⟨hcodes, hlen⟩), res_bind_ok, hheld, res_bind_ok, hprog, res_bind_ok]
      exact congrArg (· >>= _) hput)
  case read =>
    rintro h pa n s _ _ _ l r rfl rfl rfl hrange hheld hlen rfl rfl hread
    exact replies_of_noram rfl (by
      dsimp only
      rw [hrange, res_bind_ok, need_ok _ _ (by simp [hlen]), res_bind_ok, hheld, res_bind_ok, hread]
      rfl)
  case bank =>
    rintro h v s _ _ r t rfl rfl hv hheld hedit
    exact replies_of_noram rfl (by
      dsimp only
      rw [readUnit_ok _ (by exact hv), res_bind_ok, holds_one (by exact hheld), res_bind_ok, hedit]
      rfl)
  case load =>
    rintro h a blk s _ _ p r t hB rfl rfl hwhole ha hlen hheld hput
    exact repliesBlk_of_noramBlk rfl hB (need_ok _ _ (by simp [ha])) (by
      dsimp only
      rw [need_ok _ _ (by simp [hlen]), res_bind_ok, hheld, res_bind_ok, need_ok _ _ (by simp [hwhole]), res_bind_ok, hput]
      rfl)
  case op =>
    rintro h a x o s _ _ r t rfl rfl ha hassemble hput
    exact replies_of_noram rfl (by
      dsimp only
      rw [need_ok _ _ (by simp [ha]), res_bind_ok, hassemble, res_bind_ok, hput]
      rfl)
  case entry =>
    rintro h a s _ _ r t rfl rfl ha hedit
    exact replies_of_noram rfl (by
      dsimp only
      rw [need_ok _ _ (by simp [ha]), res_bind_ok, hedit]
      rfl)
  case list =>
    rintro h a b v s _ _ _ _ rfl rfl rfl hab hb hheld hprog rfl hgood
    exact replies_of_noram rfl (by
      dsimp only
      rw [need_ok _ _ (by simp [hab, hb]), res_bind_ok, hheld, res_bind_ok, hprog]
      dsimp only
      rw [need_ok _ _ (by simp [hgood])]
      rfl)
  case cost =>
    rintro h s _ _ _ rfl rfl rfl hheld hgood
    exact replies_of_noram rfl (by
      dsimp only
      rw [hheld, res_bind_ok, hgood]
      rfl)

end Sys2Proof
end

section
/-! The MICRO commands (chapters 10 and 22). -/

namespace Sys2Proof

open Machine

/-- The end of a store with a command that waits for it. -/
theorem microImageStored_first (hstoring : s.md.storing = (k, n, x) :: l) (hjobs : (endStore (advance s dt) k n x).jobs = j :: rest)
    (hkind : j.kind = .image t) : execMicroImageStored dt s = .next (completeJob (endStore (advance s dt) k n x) j [] t) := by
  simp [execMicroImageStored, hstoring, hjobs, hkind]

/-- Settles O15: a write is staged or made by the slice operations after its last check; a reading reports from the store. -/
theorem microCommandsComplete : Obligations.MicroCommandsComplete := by
  refine ⟨?image, ?stored, ?list, ?drop, ?load, ?word, ?wide, ?dispatch, ?dispatchList, ?read, ?check, ?clear⟩
  case image =>
    rintro h kind n blk c s _ p x hB rfl hkind hn hchecks rfl hA
    have hpre : (do need (n.isSome = (kind = ImgKind.patch)) (e400 4); need (n.getD 0 < 16) (e419 4)) = .ok ⟨⟩ := by
      rw [need_ok _ _ (by simp [hkind]), res_bind_ok, need_ok _ _ (by simp [hn])]
    exact noramBlk_later hA hB hpre (by
      dsimp only
      rw [hchecks]
      rfl)
  case stored =>
    rintro dt s k n x l j rest t _ hstoring rfl hjobs hkind
    exact microImageStored_first hstoring hjobs hkind
  case list =>
    rintro h s _ rfl
    exact replies_of_noram rfl rfl
  case drop =>
    intro h n s hn
    exact replies_of_noram rfl (by
      dsimp only
      rw [need_ok _ _ (by simp [hn])]
      rfl)
  case load =>
    rintro h nano a blk s _ _ p _ o r t hB rfl rfl rfl hwhole ha hslice hwrite
    exact repliesBlk_of_noramBlk rfl hB (need_ok _ _ (by simp [ha])) (by
      dsimp only
      rw [hslice, res_bind_ok, need_ok _ _ (by simp [hwhole]), res_bind_ok, hwrite]
      rfl)
  case word =>
    rintro h a v s _ _ o r t rfl rfl hv hslice hwrite
    exact replies_of_noram rfl (by
      dsimp only
      rw [need_ok _ _ (by simpa using hv), res_bind_ok, need_ok _ _ (by decide), res_bind_ok]
      rw [Option.isSome_none, hslice, res_bind_ok, if_neg (by simp), hwrite]
      rfl)
  case wide =>
    rintro h a v lo s _ _ o r t rfl rfl hv hlo hslice hwrite
    exact replies_of_noram rfl (by
      dsimp only
      rw [need_ok _ _ (by simpa using hv), res_bind_ok, need_ok _ _ (by simpa using hlo), res_bind_ok]
      rw [Option.isSome_some, hslice, res_bind_ok, if_pos rfl]
      exact congrArg (· >>= _) hwrite)
  case dispatch =>
    rintro h e v s _ _ r t rfl rfl he hv hbits hwrite
    exact replies_of_noram rfl (by
      dsimp only
      rw [need_ok _ _ (by simp [he]), res_bind_ok, need_ok _ _ (decide_eq_true ⟨hv, hbits⟩), res_bind_ok, hwrite]
      rfl)
  case dispatchList =>
    rintro h s _ _ rfl rfl
    exact replies_of_noram rfl rfl
  case read =>
    rintro h nano a n s _ _ o rfl rfl hn hslice
    exact replies_of_noram rfl (by
      dsimp only
      rw [need_ok _ _ (by simp [hn]), res_bind_ok, hslice]
      rfl)
  case check =>
    rintro h s _ _ _ _ rfl rfl rfl hheld hread rfl hgood hadmitted
    exact replies_of_noram rfl (by
      dsimp only
      rw [hheld, res_bind_ok, hread]
      dsimp only
      rw [res_bind_ok, hgood]
      dsimp only
      rw [res_bind_ok, hadmitted]
      rfl)
  case clear =>
    rintro h s _ _ r t rfl rfl hwrite
    exact replies_of_noram rfl (by
      dsimp only
      rw [hwrite]
      rfl)

end Sys2Proof
end

section
/-! The stock ops (chapters 6, 8 and 10). -/

namespace Sys2Proof

open Machine

/-- Settles O16: a thread that stands at an op takes the op's own body, whose branch its conditions name. -/
theorem stockOpsComplete : Obligations.StockOpsComplete := by
  refine ⟨?nop, ?halt, ?run, ?matchFirst, ?matchEnd, ?waitt, ?loop, ?endlAgain, ?endlDone, ?jump, ?call, ?ret, ?brfail, ?mark, ?learn, ?tsel,
    ?custom, ?release⟩
  case nop =>
    rintro dt d s o _ _ hat rfl rfl hcode
    change execOpNop dt d s = _
    rw [execOpNop, stockOp_atOp hat (decide_eq_true hcode)]
  case halt =>
    rintro dt d s o _ _ hat rfl rfl hcode
    change execOpHalt dt d s = _
    rw [execOpHalt, stockOp_atOp hat (decide_eq_true hcode)]
  case run =>
    rintro dt d s o _ _ hat rfl rfl hcode hfree
    change execOpRun dt d s = _
    rw [execOpRun, stockOp_atOp hat (decide_eq_true hcode), if_neg (by simp [hfree])]
  case matchFirst =>
    rintro dt d s o _ _ hat rfl rfl hcode hmt hfree
    change execOpMatch dt d s = _
    rw [execOpMatch, stockOp_atOp hat (decide_eq_true hcode), hmt]
    dsimp only
    rw [if_neg (by simp [hfree])]
  case matchEnd =>
    rintro dt d s o _ _ m hat rfl rfl hcode hmt hfree hreps hin hmatched
    change execOpMatch dt d s = _
    rw [execOpMatch, stockOp_atOp hat (decide_eq_true hcode), hmt]
    dsimp only
    rw [if_neg (by simp [hfree]), if_neg (Nat.not_lt_of_le hreps), if_neg (by simp [hin]), if_pos hmatched]
  case waitt =>
    rintro dt d s o _ _ hat rfl rfl hcode hfree
    change execOpWaitt dt d s = _
    rw [execOpWaitt, stockOp_atOp hat (decide_eq_true hcode), if_neg (by simp [hfree])]
  case loop =>
    rintro dt d s o _ _ hat rfl rfl hcode hdepth
    change execOpLoop dt d s = _
    rw [execOpLoop, stockOp_atOp hat (decide_eq_true hcode), if_neg (Nat.not_le_of_lt hdepth)]
  case endlAgain =>
    rintro dt d s o _ _ _ hat rfl rfl hcode hdepth rfl hagain
    change execOpEndl dt d s = _
    rw [execOpEndl, stockOp_atOp hat (decide_eq_true hcode), if_neg (Nat.pos_iff_ne_zero.1 hdepth)]
    dsimp only
    rw [if_pos (decide_eq_true (Nat.pos_iff_ne_zero.1 hagain))]
  case endlDone =>
    rintro dt d s o _ _ hat rfl rfl hcode hdepth hzero
    change execOpEndl dt d s = _
    rw [execOpEndl, stockOp_atOp hat (decide_eq_true hcode), if_neg (Nat.pos_iff_ne_zero.1 hdepth)]
    dsimp only
    rw [hzero]
    rfl
  case jump =>
    rintro dt d s o _ hat rfl hcode
    exact exec_opJump_atOp hat hcode
  case call =>
    rintro dt d s o _ _ hat rfl rfl hcode hroom
    exact exec_opCall_atOp hat hcode hroom
  case ret =>
    rintro dt d s o _ _ r e l hat rfl rfl hcode hos
    exact exec_opRet_atOp hat hcode hos
  case brfail =>
    rintro dt d s o _ _ _ hat rfl rfl hcode hin rfl hkeep
    change execOpBrfail dt d s = _
    rw [execOpBrfail, stockOp_atOp hat (decide_eq_true hcode)]
    dsimp only
    rw [if_neg (by simp [hin]), if_neg (by simp [hkeep])]
  case mark =>
    rintro dt d s o _ _ hat rfl rfl hcode
    change execOpMark dt d s = _
    rw [execOpMark, stockOp_atOp hat (decide_eq_true hcode)]
  case learn =>
    rintro dt d s o _ _ hat rfl rfl hcode
    change execOpLearn dt d s = _
    rw [execOpLearn, stockOp_atOp hat (decide_eq_true hcode)]
  case tsel =>
    rintro dt d s o _ _ hat rfl rfl hcode
    change execOpTsel dt d s = _
    rw [execOpTsel, stockOp_atOp hat (decide_eq_true hcode)]
  case custom =>
    rintro dt d s o _ _ _ hat rfl rfl hcode rfl hdefined
    change execOpCustom dt d s = _
    rw [execOpCustom, stockOp_atOp hat (decide_eq_true hcode)]
    dsimp only
    rw [if_neg (by omega)]
  case release =>
    intro dt d s hwait hrun hin
    change execResultWaitRelease dt d s = _
    simp [execResultWaitRelease, hwait, hrun, hin]

end Sys2Proof
end

section
/-! The sequencer's own events (chapters 6, 8 and 13). -/

namespace Sys2Proof

open Machine

/-- A sequencer with a quire on the felts is not done, and one that does not halt is not. -/
theorem haltDone_of_felts {q : Seq} (h : q.felts = x :: l) : haltDone q = false := by simp [haltDone, h]
theorem haltDone_of_going {q : Seq} (h : q.halting = false) : haltDone q = false := by simp [haltDone, h]

/-- A broke record drains into the next 64 bytes while the log of the first records has room. -/
theorem drainBroke_first (hq : (getDk s d).res.bq = r :: l) (hb : (getDk s d).act.bbank = some b) (hmode : (getDk s d).act.bmode = .first)
    (hroom : (getDk s d).res.bpos < 16383) :
    drainBroke s d = modRes (putBank (modRes (wakeBank s b) d (fun x => { x with bq := l })) b (64 * (getDk s d).res.bpos) r.bytes) d
        (fun x => { x with bpos := x.bpos + 1, brec := x.brec + 1 }) := by
  have hlast : ¬ 16384 ≤ (getDk s d).res.bpos := by omega
  have hend : ¬ (getDk s d).res.bpos = 16383 := by omega
  simp [drainBroke, hq, hb, hmode, hlast, hend]

/-- A capture entry drains into the next 32 bytes while the log of the first entries has room. -/
theorem drainCapture_first (hq : (getDk s d).res.cq = r :: l) (hb : (getDk s d).act.cbank = some b) (hmode : (getDk s d).act.cmode = .first)
    (hroom : (getDk s d).res.cpos < 32767) :
    drainCapture s d = modRes (putBank (modRes (wakeBank s b) d (fun x => { x with cq := l })) b (32 * (getDk s d).res.cpos) r.bytes) d
        (fun x => { x with cpos := x.cpos + 1, crec := x.crec + 1 }) := by
  have hlast : ¬ 32768 ≤ (getDk s d).res.cpos := by omega
  have hend : ¬ (getDk s d).res.cpos = 32767 := by omega
  simp [drainCapture, hq, hb, hmode, hlast, hend]

/-- Settles O17: each event is due under the conditions that its clause names. -/
theorem sequencerEventsComplete : Obligations.SequencerEventsComplete := by
  refine ⟨?write, ?placed, ?starved, ?stopped, ?broke, ?capture, fun _ _ _ h => ?failOutFall, ?remap, ?trigOutFall⟩
  case write =>
    rintro dt d s _ _ x rfl rfl hdreg hlead hgood hstops hst hbank hwait
    change execHeadboxQuireWrite dt d s = _
    have hlead' : ¬ leadLimit (getDk (advance s dt) d).seq ≤ lead (getDk (advance s dt) d).seq (now (advance s dt)) := Nat.not_le_of_lt hlead
    simp only [execHeadboxQuireWrite, hdreg, hlead', hgood, hstops, hst, hbank, hwait, Option.isSome_none, List.isEmpty_nil, Bool.false_eq_true,
      Bool.not_true, decide_true, Bool.or_true, or_self, if_false]
  case placed =>
    rintro dt d obs s _ _ q l rfl rfl hst hrun hstart hstops hpending hfelts hfo
    change execQuireDecision dt d obs s = _
    have hnow : ¬ (now (pressDue (advance s dt) d) * 1024 + 16384 < (getDk (pressDue (advance s dt) d) d).seq.start) := Nat.not_lt_of_le hstart
    simp [execQuireDecision, hst, hrun, hnow, hstops, hpending, haltDone_of_felts hfelts, hfelts, hfo]
  case starved =>
    rintro dt d obs s _ _ rfl rfl hst hrun hstart hstops hpending hhalt hfelts hgood
    change execQuireDecision dt d obs s = _
    have hnow : ¬ (now (pressDue (advance s dt) d) * 1024 + 16384 < (getDk (pressDue (advance s dt) d) d).seq.start) := Nat.not_lt_of_le hstart
    simp [execQuireDecision, hst, hrun, hnow, hstops, hpending, haltDone_of_going hhalt, hfelts, hgood]
  case stopped =>
    rintro dt d s _ _ rfl rfl hst hstart hstops
    change execQuireBoundaryStop dt d s = _
    rw [execQuireBoundaryStop, if_pos ⟨hst, hstart, .inl (by simpa using hstops)⟩]
  case broke =>
    rintro dt d s _ _ r l b rfl rfl hq hb hmode hroom
    exact congrArg Host.Outcome.next (drainBroke_first hq hb hmode hroom)
  case capture =>
    rintro dt d s _ _ r l b rfl rfl hq hb hmode hroom
    exact congrArg Host.Outcome.next (drainCapture_first hq hb hmode hroom)
  case failOutFall =>
    subst h
    rfl
  case remap =>
    rintro dt s _ d rfl hfo hst
    change execFailOutRemapApply dt s = _
    rw [execFailOutRemapApply, hfo]
    dsimp only
    rw [if_pos (.inl hst)]
  case trigOutFall =>
    rintro dt n s _ l rfl hup
    change execTrigOutFall dt n s = _
    rw [execTrigOutFall, lineLeft, hup]
    rfl

end Sys2Proof
end

section
/-! PACE, REF, TRIG-IN and the events of pace and reference (chapters 6 and 7). -/

namespace Sys2Proof

open Machine

/-- A window that ends while the pace is settled derates by its ratio. -/
theorem windowTaken_settled {ratio : Rat} (hnext : (reportRatio s ratio).pc.next = none) (hskip : (reportRatio s ratio).pc.skip = false) :
    windowTaken ratio s = derate (reportRatio s ratio) ratio := by
  simp [windowTaken, hnext, hskip]

/-- A loop that is not locked leaves no source. -/
theorem leaveSource_of_unlocked (hlock : s.rf.lock ≠ .locked) : leaveSource s = s := by simp [leaveSource, hlock]

/-- The first lock of a loop to a source. -/
theorem loopLock_first (hmoving : (advance s dt).rf.moving = some src) (hloss : (advance s dt).rf.loss = false)
    (hlock : (advance s dt).rf.lock = .unlocked) (hrep : s.pc.repT = none) :
    execLoopLock dt s = .next (answerSwitches (setWarm
      { advance s dt with rf := { (advance s dt).rf with active := some src, lock := .locked, run := true, moving := none, hoT := none },
                          pc := { s.pc with repT := some (advance s dt).wall } }
      (warmAtLock { advance s dt with rf := { (advance s dt).rf with active := some src, lock := .locked, run := true, moving := none, hoT := none },
                                      pc := { s.pc with repT := some (advance s dt).wall } } src))) := by
  rw [execLoopLock, leaveSource_of_unlocked (by rw [hlock]; decide)]
  dsimp only
  rw [hmoving, hlock, hloss]
  simp only [reduceCtorEq, if_false, Bool.false_and, Bool.false_eq_true, bne_self_eq_false, advance_pc, hrep, Option.isNone_none, if_true]

/-- Settles O18: each command passes its checks in turn, and each event acts under the conditions that its clause names. -/
theorem paceAndReferenceComplete : Obligations.PaceAndReferenceComplete := by
  refine ⟨?paceSame, ?paceSet, ?paceReached, ?pace, ?window, ?slow, ?ref, ?select, ?selected, ?lock, ?usable, ?unusable, ?lost, ?hold, ?edge, ?trigger⟩
  case paceSame =>
    rintro h p s _ rfl rfl hreached
    exact replies_of_noram rfl (by
      dsimp only
      rw [if_pos rfl, if_pos (by simp [hreached])]
      rfl)
  case paceSet =>
    rintro h p s _ rfl hne hfaster
    exact awaits_of_noram rfl (by
      dsimp only
      rw [if_neg hne, need_ok _ _ (by simp [hfaster]), res_bind_ok])
  case paceReached =>
    rintro dt s _ p rfl hnext
    change execPaceReached dt s = _
    simp only [execPaceReached, advance_pc, hnext]
  case pace =>
    rintro h s _ rfl hrole
    exact replies_of_noram rfl (by
      dsimp only
      rw [if_neg hrole]
      rfl)
  case window =>
    rintro dt ratio s _ rfl hrun hnext hskip hgood
    rw [exec_monitorWindowEnd_run dt ratio s hrun, windowTaken_settled hnext hskip, if_neg (Rat.not_lt.2 hgood)]
  case slow =>
    rintro dt ratio s _ rfl hrun hnext hskip hslow
    rw [exec_monitorWindowEnd_run dt ratio s hrun, windowTaken_settled hnext hskip, if_pos hslow]
  case ref =>
    rintro h s _ rfl
    exact replies_of_noram rfl rfl
  case select =>
    rintro h src force s _ rfl hchain hslave hint huse hext hrest
    exact awaits_of_noram rfl (by
      rw [need_ok _ _ (by simpa using hchain), res_bind_ok, need_ok _ _ (by simp [hslave]), res_bind_ok,
        need_ok _ _ (by rcases hint with h | h <;> simp [h]), res_bind_ok, if_neg (by simp [huse]),
        need_ok _ _ (by rcases hext with h | h <;> simp [h]), res_bind_ok, need_ok _ _ (by rcases hrest with h | h <;> simp [h]), res_bind_ok])
  case selected =>
    rintro h src force s _ rfl hchain hslave hint huse
    exact replies_of_noram rfl (by
      rw [need_ok _ _ (by simpa using hchain), res_bind_ok, need_ok _ _ (by simp [hslave]), res_bind_ok,
        need_ok _ _ (by rcases hint with h | h <;> simp [h]), res_bind_ok, if_pos huse]
      rfl)
  case lock =>
    rintro dt s _ src rfl hmoving hloss hlock hrep
    exact loopLock_first hmoving hloss hlock hrep
  case usable =>
    rintro dt cls held s _ rfl hactive hsel
    change execRefinUsable dt ⟨cls, held⟩ s = _
    rw [execRefinUsable]
    dsimp only
    rw [if_neg (fun h => hactive h.1), if_neg (by simp [hsel]), if_neg (by simp [hsel])]
  case unusable =>
    rintro dt cls held s _ rfl hactive hlock hbad
    change execRefinUsable dt ⟨cls, held⟩ s = _
    rw [execRefinUsable]
    dsimp only
    rw [if_pos ⟨hactive, hlock, by rcases hbad with h | ⟨h, h'⟩ <;> simp [*]⟩]
  case lost =>
    rintro dt s _ rfl hlock hactive
    change execRefLost dt s = _
    rw [execRefLost, if_pos ⟨hlock, hactive⟩]
  case hold =>
    rintro dt s _ t rfl hho hvar hlock hloss hmoving hlate
    change execTimebaseHold dt s = _
    rw [execTimebaseHold, hho]
    dsimp only
    rw [if_pos ⟨hvar, hlock, hloss, by simp [hmoving], hlate⟩]
  case edge =>
    rintro dt rising fine s _ _ rfl hrun rfl
    change execTrigInEdge dt rising fine s = _
    rw [execTrigInEdge]
    dsimp only
    rw [if_neg (by rw [hrun]; decide)]
  case trigger =>
    intro src t f s d htrig harm hst
    simp only [trigInDeckle, htrig, harm, hst, Option.isNone_none, decide_true, Bool.and_self, if_true, trigInStart]

end Sys2Proof
end

section
/-! The CHAIN commands and the frames of the chain (chapters 7 and 22). -/

namespace Sys2Proof

open Machine

@[simp] theorem isSlave_advance (s : State) (dt : Nat) : isSlave (advance s dt) = isSlave s := rfl

/-- A group between 1 and 15 that no deckle in use is mapped to may be mapped and unmapped by command. -/
theorem chainGroup_replies (hlow : 1 ≤ g) (hhigh : g ≤ 15)
    (hfree : deckles.any (fun d => (getDk (begun h s) d).inUse && (getDk (begun h s) d).act.group = some g) = false) (on : Bool) :
    Replies (.chainGroup h g on none) { word := "CHAIN", roles := [.o] } h s
      { begun h s with ch := { (begun h s).ch with groups := if on then tset (begun h s).ch.groups g .cmd else tdel (begun h s).ch.groups g } } []
      [w "OK", w "CHAIN", w "GROUP", { val := [.d g] }, w (onOff on)] := by
  have hneed : need (!deckles.any (fun d => (getDk (begun h s) d).inUse && (getDk (begun h s) d).act.group = some g)) e423 = .ok ⟨⟩ :=
    need_ok _ _ (by rw [hfree]; rfl)
  exact replies_of_noram rfl (by
    dsimp only
    rw [need_ok _ _ (by simp [hlow, hhigh]), res_bind_ok]
    rw [show (pure Trig.cmd : Res Trig) = .ok Trig.cmd from rfl, res_bind_ok]
    exact congrArg (· >>= _) hneed)

/-- Whether a heartbeat sent at a tick agrees with the slave's own time, and those in a row before it did. -/
def heartbeatAgrees (s : State) (t : Nat) : Bool := decide (now s ≤ t + 1 ∧ t ≤ now s + 1) && (s.ch.good = 0 || s.ch.agree)

/-- What a slave does with a heartbeat sent at a tick. -/
def heartbeatTaken (s : State) (t : Nat) : State :=
  if s.ch.good = 0 then { s with ch := { s.ch with good := 1, agree := heartbeatAgrees s t } }
  else takeHeartbeat { s with ch := { s.ch with good := 2, agree := heartbeatAgrees s t } } t (heartbeatAgrees s t)

/-- A heartbeat of the chain that a slave is locked to, while its heartbeats have not yet come two in a row. -/
theorem heartbeatFrame_locked {f : Frame} (hslave : isSlave s = true) (hvalid : f.valid = true) (hty : f.ty = 0)
    (hlock : (redrive (advance s dt) f).rf.lock = .locked) (hactive : (redrive (advance s dt) f).rf.active = some .chain)
    (hhb : (redrive (advance s dt) f).ch.hb = false) :
    execHeartbeatFrame dt f s = .next (heartbeatTaken (redrive (advance s dt) f) (f.tb + Config.hopDelay)) := by
  rw [execHeartbeatFrame]
  dsimp only
  rw [if_neg (by simp [hslave]), if_neg (by simp [hvalid, hty]), if_pos ⟨hlock, hactive, by simp [hhb]⟩]
  unfold heartbeatTaken
  split <;> rfl

/-- Settles O19: each command passes its checks in turn, and each frame acts under the conditions that its clause names. -/
theorem chainComplete : Obligations.ChainComplete := by
  refine ⟨?shown, ?role, ?slave, ?cal, ?group, ?ungroup, ?heartbeat, ?frame, ?first, ?second, ?start, ?calFrame, ?lostClock, ?lost, ?load⟩
  case shown =>
    rintro h s _ rfl hrole
    exact replies_of_noram rfl (by
      dsimp only
      rw [hrole]
      rfl)
  case role =>
    rintro h r force s _ rfl hr
    cases r with
    | slave => exact absurd rfl hr
    | off => exact replies_of_noram rfl rfl
    | master => exact replies_of_noram rfl rfl
  case slave =>
    rintro h force s _ rfl huse hrest
    exact awaits_of_noram rfl (by
      rw [if_neg (by simp [huse]), need_ok _ _ (by rcases hrest with h | h <;> simp [h]), res_bind_ok])
  case cal =>
    rintro h s _ rfl hmaster hrest
    exact awaits_of_noram rfl (by
      rw [need_ok _ _ (by simp [hmaster, hrest]), res_bind_ok])
  case group =>
    rintro h g s _ rfl hlow hhigh hfree
    exact chainGroup_replies hlow hhigh hfree true
  case ungroup =>
    rintro h g s _ rfl hlow hhigh hfree
    exact chainGroup_replies hlow hhigh hfree false
  case heartbeat =>
    rintro dt s _ rfl hmaster hrun hj4 htime hdue
    change execChainFrameSend dt s = _
    rw [advance_run] at hrun
    rw [execChainFrameSend]
    dsimp only
    rw [if_neg (by simp [hmaster, hrun, show j4Ok (advance s dt) = true from hj4, htime]), show (advance s dt).ch.due = _ from hdue]
    dsimp only
    rw [sendFrame, if_pos (by exact hj4)]
  case frame =>
    rintro dt s _ f r rfl hmaster hrun hj4 htime hdue
    change execChainFrameSend dt s = _
    rw [advance_run] at hrun
    rw [execChainFrameSend]
    dsimp only
    rw [if_neg (by simp [hmaster, hrun, show j4Ok (advance s dt) = true from hj4, htime]), show (advance s dt).ch.due = _ from hdue]
    dsimp only
    rw [sendFrame, if_pos (by exact hj4)]
  case first =>
    rintro dt f s _ rfl hslave hvalid hty hlock hactive hhb hgood
    change execHeartbeatFrame dt f s = _
    rw [heartbeatFrame_locked hslave hvalid hty hlock hactive hhb, heartbeatTaken, if_pos hgood]
    simp [heartbeatAgrees, hgood]
  case second =>
    rintro dt f s _ a rfl hslave hvalid hty hlock hactive hhb hgood ha
    change execHeartbeatFrame dt f s = _
    have hagrees : heartbeatAgrees (redrive (advance s dt) f) (f.tb + Config.hopDelay) = a := by simp [heartbeatAgrees, hgood, ha]
    rw [heartbeatFrame_locked hslave hvalid hty hlock hactive hhb, heartbeatTaken, if_neg hgood, hagrees]
  case start =>
    rintro dt f s _ rfl hslave hvalid hty hgroup
    change execGroupStartFrame dt f s = _
    simp only [execGroupStartFrame, isSlave_advance, hslave, hvalid, hty, Bool.not_true, Bool.false_eq_true, ne_eq, not_true, or_self, if_false, hgroup,
      if_true]
  case calFrame =>
    rintro dt f s _ rfl hvalid hty hmaster hjob
    change execCalibrationFrame dt f s = _
    have hjob' : hasJob (advance s dt) (fun j => j == .cal) = true := hjob
    simp only [execCalibrationFrame, hvalid, hty, Bool.not_true, Bool.false_eq_true, ne_eq, not_true, or_self, if_false, advance_nv, hmaster, if_true,
      hjob', advance_ch]
  case lostClock =>
    rintro dt lane s _ rfl hslave hlane hlock hactive
    change execChainLost dt lane s = _
    rw [execChainLost]
    dsimp only
    rw [if_neg (by simp [hslave]), if_pos ⟨hlane, hlock, hactive⟩]
  case lost =>
    rintro dt s _ rfl hslave
    change execChainLost dt 0 s = _
    rw [execChainLost]
    dsimp only
    rw [if_neg (by simp [hslave]), if_neg (by simp)]
  case load =>
    rintro dt s _ x rfl hdefer hrest
    change execChainTbLoad dt s = _
    simp only [execChainTbLoad, advance_ch, hdefer, hrest, Bool.false_eq_true, if_false]

end Sys2Proof
end

section
/-! The ALU rows and the port actions of a step (chapter 9). -/

namespace Sys2Proof.Machine

/-- A thread with nothing to wait for ends no wait. -/
theorem endWait_of_idle (h : (getDk s d).thr.wait = none) : endWait s d = s := by simp [endWait, h]

/-- A part of a step that a thread may take, in no fence and with nothing to wait for, performs its action. -/
theorem microPart_atPart {d : Fin 8} (hat : AtPart dt d s n) (act : State → State) : microPart dt d n s act = .next (act (advance s dt)) := by
  have hend : endWait (advance s dt) d = advance s dt := endWait_of_idle hat.idle
  unfold microPart
  dsimp only
  rw [getDk_advance, hat.idle, hat.run, hat.inside, hat.ready]
  dsimp only
  rw [hend]
  rfl

/-- A row of the ALU table with defined selectors applies its operation. -/
theorem aluRow_atPart {d : Fin 8} (hop : aluOf code = some op) (hat : AtPart dt d s (AluF.nword code f)) (hasel : f.asel ≤ 27)
    (hbsel : f.bsel ≤ 27) (hdsel : f.dsel ≤ 22) :
    aluRow dt d code f s =
      .next (aluPart (advance s dt) d op (source (advance s dt) (getDk s d) f.imm f.k16 f.asel)
        (source (advance s dt) (getDk s d) f.imm f.k16 f.bsel) (getDk s d).thr.c f false none).1 := by
  refine (microPart_atPart hat _).trans ?_
  dsimp only
  rw [if_pos ⟨hasel, hbsel, hdsel⟩, hop, getDk_advance]
  rfl

/-- An instruction that executes as a row of the table runs that row's operation. -/
theorem aluRowRuns_of_row {c : Nat → Fin 8 → AluF → Instr} (hop : aluOf code = some op)
    (hrow : ∀ dt d f s, exec (c dt d f) s = aluRow dt d code f s) : AluRowRuns c code op := fun dt d f s hat hasel hbsel hdsel =>
  (hrow dt d f s).trans (aluRow_atPart hop hat hasel hbsel hdsel)

end Sys2Proof.Machine

namespace Sys2Proof

open Machine

/-- Settles O21: each instruction is its row of the table, and a row that may be taken applies the operation of its code. -/
theorem aluOperationsComplete : Obligations.AluOperationsComplete := by
  refine ⟨?nop, ?pass, ?add, ?adc, ?sub, ?sbc, ?and, ?or, ?xor, ?andn, ?shl, ?shr, ?asr, ?ror, ?cmp, ?tst, ?min, ?max, ?clz, ?popc⟩
  all_goals exact aluRowRuns_of_row rfl fun _ _ _ _ => rfl

end Sys2Proof

namespace Sys2Proof.Machine

/-- A row of the port table that may be taken performs its port action. -/
theorem portRow_atPart {d : Fin 8} (hat : AtPart dt d s n) (a : BitVec 32) :
    portRow dt d n a s = .next (portPart (advance s dt) d n a (if (getDk s d).thr.cust then some (getDk s d).thr.upc else none)).1 :=
  microPart_atPart hat _

/-- Below 32 KiB, the thread pad of a deckle is where its MAR points in space 1. -/
theorem portAddr_threadPad (k : Deckle) (h : mar.toNat / 4 * 4 < 2 ^ 15) : portAddr k d 1 bank mar = some (1, d * 2 ^ 15 + mar.toNat / 4 * 4) :=
  if_pos h

theorem portRead_threadPad (h : (getDk s d).thr.mar.toNat / 4 * 4 < 2 ^ 15) :
    (portRead s d 1 bank ua).1 =
      modThr s d (fun t => { t with mdr := BitVec.ofNat 32 (mnum s.tpad (d * 2 ^ 15 + (getDk s d).thr.mar.toNat / 4 * 4) 4) }) := by
  simp only [portRead, portAddr_threadPad _ h]
  rfl

theorem portWrite_threadPad (h : (getDk s d).thr.mar.toNat / 4 * 4 < 2 ^ 15) :
    portWrite s d 1 bank =
      { s with tpad := mputNum s.tpad (d * 2 ^ 15 + (getDk s d).thr.mar.toNat / 4 * 4) 4 (getDk s d).thr.mdr.toNat } := by
  simp only [portWrite, portAddr_threadPad _ h]

theorem queuePop_result (hlow : 48 ≤ q) (hhigh : q ≤ 95) (hring : tget (getDk s d).res.rings (q - 48) [] = x :: l) :
    queuePop s d q =
      modRes (modThr s d (fun t => { t with qin := x, qe := false })) d (fun z => { z with rings := tset z.rings (q - 48) l }) := by
  simp only [queuePop, if_pos (show 48 ≤ q ∧ q ≤ 95 from ⟨hlow, hhigh⟩), hring]

theorem queuePush_broke :
    queuePush s d (112 + d) =
      pushBroke s d { tb := now s, kind := 4, rqn := (getDk s d).seq.nextD, seg := (getDk s d).seq.segpos, fail := (getDk s d).thr.mdr.toNat } :=
  if_pos rfl

theorem queuePush_capture :
    queuePush s d (120 + d) = pushCapture s d { rqn := (getDk s d).seq.nextD, flags := 2, hi := (getDk s d).thr.mdr.toNat } :=
  (if_neg (by omega)).trans (if_pos rfl)

theorem shwr_inside (hin : ((getDk s d).thr.reg p).toNat < patternSize (getDk s d).act (getDk s d).width) :
    shwr s d p r whdr k16 pmask =
      writeSheet s d (getDk s d).act ((getDk s d).thr.reg p).toNat (((getDk s d).thr.reg r).toNat % 32)
        (shwrWord (getDk s d)
          (mnum s.vat (sheetAddr (getDk s d).act (getDk s d).width ((getDk s d).thr.reg p).toNat (((getDk s d).thr.reg r).toNat % 32))
            ((getDk s d).width / 8))
          (((getDk s d).thr.reg r).toNat / 256 % 16) pmask (if whdr then some (k16 % 256) else none)) :=
  if_pos hin

/-! The fields of PARG, read from the word that an instruction builds. -/

theorem p_of_parg {n : NWord} (h : n.parg = x) (hi lo : Nat) : n.p hi lo = x / 2 ^ (lo - 64) % 2 ^ (hi - lo + 1) := by rw [NWord.p, h]

theorem p_space {n : NWord} (c : Fin 4) (b : Fin 64) (h : n.parg = pfield 90 c + pfield 84 b) : n.p 91 90 = c ∧ n.p 89 84 = b := by
  simp only [p_of_parg h, pfield]
  omega

theorem p_event {n : NWord} (c : Fin 4) (x : Fin 256) (h : n.parg = pfield 90 c + pfield 82 x) : n.p 91 90 = c ∧ n.p 89 82 = x := by
  simp only [p_of_parg h, pfield]
  omega

theorem p_disp {n : NWord} (cont : Bool) (p r : Fin 16) (h : n.parg = pfield 91 (if cont = true then 1 else 0) + pfield 87 p + pfield 83 r) :
    n.p 91 91 = (if cont = true then 1 else 0) ∧ n.p 90 87 = p ∧ n.p 86 83 = r := by
  simp only [p_of_parg h, pfield]
  split <;> omega

theorem p_queue {n : NWord} (q : Fin 128) (h : n.parg = pfield 84 q) : n.p 90 84 = q := by
  simp only [p_of_parg h, pfield]
  omega

theorem p_seqctl {n : NWord} (sub m : Fin 8) (h : n.parg = pfield 89 sub + pfield 86 m) : n.p 91 89 = sub ∧ n.p 88 86 = m := by
  simp only [p_of_parg h, pfield]
  omega

theorem p_shwr {n : NWord} (p r : Fin 16) (whdr : Bool)
    (h : n.parg = pfield 87 p + pfield 83 r + pfield 82 (if whdr = true then 1 else 0)) :
    n.p 90 87 = p ∧ n.p 86 83 = r ∧ n.p 82 82 = (if whdr = true then 1 else 0) := by
  simp only [p_of_parg h, pfield]
  split <;> omega

end Sys2Proof.Machine

namespace Sys2Proof

open Machine

/-- Settles O22: each instruction is its row of the port table, whose fields are those of the word it builds. -/
theorem portActionsComplete : Obligations.PortActionsComplete := by
  refine ⟨?mrd, ?mwr, ?disp, ?qpop, ?broke, ?capture, ?event, ?tsel, ?mark, ?halt, ?tbset, ?shwr, ?stew⟩
  case mrd =>
    rintro dt d b s _ _ rfl rfl hat hpad
    have ⟨hspace, _⟩ := p_space (n := { pclass := 1, parg := pfield 90 1 + pfield 84 b }) 1 b rfl
    refine (portRow_atPart hat 0).trans (congrArg Host.Outcome.next ?_)
    dsimp only [portPart]
    rw [hspace]
    exact portRead_threadPad hpad
  case mwr =>
    rintro dt d b s _ _ rfl rfl hat hpad
    have ⟨hspace, _⟩ := p_space (n := { pclass := 2, parg := pfield 90 1 + pfield 84 b }) 1 b rfl
    refine (portRow_atPart hat 0).trans (congrArg Host.Outcome.next ?_)
    dsimp only [portPart]
    rw [hspace]
    exact portWrite_threadPad hpad
  case disp =>
    rintro dt d cont p n s _ _ rfl rfl hat
    have ⟨hcont, hpa, hn⟩ :=
      p_disp (n := { pclass := 3, parg := pfield 91 (if cont = true then 1 else 0) + pfield 87 p + pfield 83 n }) cont p n rfl
    refine (portRow_atPart hat 0).trans (congrArg Host.Outcome.next ?_)
    dsimp only [portPart]
    rw [hcont, hpa, hn]
    cases cont <;> rfl
  case qpop =>
    rintro dt d q s _ _ x l rfl rfl hat hlow hhigh hring
    refine (portRow_atPart hat 0).trans (congrArg Host.Outcome.next ?_)
    dsimp only [portPart]
    rw [p_queue q rfl]
    exact queuePop_result hlow hhigh hring
  case broke =>
    rintro dt d q s _ _ rfl rfl hat hq
    refine (portRow_atPart hat 0).trans (congrArg Host.Outcome.next ?_)
    dsimp only [portPart]
    rw [p_queue q rfl, hq]
    exact queuePush_broke
  case capture =>
    rintro dt d q s _ _ rfl rfl hat hq
    refine (portRow_atPart hat 0).trans (congrArg Host.Outcome.next ?_)
    dsimp only [portPart]
    rw [p_queue q rfl, hq]
    exact queuePush_capture
  case event =>
    rintro dt d c x s _ _ rfl rfl hat
    have ⟨hc, hx⟩ := p_event (n := { pclass := 7, parg := pfield 90 c + pfield 82 x }) c x rfl
    refine (portRow_atPart hat 0).trans (congrArg Host.Outcome.next ?_)
    dsimp only [portPart]
    rw [hc, hx]
    rfl
  case tsel =>
    rintro dt d a s _ rfl hat
    exact portRow_atPart hat a
  case mark =>
    rintro dt d m a s _ rfl hat
    have ⟨hsub, hm⟩ := p_seqctl (n := { pclass := 8, parg := pfield 89 1 + pfield 86 m }) 1 m rfl
    refine (portRow_atPart hat a).trans (congrArg Host.Outcome.next ?_)
    dsimp only [portPart]
    rw [hsub, hm]
    rfl
  case halt =>
    rintro dt d s _ rfl hat
    exact portRow_atPart hat 0
  case tbset =>
    rintro dt d a s _ rfl hat
    exact portRow_atPart hat a
  case shwr =>
    rintro dt d p r whdr k16 pmask s _ _ x rfl rfl hat hin rfl
    have ⟨hp, hr, hwhdr⟩ :=
      p_shwr (n := { pclass := 10, parg := pfield 87 p + pfield 83 r + pfield 82 (if whdr = true then 1 else 0),
                     k16 := k16.toNat, pmask := pmask.toNat }) p r whdr rfl
    refine (portRow_atPart hat 0).trans (congrArg Host.Outcome.next ?_)
    dsimp only [portPart]
    rw [hp, hr, hwhdr]
    refine (shwr_inside (s := advance s dt) hin).trans ?_
    cases whdr <;> rfl
  case stew =>
    rintro dt d a s _ rfl hat
    exact portRow_atPart hat 0

end Sys2Proof
end

section
/-! Writes to the instrument registers (chapters 9 and 15 to 18). -/

namespace Sys2Proof.Machine

/-- A write that may be taken performs its action. -/
theorem regRow_atPart {d : Fin 8} (hat : AtPart dt d s { pclass := 6, parg := pfield 86 u + pfield 78 r }) (act : State → State) :
    regRow dt d u r s act = .next (act (advance s dt)) := microPart_atPart hat act

theorem writeReg_target (hn : n ≤ 3) (hg : (getDk s d).grant.dps.contains n = true) : writeReg s d n 0 v = writeTarget s d n v.toNat := by
  simp only [writeReg, unitOut, if_pos hn, hg]
  rfl

theorem writeReg_ffofs (hn : n ≤ 3) (hg : (getDk s d).grant.dps.contains n = true) :
    writeReg s d n 4 v = modDps s n (fun p => { p with ffNext := some (v.toNat % 4096) }) := by
  simp only [writeReg, unitOut, if_pos hn, hg]
  rfl

theorem writeReg_play {n : Fin 2} (hg : (getDk s d).grant.aux.contains n.val = true) (hlive : (getDk s d).st.live = true)
    (hon : (getAux s n).st ≠ .off) (hcmd : (tget (getDk s d).act.aux n {}).start = .cmd) (hpress : pressList s d n = false) :
    writeReg s d (4 + n) 0 v = auxStartAt s n (ceilTo (now s + 16) 4) := by
  simp only [writeReg, unitOut, if_neg (show ¬4 + n.val ≤ 3 by omega), if_pos (show 4 + n.val ≤ 5 by omega), Nat.add_sub_cancel_left, hg,
    writePlay, hlive, bne_iff_ne.mpr hon, hcmd, hpress]
  rfl

theorem writeReg_auxHalt {n : Fin 2} (hg : (getDk s d).grant.aux.contains n.val = true) (hlive : (getDk s d).st.live = true) :
    writeReg s d (4 + n) 1 v = auxHaltAt s n (ceilTo (now s + 16) 4) := by
  simp only [writeReg, unitOut, if_neg (show ¬4 + n.val ≤ 3 by omega), if_pos (show 4 + n.val ≤ 5 by omega), Nat.add_sub_cancel_left, hg,
    writeAuxHalt, hlive]
  rfl

theorem writeReg_adcStart {n : Fin 8} (hg : (getDk s d).grant.adc.contains n.val = true) (hrun : (getDk s d).st = .running)
    (hcmd : (tget (getDk s d).act.adc n {}).trig = .cmd) : writeReg s d (8 + n) 0 v = adcStartAt s n (now s + 16) := by
  simp only [writeReg, unitOut, if_neg (show ¬8 + n.val ≤ 3 by omega), if_neg (show ¬8 + n.val ≤ 5 by omega),
    if_neg (show ¬8 + n.val < 8 by omega), if_pos (show 8 + n.val ≤ 15 by omega), Nat.add_sub_cancel_left, hg, writeAdcStart, hrun, hcmd]
  rfl

/-- A register 0 or 1 of a measurement unit that the deckle holds is inside its fence. -/
theorem unitOut_tmu {n : Fin 4} {c : FenceCtx} (hg : c.g.tmu.contains n.val = true) (hr : r = 0 ∨ r = 1) : unitOut c (16 + n) r = false := by
  simp only [unitOut, if_neg (show ¬16 + n.val ≤ 3 by omega), if_neg (show ¬16 + n.val ≤ 5 by omega),
    if_neg (show ¬16 + n.val < 8 by omega), if_neg (show ¬16 + n.val ≤ 15 by omega), if_pos (show 16 + n.val ≤ 19 by omega),
    Nat.add_sub_cancel_left, hg]
  rcases hr with rfl | rfl <;> rfl

theorem writeReg_tmuStart {n : Fin 4} (hg : (getDk s d).grant.tmu.contains n.val = true) (hrun : (getDk s d).st = .running)
    (hcmd : (tget (getDk s d).act.tmu n {}).trig = .cmd) : writeReg s d (16 + n) 0 v = tmuStartAt s d n (now s + 16) := by
  rw [writeReg, unitOut_tmu hg (.inl rfl)]
  simp only [if_neg (show ¬16 + n.val ≤ 3 by omega), if_neg (show ¬16 + n.val ≤ 5 by omega), if_neg (show ¬16 + n.val ≤ 15 by omega),
    Nat.add_sub_cancel_left, writeTmuStart, hrun, hcmd]
  rfl

theorem writeReg_tmuHalt {n : Fin 4} (hg : (getDk s d).grant.tmu.contains n.val = true) (hlive : (getDk s d).st.live = true) :
    writeReg s d (16 + n) 1 v = tmuHaltNow s n := by
  rw [writeReg, unitOut_tmu hg (.inr rfl)]
  simp only [if_neg (show ¬16 + n.val ≤ 3 by omega), if_neg (show ¬16 + n.val ≤ 5 by omega), if_neg (show ¬16 + n.val ≤ 15 by omega),
    Nat.add_sub_cancel_left, hlive]
  rfl

theorem p_register {n : NWord} (u : Fin 32) (r : Fin 256) (h : n.parg = pfield 86 u + pfield 78 r) : n.p 90 86 = u ∧ n.p 85 78 = r := by
  simp only [p_of_parg h, pfield]
  omega

/-- A register outside the fence is the first check that a write of a customer step fails. -/
theorem partFence_unit {n : NWord} (hcust : k.thr.cust = true) (hclass : n.pclass = 6)
    (hout : unitOut (runCtx k d []) (n.p 90 86) (n.p 85 78) = true) : partFence k d n = some "FENCE-UNIT" := by
  have hnano : inSliceN (runCtx k d []).d (sliceN d) = true := by simp [inSliceN, runCtx]
  simp only [partFence, hcust, if_true, fence, hnano, hclass, hout]
  simp [runCtx]

/-- A part of a customer step that fails a check of its fence is a machine check with that cause. -/
theorem microPart_fenced {d : Fin 8} (hrun : threadOk (advance s dt) (getDk s d) = true) (hidle : (getDk s d).thr.wait = none)
    (hfence : partFence (getDk s d) d n = some c) (act : State → State) :
    microPart dt d n s act =
      .next (customerCheck (advance s dt) d c (getDk s d).thr.upc (readU (advance s dt) (getDk s d).thr.upc).nano) := by
  unfold microPart
  dsimp only
  rw [getDk_advance, hidle, hrun, hfence]
  rfl

end Sys2Proof.Machine

namespace Sys2Proof

open Machine

/-- Settles O29: a write inside the fence acts as `writeReg` does on its register, and one outside it fails the unit check. -/
theorem instrumentRegistersComplete : Obligations.InstrumentRegistersComplete := by
  refine ⟨?target, ?ffofs, ?play, ?auxHalt, ?adcStart, ?tmuStart, ?tmuHalt, ?other⟩
  case target =>
    rintro dt d n v s _ rfl hg hat
    refine (regRow_atPart hat fun s => writeReg s d n 0 v).trans (congrArg Host.Outcome.next ?_)
    exact writeReg_target (s := advance s dt) (by omega) hg
  case ffofs =>
    rintro dt d n v s _ rfl hg hat
    refine (regRow_atPart hat fun s => writeReg s d n 4 v).trans (congrArg Host.Outcome.next ?_)
    exact writeReg_ffofs (s := advance s dt) (by omega) hg
  case play =>
    rintro dt d n v s _ _ rfl rfl hg hat hlive hon hcmd hpress
    refine (regRow_atPart hat fun s => writeReg s d (4 + n.val) 0 v).trans (congrArg Host.Outcome.next ?_)
    exact writeReg_play (s := advance s dt) hg hlive hon hcmd hpress
  case auxHalt =>
    rintro dt d n v s _ _ rfl rfl hg hat hlive
    refine (regRow_atPart hat fun s => writeReg s d (4 + n.val) 1 v).trans (congrArg Host.Outcome.next ?_)
    exact writeReg_auxHalt (s := advance s dt) hg hlive
  case adcStart =>
    rintro dt d n v s _ _ rfl rfl hg hat hrun hcmd
    refine (regRow_atPart hat fun s => writeReg s d (8 + n.val) 0 v).trans (congrArg Host.Outcome.next ?_)
    exact writeReg_adcStart (s := advance s dt) hg hrun hcmd
  case tmuStart =>
    rintro dt d n v s _ _ rfl rfl hg hat hrun hcmd
    refine (regRow_atPart hat fun s => writeReg s d (16 + n.val) 0 v).trans (congrArg Host.Outcome.next ?_)
    exact writeReg_tmuStart (s := advance s dt) hg hrun hcmd
  case tmuHalt =>
    rintro dt d n v s _ _ rfl rfl hg hat hlive
    refine (regRow_atPart hat fun s => writeReg s d (16 + n.val) 1 v).trans (congrArg Host.Outcome.next ?_)
    exact writeReg_tmuHalt (s := advance s dt) hg hlive
  case other =>
    rintro dt d u r s _ _ rfl rfl hrun hidle hcust hout
    have ⟨hu, hr⟩ := p_register (n := { pclass := 6, parg := pfield 86 u + pfield 78 r }) u r rfl
    exact microPart_fenced hrun hidle (partFence_unit hcust rfl (by rw [hu, hr]; exact hout)) fun s => writeReg s d u r (getDk s d).thr.mdr

end Sys2Proof
end

section
/-! The DPS and LEARN commands, the control period and the events of the supplies (chapter 15). -/

namespace Sys2Proof

open Machine

/-- Outside a run a supply has no feed-forward and no loop that learns. -/
theorem feedForward_of_still (hst : (getDk s d).st ≠ .running) : feedForward s d n x q = (0, none) := by
  cases q with
  | none => rfl
  | some q => exact if_pos (by simp [hst])

@[simp] theorem holder_modDps (s : State) (n : Nat) (f : Dps → Dps) (k : UKind) (u : Nat) : holder (modDps s n f) k u = holder s k u := rfl

/-- A fault of a supply faults the deckle that holds it. -/
theorem dpsFault_held (hd : holder s .dps n = some d) :
    dpsFault s n hot cause =
      keep (detect (modDps s n (fun x => { dpsRest s x with hot := x.hot || hot })) d .dps [kw "CAUSE" cause, kv "DPS" (unitName .dps n)]) := by
  simp only [dpsFault, holder_modDps, hd]

theorem mem_of_mem_numbered {l : List α} (he : e ∈ numbered p l) : e.2 ∈ l := by
  induction l generalizing p with
  | nil => simp [numbered] at he
  | cons x l ih =>
    rcases List.mem_cons.mp he with rfl | he
    · exact .head l
    · exact .tail x (ih he)

/-- The fields of LEARN are GAIN, QA and QF alone. -/
theorem learnFields_ok {f : List Fld} (hf : ∀ x ∈ f, x.key = "GAIN" ∨ x.key = "QA" ∨ x.key = "QF") :
    (numbered 3 f).find? (fun e => !(["GAIN", "QA", "QF"].contains e.2.key)) = none := by
  rw [List.find?_eq_none]
  intro e he
  have hkey := hf e.2 (mem_of_mem_numbered he)
  rcases hkey with hkey | hkey | hkey <;> simp [hkey]

/-- Settles O23: a command's hypotheses are its checks in turn; a control period outside a run has no feed-forward. -/
theorem dpsCommandsComplete : Obligations.DpsCommandsComplete := by
  refine ⟨?fields, ?matrix, ?fftable, ?shown, ?target, ?ffofs, ?read, ?learn, ?learnRead, ?load, ?clear, ?period, ?ov, ?hot, ?limit, ?dwell⟩
  case fields =>
    rintro h n f g s _ d r t rfl hfold hf hd hedit
    exact replies_of_noram rfl (by
      dsimp only
      rw [hfold, res_bind_ok, need_ok _ _ (by simp [hf]), res_bind_ok, hd, res_bind_ok, hedit]
      rfl)
  case matrix =>
    rintro h n m v x s _ d r t rfl hm hx hv hlen hd hedit
    exact replies_of_noram rfl (by
      dsimp only
      rw [need_ok _ _ hm, res_bind_ok, hx, res_bind_ok, need_ok _ _ (by simp [hv]), res_bind_ok, need_ok _ _ (decide_eq_true hlen),
        res_bind_ok, hd, res_bind_ok, hedit]
      rfl)
  case fftable =>
    rintro h n i b p s _ d r t rfl hB hn hi hlen hfit hd hedit
    exact repliesBlk_of_noramBlk rfl hB (by rw [hn, res_bind_ok, need_ok _ _ (decide_eq_true hi)]) (by
      dsimp only
      rw [need_ok _ _ (decide_eq_true hfit), res_bind_ok, hd, res_bind_ok, need_ok _ _ (decide_eq_true hlen), res_bind_ok, hedit]
      rfl)
  case shown =>
    rintro h n s _ d rfl hd
    exact replies_of_noram rfl (by
      rw [hd]
      rfl)
  case target =>
    rintro h n v q s _ _ rfl rfl hn hq hheld hlive hmax
    exact replies_of_noram rfl (by
      rw [hn, res_bind_ok, runTarget]
      dsimp only
      rw [hq, res_bind_ok, hheld, res_bind_ok, if_pos hlive, need_ok _ _ (decide_eq_true hmax)]
      rfl)
  case ffofs =>
    rintro h n v q s _ _ rfl rfl hn hq hheld hlive
    exact replies_of_noram rfl (by
      rw [hn, res_bind_ok, runFfofs]
      dsimp only
      rw [hq, res_bind_ok, hheld, res_bind_ok, if_pos hlive]
      rfl)
  case read =>
    rintro h n s _ d _ rfl hd rfl hclamp hlearn hfb hremote
    exact replies_of_noram rfl (by
      dsimp only
      rw [hd, res_bind_ok, hclamp, hlearn, hfb, hremote]
      rfl)
  case learn =>
    rintro h n f g s _ d r t rfl hkeys hfold hf hd hedit
    exact replies_of_noram rfl (by
      dsimp only
      rw [learnFields_ok hkeys]
      dsimp only
      rw [hfold, res_bind_ok, need_ok _ _ (by simp [hf]), res_bind_ok, hd, res_bind_ok, hedit]
      rfl)
  case learnRead =>
    rintro h n s _ d rfl hd
    exact replies_of_noram rfl (by
      rw [hd]
      rfl)
  case load =>
    rintro h n b p s _ d rfl hB hn hlen hd hstate
    exact repliesBlk_of_noramBlk rfl hB hn (by
      rw [hd, res_bind_ok, need_ok _ _ (decide_eq_true hlen), res_bind_ok, hstate]
      rfl)
  case clear =>
    rintro h n s _ d rfl hd hstate
    exact replies_of_noram rfl (by
      rw [hd, res_bind_ok, hstate]
      rfl)
  case period =>
    rintro dt n m s _ s1 d t x c vs io u0 u xn rfl hon hrun hgrid hnew hd hs1 hst hx hc hfb hdwell hvs hio hclamp hremote hu0 hu hxn hfin
    apply Exists.intro
    change execControlPeriod dt n m s = _
    rw [execControlPeriod]
    dsimp only
    rw [gridTick, hgrid, if_neg (by rcases hnew with rfl | hnew <;> simp_all), hd, Option.getD_some, hs1, hx, hc, hfb, hdwell, hvs,
      feedForward_of_still hst]
    simp only [Option.isSome_none, Bool.false_eq_true, if_false, hio, hclamp, if_true, hu0, hu, hxn, hfin, hremote, Bool.not_true, Bool.false_and]
    exact if_neg (by decide)
  case ov =>
    rintro dt n s _ d rfl hon hd
    change execFDpsOv dt n s = _
    rw [execFDpsOv]
    exact congrArg Host.Outcome.next ((if_pos hon).trans (dpsFault_held hd))
  case hot =>
    rintro dt n s _ d rfl hon hd
    change execFDpsHot dt n s = _
    rw [execFDpsHot]
    exact congrArg Host.Outcome.next ((if_pos hon).trans (dpsFault_held hd))
  case limit =>
    rintro dt n s _ d rfl hlim hon hclamp hd
    change execDpsClampLimit dt n false s = _
    rw [execDpsClampLimit]
    rw [if_neg (by decide), if_neg (by rw [hlim, hon]; decide), hclamp, hd]
    rfl
  case dwell =>
    rintro dt n s _ t c rfl hdwell hdue
    change execDpsRangeDwellEnd dt n s = _
    rw [execDpsRangeDwellEnd, modDps]
    dsimp only
    rw [hdwell]
    dsimp only
    rw [if_pos hdue]

end Sys2Proof
end

section
/-! The AUX commands and the generators' own events (chapter 16). -/

namespace Sys2Proof

open Machine

/-- A generator with no halt to come stays as it is. -/
theorem auxSync_of_no_halt (hhalt : a.halt = none) : auxSync t a = a := by rw [auxSync, hhalt]

/-- A start that is due begins the list of an idle generator. -/
theorem auxStartDue_idle (ha : getAux s n = a) (hidle : a.st = .idle) (hhalt : a.halt = none) (hstarts : a.starts = [t]) :
    auxStartDue s n t = auxMark (setAux s n (auxBegin { a with starts := [] } t)) n := by
  have hrest : a.starts.filter (fun u => u != t) = [] := by simp [hstarts]
  rw [auxStartDue]
  rw [ha, hrest, auxSync_of_no_halt (by exact hhalt)]
  simp only [hidle, hhalt, reduceCtorEq, if_false]

/-- Settles O24: a command's hypotheses are its checks in turn, and each event acts under the conditions that its clause names. -/
theorem auxCommandsComplete : Obligations.AuxCommandsComplete := by
  refine ⟨?fields, ?entry, ?listWrite, ?listRead, ?shown, ?play, ?halt, ?read, ?start, ?boundary, ?repeated, ?ended, ?mkFall, ?dwell⟩
  case fields =>
    rintro h n f g s _ d r t rfl hfold hf hd hedit
    exact replies_of_noram rfl (by
      dsimp only
      rw [hfold, res_bind_ok, need_ok _ _ (by simp [hf]), res_bind_ok, hd, res_bind_ok]
      by_cases hcount : f.any (fun x => x.key = "COUNT") = true
      · rw [if_pos hcount] at hedit ⊢
        rw [hedit]
        rfl
      · rw [if_neg hcount] at hedit ⊢
        rw [hedit]
        rfl)
  case entry =>
    rintro h n i f s _ d _ x r t rfl hi hn rfl hfold hd hedit
    exact replies_of_noram rfl (by
      dsimp only
      rw [need_ok _ _ (decide_eq_true hi), res_bind_ok, hn, res_bind_ok, hfold, res_bind_ok, hd, res_bind_ok, hedit]
      rfl)
  case listWrite =>
    rintro h n i b p s _ d r t rfl hB hn hi hlen hfit hd hedit
    exact repliesBlk_of_noramBlk rfl hB (by rw [hn, res_bind_ok, need_ok _ _ (decide_eq_true hi)]) (by
      dsimp only
      rw [need_ok _ _ (decide_eq_true hfit), res_bind_ok, hd, res_bind_ok, need_ok _ _ (decide_eq_true hlen), res_bind_ok, hedit]
      rfl)
  case listRead =>
    rintro h n a m s _ d _ rfl hn rfl ha hlow hfit hd
    exact replies_of_noram rfl (by
      dsimp only
      rw [hn, res_bind_ok, Option.getD_some, need_ok _ _ (decide_eq_true ha), res_bind_ok, Option.getD_some,
        need_ok _ _ (decide_eq_true ⟨hlow, hfit⟩), res_bind_ok, hd]
      rfl)
  case shown =>
    rintro h n s _ d rfl hd
    exact replies_of_noram rfl (by
      rw [hd]
      rfl)
  case play =>
    rintro h n s _ _ _ rfl rfl rfl hn hheld hst hon hcmd hpress
    exact replies_of_noram rfl (by
      rw [hn, res_bind_ok, playNow]
      rw [hheld, res_bind_ok, hst, res_bind_ok, need_ok _ _ (by simp [hon, hcmd]), res_bind_ok, hpress]
      rfl)
  case halt =>
    rintro h n s _ _ _ rfl rfl rfl hn hheld hst hon
    exact replies_of_noram rfl (by
      rw [hn, res_bind_ok, haltNow]
      rw [hheld, res_bind_ok, hst, res_bind_ok, need_ok _ _ (by simp [hon])]
      rfl)
  case read =>
    rintro h n s _ _ d _ rfl rfl hd rfl
    exact replies_of_noram (exec_auxRead h n s) (auxReadBody_own hd)
  case start =>
    rintro dt n s _ t a rfl ha hidle hhalt hstarts hdue
    have hsorted : sortNat ((getAux (advance s dt) n).starts.filter (fun t => t ≤ now (advance s dt))) = [t] := by
      rw [ha, hstarts, List.filter_cons_of_pos (by simpa using hdue)]
      rfl
    change execAuxStartTick dt n s = _
    rw [execAuxStartTick, hsorted, forEach, List.foldl_cons, List.foldl_nil, auxStartDue_idle ha hidle hhalt hstarts]
  case boundary =>
    rintro dt n s _ _ rfl rfl hplay hrun hend hmore
    exact congrArg Host.Outcome.next (if_pos ⟨hplay, hrun, hend, hmore⟩)
  case repeated =>
    rintro dt n s _ _ rfl rfl hplay hrun hend hlast hrpt
    exact congrArg Host.Outcome.next ((if_pos ⟨hplay, hrun, hend, hlast⟩).trans (if_pos hrpt))
  case ended =>
    rintro dt n s _ _ d rfl rfl hplay hrun hend hlast hrpt hd
    refine congrArg Host.Outcome.next ((if_pos ⟨hplay, hrun, hend, hlast⟩).trans ((if_neg hrpt).trans ?_))
    dsimp only
    rw [show ∀ x, holder (setAux (modAux (advance s dt) n (auxSync (now (advance s dt)))) n x) .aux n = some d from fun _ => hd]
  case mkFall =>
    rintro dt n s _ l rfl hl
    change execMkFall dt n s = _
    rw [execMkFall]
    dsimp only
    rw [lineLeft, hl]
    rfl
  case dwell =>
    rintro dt n s _ t c _ rfl rfl hdwell hdue
    change execAuxSpanDwellEnd dt n s = _
    rw [execAuxSpanDwellEnd, modAux]
    dsimp only
    rw [hdwell]
    dsimp only
    rw [if_pos hdue]

end Sys2Proof
end

section
/-! The ADC commands, scan starts and conversions (chapter 17). -/

namespace Sys2Proof

open Machine

@[simp] theorem holder_modAdc (s : State) (n : Nat) (f : Adc → Adc) (k : UKind) (u : Nat) : holder (modAdc s n f) k u = holder s k u := rfl
@[simp] theorem getDk_modAdc (s : State) (n : Nat) (f : Adc → Adc) (d : Nat) : getDk (modAdc s n f) d = getDk s d := rfl

/-- A start that is due begins a scan of a converter that is not busy. -/
theorem adcStartDue_idle (ha : getAdc s n = a) (hstarts : a.starts = [t]) (hbusy : a.busy = false) (hd : holder s .adc n = some d) :
    adcStartDue s n t =
      setAdc (modAdc s n (fun a => { a with starts := [] })) n (adcBegin (tget (getDk s d).act.adc n {}) t { a with starts := [] }) := by
  have hrest : a.starts.filter (fun u => u != t) = [] := by simp [hstarts]
  have hmod : modAdc s n (fun a => { a with starts := a.starts.filter (fun u => u != t) }) = modAdc s n (fun a => { a with starts := [] }) := by
    rw [modAdc, modAdc, ha, hrest]
  rw [adcStartDue, hmod]
  simp only [getAdc_modAdc_same, ha, hbusy, Bool.false_eq_true, if_false, holder_modAdc, hd, getDk_modAdc]

/-- A record goes to the end of a store with room. -/
theorem adcStore_room {a : Adc} (hroom : a.store.length < 8192) (hlost : a.lostF = false) :
    adcStore a r = ({ a with store := a.store ++ [r] }, false) := by
  rw [adcStore, if_neg (Nat.not_le.mpr hroom), hlost]
  cases a
  cases hlost
  rfl

/-- Settles O25: a command's hypotheses are its checks in turn, and each event acts under the conditions that its clause names. -/
theorem adcCommandsComplete : Obligations.AdcCommandsComplete := by
  refine ⟨?fields, ?entry, ?sources, ?shown, ?start, ?results, ?read, ?status, ?timer, ?scan, ?conversion⟩
  case fields =>
    rintro h n f g s _ d r t rfl hfold hf hd hedit
    exact replies_of_noram rfl (by
      dsimp only
      rw [hfold, res_bind_ok, need_ok _ _ (by simp [hf]), res_bind_ok, hd, res_bind_ok, hedit]
      rfl)
  case entry =>
    rintro h n i f s _ d x r t rfl hi hn hsrc hfold hd hedit
    exact replies_of_noram rfl (by
      dsimp only
      rw [need_ok _ _ (decide_eq_true hi), res_bind_ok, hn, res_bind_ok, need_ok _ _ hsrc, res_bind_ok, hfold, res_bind_ok, hd, res_bind_ok,
        hedit]
      rfl)
  case sources =>
    rintro h s _ _ _ rfl rfl rfl
    exact replies_of_noram rfl rfl
  case shown =>
    rintro h n s _ d rfl hd
    exact replies_of_noram rfl (by
      rw [hd]
      rfl)
  case start =>
    rintro h n s _ _ _ rfl rfl rfl hn hheld hst hcmd
    exact replies_of_noram rfl (by
      rw [hn, res_bind_ok, adcStartNow, hheld, res_bind_ok, hst, res_bind_ok, need_ok _ _ (decide_eq_true hcmd)]
      rfl)
  case results =>
    rintro h n k m s _ d _ rfl hn rfl hm hd hst
    exact replies_of_noram rfl (by
      dsimp only
      rw [hn, res_bind_ok, hm, res_bind_ok, hd, res_bind_ok, hst]
      rfl)
  case read =>
    rintro h n k m s _ d _ rfl hn rfl hm hd hst
    exact replies_of_noram rfl (by
      dsimp only
      rw [hn, res_bind_ok, hm, res_bind_ok, hd, res_bind_ok, hst]
      rfl)
  case status =>
    rintro h n s _ d _ rfl hd rfl
    exact replies_of_noram rfl (by
      rw [hd]
      rfl)
  case timer =>
    rintro dt n s _ t d _ _ rfl htimer hd rfl rfl hrun htrig hdue
    change execAdcTimerTick dt n s = _
    rw [execAdcTimerTick]
    dsimp only
    rw [htimer, hd]
    exact if_pos ⟨hrun, htrig, hdue⟩
  case scan =>
    rintro dt n s _ t d a rfl ha hstarts hdue hbusy hd
    have hsorted : sortNat ((getAdc (advance s dt) n).starts.filter (fun t => t ≤ now (advance s dt))) = [t] := by
      rw [ha, hstarts, List.filter_cons_of_pos (by simpa using hdue)]
      rfl
    change execAdcScanStart dt n s = _
    rw [execAdcScanStart, hsorted, forEach, List.foldl_cons, List.foldl_nil, adcStartDue_idle ha hstarts hbusy hd]
  case conversion =>
    rintro dt n m s _ d a e fs c rfl ha hd hbusy hrun hdue he hfs hc hbo hshared hroom hlost
    change execAdcConversionDone dt n m s = _
    rw [execAdcConversionDone]
    dsimp only
    rw [ha, hd]
    dsimp only
    rw [if_neg (by rw [hbusy, hrun]; simpa using hdue), he, hfs, hc, hshared, hbo]
    simp only [Bool.false_and, Bool.or_false, Bool.false_eq_true, if_false, List.any_nil, adcStore_room hroom hlost, Nat.zero_add, Nat.add_zero]

end Sys2Proof
end

section
/-! The TMU commands and the measuring events (chapter 18). -/

namespace Sys2Proof

open Machine

/-- A stop edge after the holdoff is not too soon. -/
theorem tooSoon_of_later {c : TmuCfg} (hlater : a + c.holdoff < t) : tooSoon c a t = false := by
  rw [tooSoon, decide_eq_false (by omega), decide_eq_false (show ¬t = a + c.holdoff by omega)]
  rfl

/-- Settles O26: a command's hypotheses are its checks in turn, and each event acts under the conditions that its clause names. -/
theorem tmuCommandsComplete : Obligations.TmuCommandsComplete := by
  refine ⟨?fields, ?shown, ?start, ?halt, ?clear, ?stat, ?results, ?read, ?status, ?startEdge, ?stopEdge, ?timeout, ?stamp, ?gate, ?lock, ?relock⟩
  case fields =>
    rintro h n f g s _ d r t rfl hfold hf hd hedit
    exact replies_of_noram rfl (by
      dsimp only
      rw [hfold, res_bind_ok, need_ok _ _ (by simp [hf]), res_bind_ok, hd, res_bind_ok, hedit]
      rfl)
  case shown =>
    rintro h n s _ d rfl hd
    exact replies_of_noram rfl (by
      rw [hd]
      rfl)
  case start =>
    rintro h n s _ _ _ rfl rfl rfl hn hheld hst hcmd
    exact replies_of_noram rfl (by
      rw [hn, res_bind_ok, tmuStartNow, hheld, res_bind_ok, hst, res_bind_ok, need_ok _ _ (decide_eq_true hcmd)]
      rfl)
  case halt =>
    rintro h n s _ _ _ rfl rfl rfl hn hheld hst
    exact replies_of_noram rfl (by
      rw [hn, res_bind_ok, tmuHaltCmd, hheld, res_bind_ok, hst]
      rfl)
  case clear =>
    rintro h n s _ d rfl hd hst hbusy
    exact replies_of_noram rfl (by
      rw [hd, res_bind_ok, hst, res_bind_ok, need_ok _ _ (by simp [hbusy])]
      rfl)
  case stat =>
    rintro h n s _ d _ rfl hd rfl
    exact replies_of_noram rfl (by
      rw [hd]
      rfl)
  case results =>
    rintro h n k m s _ d _ rfl hn rfl hm hd hst
    exact replies_of_noram rfl (by
      dsimp only
      rw [hn, res_bind_ok, hm, res_bind_ok, hd, res_bind_ok, hst]
      rfl)
  case read =>
    rintro h n k m s _ d _ rfl hn rfl hm hd hst
    exact replies_of_noram rfl (by
      dsimp only
      rw [hn, res_bind_ok, hm, res_bind_ok, hd, res_bind_ok, hst]
      rfl)
  case status =>
    rintro h n s _ d _ rfl hd rfl
    exact replies_of_noram rfl (by
      rw [hd]
      rfl)
  case startEdge =>
    rintro dt n t di s _ d x rfl hd hx hstart hready htimeout
    change execTmuStartEdge dt n t di s = _
    rw [execTmuStartEdge]
    dsimp only
    rw [hd, hx]
    dsimp only
    rw [if_neg (by simp [hstart, hready, htimeout])]
  case stopEdge =>
    rintro dt n t di s _ d x a rfl hd hx hstart hlater htimeout
    change execTmuStopEdge dt n t di s = _
    rw [execTmuStopEdge]
    dsimp only
    rw [hd, hx, hstart]
    dsimp only
    rw [if_neg (by simp [tooSoon_of_later hlater, htimeout])]
  case timeout =>
    rintro dt n s _ d x _ rfl hd hx hstart rfl hdue hsent
    change execTmuTimeout dt n s = _
    rw [execTmuTimeout]
    dsimp only
    rw [hd, hx, hstart]
    dsimp only
    rw [Option.getD_none, if_neg (Nat.not_lt.mpr hdue), if_pos hsent]
    rfl
  case stamp =>
    rintro dt n k t di s _ d x rfl hd hx hlow hhigh hk hstamps hstampT
    change execTmuFreqStamp dt n k t di s = _
    rw [execTmuFreqStamp]
    dsimp only
    rw [hd, hx]
    dsimp only
    rw [if_neg (by simp [hlow, hhigh, hk, hstamps, hstampT])]
    simp only [hstamps, List.isEmpty_nil, if_true, show (firstStamp (advance s dt) x).stamps = [] from hstamps, List.nil_append]
  case gate =>
    rintro dt n s _ d x _ rfl hd hx hclosed hlen hhalting hgates rfl
    change execTmuGateClose dt n s = _
    rw [execTmuGateClose]
    dsimp only
    rw [hd, hx]
    dsimp only
    rw [if_neg (Nat.not_lt.mpr hclosed), if_neg (Nat.not_lt.mpr hlen), hhalting, hgates, decide_eq_false (Nat.not_lt.mpr hlen)]
    rfl
  case lock =>
    rintro dt n s _ rfl hlock
    exact congrArg Host.Outcome.next (if_pos hlock)
  case relock =>
    rintro dt n s _ _ d rfl hlock hopen rfl hd
    change execTmuRelock dt n s = _
    rw [execTmuRelock]
    dsimp only
    rw [getTmu_advance, if_neg (by simp [hlock]), if_pos hopen, hd]

end Sys2Proof
end

section
/-! The EVENT commands and the end of an EVT pulse (chapter 19). -/

namespace Sys2Proof

open Machine

/-- A list that is not empty passes the check of a field that must be given. -/
theorem need_nonempty {l : List α} (h : l ≠ []) (e : Line) : need (!l.isEmpty) e = .ok ⟨⟩ := need_ok _ _ (by simpa using h)

/-- Settles O27: a command's hypotheses are its checks in turn. -/
theorem eventCommandsComplete : Obligations.EventCommandsComplete := by
  refine ⟨?mapEvt, ?mapModule, ?mapTrigOut, ?mapFailOut, ?mapMk, ?unmap, ?clear, ?shown, ?grant, ?revoke, ?pulse⟩
  case mapEvt =>
    rintro h n d cls hold s _ rfl hcls hmap
    exact replies_of_noram rfl (by
      rw [need_nonempty hcls, res_bind_ok, hmap]
      rfl)
  case mapModule =>
    rintro h n cls hold s _ rfl hcls hn hdone hlimit
    exact replies_of_noram rfl (by
      rw [need_nonempty hcls, res_bind_ok, need_ok _ _ (decide_eq_true hn), res_bind_ok, need_ok _ _ (by rw [hdone, hlimit]; rfl)]
      rfl)
  case mapTrigOut =>
    rintro h n d m s _ rfl hm hmap
    exact replies_of_noram rfl (by
      rw [need_ok _ _ (decide_eq_true hm), res_bind_ok, hmap]
      rfl)
  case mapFailOut =>
    rintro h d s _ rfl hmap
    exact replies_of_noram rfl (by
      rw [hmap]
      rfl)
  case mapMk =>
    rintro h n d s _ rfl hn hd hheld hmap
    exact replies_of_noram rfl (by
      rw [need_ok _ _ (decide_eq_true hn), res_bind_ok, need_ok _ _ (by rw [hheld, decide_eq_true hd]; rfl), res_bind_ok, hmap]
      rfl)
  case unmap =>
    rintro h l s _ rfl hl
    exact replies_of_noram rfl (by
      rw [need_ok _ _ hl]
      rfl)
  case clear =>
    rintro h n s _ _ rfl hn rfl hrole
    refine replies_of_noram rfl ?_
    rw [need_ok _ _ (decide_eq_true hn), res_bind_ok]
    rcases hrole with hrole | ⟨d, hrole, hsrc⟩
    · rw [hrole]
      rfl
    · rw [hrole]
      dsimp only
      rw [need_ok _ _ (decide_eq_true hsrc)]
      rfl
  case shown =>
    rintro h s _ rfl hrole
    exact replies_of_noram rfl (by
      rw [hrole]
      rfl)
  case grant =>
    rintro h s _ _ rfl rfl
    exact replies_of_noram rfl rfl
  case revoke =>
    rintro h s _ _ rfl rfl
    exact replies_of_noram rfl rfl
  case pulse =>
    rintro dt n s _ _ t rfl rfl hrel hlow hpulse hdue
    change execEvtPulseEnd dt n s = _
    rw [execEvtPulseEnd]
    rw [hrel]
    dsimp only
    rw [if_pos (by rw [hlow, hpulse, Bool.true_and, Bool.true_and]; exact decide_eq_true hdue)]

end Sys2Proof
end

section
/-! The TRACE and COUNT commands, trace slots, the counter update and the sending of event lines (chapters 19 and 20). -/

namespace Sys2Proof

open Machine

/-- A deckle that owes no TIME packet is drained as it is. -/
theorem timeTold_of_not_due (hdue : timeDue (getDk s d) (now s) = false) : timeTold s d = s := by
  rw [timeTold, hdue, Bool.and_false, if_neg Bool.false_ne_true]

/-- A queue that has lost no line announces nothing. -/
theorem tellLost_of_none (hlost : n = 0) : tellLost s l who n = s := by
  subst hlost
  exact if_neg (Nat.lt_irrefl 0)

/-- Settles O28: a command's hypotheses are its checks in turn, and each event acts under the conditions that its clause names. -/
theorem traceAndCountCommandsComplete : Obligations.TraceAndCountCommandsComplete := by
  refine ⟨?trace, ?shown, ?read, ?select, ?grantPort, ?revokePort, ?grantObserver, ?revokeObserver, ?enable, ?disable, ?port, ?slot, ?count,
    ?countClear, ?countModule, ?update, ?tenantLine, ?ownerLine⟩
  case trace =>
    rintro h d s _ e _ rfl hview rfl hring
    exact replies_of_noram rfl (by
      dsimp only
      rw [hview, res_bind_ok, hring]
      rfl)
  case shown =>
    rintro h d i n m s _ e _ rfl hargs hview rfl
    exact replies_of_noram rfl (by
      rw [hargs, res_bind_ok, hview]
      rfl)
  case read =>
    rintro h d i n m s _ e _ rfl hargs hview rfl
    exact replies_of_noram rfl (by
      rw [hargs, res_bind_ok, hview]
      rfl)
  case select =>
    rintro h f s _ _ rfl rfl hkinds hall hrange
    exact replies_of_noram rfl (by
      rw [need_ok (!f.kinds.isEmpty && _) _ (by rw [hall]; simpa using hkinds), res_bind_ok, hrange]
      rfl)
  case grantPort =>
    rintro h s _ _ rfl rfl
    exact replies_of_noram rfl rfl
  case revokePort =>
    rintro h s _ _ rfl rfl
    exact replies_of_noram rfl rfl
  case grantObserver =>
    rintro h n s _ _ rfl rfl hn
    exact replies_of_noram rfl (by
      rw [need_ok _ _ (decide_eq_true hn)]
      rfl)
  case revokeObserver =>
    rintro h n s _ _ rfl rfl hn
    exact replies_of_noram rfl (by
      rw [need_ok _ _ (decide_eq_true hn)]
      rfl)
  case enable =>
    rintro h d n s _ rfl hd hn
    exact replies_of_noram rfl (by
      rw [need_ok _ _ (decide_eq_true hd), res_bind_ok, need_ok _ _ (decide_eq_true hn)]
      rfl)
  case disable =>
    rintro h d n s _ rfl hd hn
    exact replies_of_noram rfl (by
      rw [need_ok _ _ (decide_eq_true hd), res_bind_ok, need_ok _ _ (decide_eq_true hn)]
      rfl)
  case port =>
    rintro h d on s _ rfl hd hgrant
    exact replies_of_noram rfl (by
      rw [need_ok _ _ (decide_eq_true hd), res_bind_ok, need_ok _ _ hgrant]
      rfl)
  case slot =>
    rintro dt s _ _ rfl rfl hrun hgrid hdue
    rw [exec_traceSlot_starts hrun hgrid, timeTold_of_not_due hdue]
  case count =>
    rintro h d l c s _ e rfl hlist hview hfree
    exact replies_of_noram rfl (by
      dsimp only
      rw [hlist, res_bind_ok, hview, res_bind_ok, hfree]
      rfl)
  case countClear =>
    rintro h l c s _ _ _ rfl hlist rfl hst rfl hwait
    exact replies_of_noram rfl (by
      dsimp only
      rw [hlist, res_bind_ok, hst, res_bind_ok, hwait]
      rfl)
  case countModule =>
    rintro h l c s _ t rfl hlist ht
    exact replies_of_noram rfl (by
      dsimp only
      rw [hlist, res_bind_ok]
      simp only [ht, Option.isNone_some, Bool.false_eq_true, if_false]
      rfl)
  case update =>
    rintro dt m s _ t rfl ht hdue
    change execModuleCounterUpdate dt m s = _
    rw [execModuleCounterUpdate]
    simp only [advance_md, ht, decide_eq_false (Nat.not_lt.mpr hdue), Bool.false_eq_true, if_false]
  case tenantLine =>
    rintro dt l s _ d e r rfl hup hrun hrole hq hlost
    rw [exec_eventLineSend, sendNext_of_running hrun, passNext_tenant hup hrole hq, tellLost_of_none hlost]
  case ownerLine =>
    rintro dt l s _ e r rfl hup hrun hrole hq hlost
    rw [exec_eventLineSend, sendNext_of_running hrun, passNext_owner hup hrole hq, tellLost_of_none hlost]

end Sys2Proof
end
